-- ==== Sys2Proof/Word.lean ====
section
/-! DEFINITION. The word types of the Ivdazer model and the ranges of its unit numbers (01_architecture R12, R17; 20_registers R437). -/

namespace Sys2Proof

/-- One byte of memory or of a message. -/
abbrev Byte := BitVec 8
/-- A register of 32 bits (R432). -/
abbrev Word32 := BitVec 32
/-- A 64-bit quantity: doorbell value, knot counter, timestamp. -/
abbrev Word64 := BitVec 64

/-- Core index `y * 32 + x` (R12). -/
abbrev CoreId := Fin 384
/-- Die region DR0-DR7 (R12). -/
abbrev RegionId := Fin 8
/-- DRAM stack (R12). -/
abbrev StackId := Fin 8
/-- Loom number (R256). -/
abbrev LoomId := Fin 32
/-- PCIe function: 0 is PF0, 1-31 the VFs (R272). -/
abbrev FnId := Fin 32
/-- Absolute ring index (R199). -/
abbrev RingId := Fin 262144
/-- Creel index (R228). -/
abbrev CreelId := Fin 262144
/-- Weft port (R300). -/
abbrev WeftId := Fin 16
/-- Weft link, numbered 2p and 2p + 1 (R301). -/
abbrev LinkId := Fin 32
/-- Codec channel: 0-7 decode, 8-15 encode (R350). -/
abbrev ChanId := Fin 16
/-- Fault-ledger index (R422). -/
abbrev LedgerId := Fin 1024

end Sys2Proof
end

