-- ==== Sys2Proof/Syntax.lean ====
section
/-! DEFINITION. The commands: one constructor of Instr for each of the 197 rows of the opcode table, with the operands the row's rule needs (log entry 3). Physical readings (temperatures, power, lane losses) arrive as operands; so do messages, flits and host data. -/

namespace Sys2Proof

/-- Register pages: the blocks of R437, the two BAR2 pages of a loom (R438). -/
inductive Block where
  | chip | rst | pcm | mbx | fuse | evc | scanner | loader | creel | pick | knots
  | loom (l : LoomId) | drc (s : StackId) | drp (s : StackId) | wfp (p : WeftId)
  | tap | codec (n : ChanId) | pcie | core (c : CoreId) | region (r : RegionId) | tlm
  deriving DecidableEq, Repr

/-- Width of a register access in BAR0 (R432). -/
inductive AccWidth where
  | w8 | w16 | w32 | w64
  deriving DecidableEq, Repr

/-- Which BAR of which function an access comes through (R438). -/
inductive BarTarget where
  | bar0
  | bar2 (fn : FnId)
  | config (fn : FnId)
  deriving DecidableEq, Repr

/-- Which copy of an indirect window is used: PF0's, or a loom's own (R202, R255). -/
inductive Window where
  | pf0
  | loom (l : LoomId)
  deriving DecidableEq, Repr

/-- Engines that issue operations (R175). -/
inductive Engine where
  | array | vector | shuttle | sequencer
  deriving DecidableEq, Repr

/-- Stream port directions (R186, R197). -/
inductive Dir where
  | north | east | south | west
  deriving DecidableEq, Repr

/-- Atomic operations of R313: add, and, or, xor, signed and unsigned minimum and maximum, swap, compare and swap. -/
inductive AtomicOp where
  | add | and | or | xor | minS | minU | maxS | maxU | swap | cas
  deriving DecidableEq, Repr

/-- What a snoop response says (R326). -/
inductive SnpKind where
  | ackI | dataS | dataI | evictPending
  deriving DecidableEq, Repr

/-- Opcodes of Tapestry messages (R313). -/
inductive MsgOp where
  | read | write | atomic | copy | reduceForward | knotSignal
  | readShared | readOwn | evict | snoop
  | rsp | grantS | grantM | snpRsp | evictAck | resend
  deriving DecidableEq, Repr

/-- A Tapestry message: the header fields of R314 and its data. -/
structure TapMsg where
  op : MsgOp
  aop : AtomicOp := .add
  wide : Bool := false
  noData : Bool := false
  snpInv : Bool := false
  srcDev : BitVec 14 := 0
  dstDev : BitVec 14 := 0
  srcLoom : LoomId := 0
  hops : Nat := 0
  tag : BitVec 16 := 0
  seq : BitVec 16 := 0
  len : Nat := 0
  addr : BitVec 42 := 0
  status : BitVec 8 := 0
  snp : SnpKind := .ackI
  extra : Word64 := 0
  /-- KOP of a KNOT_SIGNAL: SET when true. -/
  kopSet : Bool := false
  /-- An ATOMIC that travels on the coherence VC (R313). -/
  coh : Bool := false
  data : List Byte := []
  deriving DecidableEq, Repr

/-- A Weft flit (R303): TYPE, VC, SEQ, ACK, PAYLOAD and CRC. -/
structure Flit where
  kind : BitVec 4
  vc : BitVec 2
  seq : BitVec 12
  ack : BitVec 12
  payload : List Byte
  crc : BitVec 32
  deriving DecidableEq, Repr

/-- What each end reports when a link's training ends (R302), and the lanes found working. -/
structure TrainReport where
  lanes : BitVec 8
  peerMatches : Bool
  device : BitVec 14
  devValid : Bool
  link : LinkId
  deriving DecidableEq, Repr

/-- Why a link goes down (R307, R324). -/
inductive DownCause where
  | lanesLost | retrainFailed | replayLimit | peerStopped | enCleared
  deriving DecidableEq, Repr

/-- Key of a collective message: sender, its loom, group and tag (R339, R341). -/
structure CollKey where
  fromDev : BitVec 14
  loom : LoomId
  group : Word32
  tag : Word32
  deriving DecidableEq, Repr

/-- The body of an OPEN (R341). -/
structure CollOpen where
  opcode : BitVec 8
  members : Nat
  total : Nat
  nElem : Nat
  algo : BitVec 2
  rop : BitVec 2
  rfmt : Bool
  elem : BitVec 2
  root : Nat
  deriving DecidableEq, Repr

/-- A REDUCE_FORWARD (R339): chunk index, data, and the flags that travel with a fold (R338). -/
structure CollData where
  chunk : Nat
  flags : BitVec 6
  result : Bool
  data : List Byte
  deriving DecidableEq, Repr

/-- What a patrol read finds in a block (R285-R287). -/
inductive ScrubOutcome where
  | clean | corrected | uncorrectable
  deriving DecidableEq, Repr

/-- Causes of an uncorrectable core error (R427). -/
inductive RetireCause where
  | arrayParity | scratchpad | sequencer | portBuffer
  deriving DecidableEq, Repr

/-- Causes of the loss of a DRAM channel (R420). -/
inductive ChannelCause where
  | retrain | uncorrectableCount
  deriving DecidableEq, Repr

/-- Report classes of the ledger, in the bit order of R422. -/
inductive FaultClass where
  | ceStorm | ueSram | parity | ueDram | link | timeout | host | other
  deriving DecidableEq, Repr

/-- A fault report (R423): suspect, class, reporter, and the first report's details. -/
structure FaultRep where
  dev : BitVec 14
  type : BitVec 12
  inst : BitVec 12
  cls : FaultClass
  fromDev : Option (BitVec 14)
  reporterType : BitVec 12
  reporterInst : BitVec 12
  info1 : Word64
  /-- The report is the loss of a whole stack (R420). -/
  stackLost : Bool := false
  deriving DecidableEq, Repr

/-- One access through the host window (R281). -/
inductive HostAcc where
  | read (len : Nat)
  | write (bytes : List Byte)
  deriving DecidableEq, Repr

/-- Failing lanes that training finds in one DRAM channel (R288). -/
structure LaneFind where
  data : List Nat
  cmd : List Nat
  deriving DecidableEq, Repr

/-- A SHUTTLE LOAD of a core, with the local addresses whose blocks the code corrects as they are read (R285; log entry 3). -/
structure LoadRead where
  core : CoreId
  soft : List Nat
  deriving DecidableEq, Repr

/-- A write of DRP_TEST_CTRL, with the mismatches that the test it starts or runs finds: channel, data lanes, command lanes (R290; log entry 3). -/
structure TestWrite where
  value : BitVec 4
  found : List (Nat × Nat × Nat)
  deriving DecidableEq, Repr

/-- The commands of the part. -/
inductive Instr where
  -- reset, boot and pins
  | powerOnReset (straps : BitVec 7) (resetN : Bool)
  | resetNAssert
  | resetNRelease (straps : BitVec 7)
  | romImageLoad
  | imageVerify
  | mbxBootGo
  | peerBootFlit (data : List Byte) (last : Bool)
  | pllStart
  | dramTraining (finds : List (Nat × Nat × LaneFind)) (us : BitVec 32)
  | bootWeftTrainEnd
  | pcieLinkUp
  | pwrOkFall
  | railOutOfRange
  | vddIo18Loss
  | perstNFall
  | perstNRise
  | refclkLoss
  | refclkReturn
  | prochotAssert
  | pwrBrakeAssert
  -- power, clocks and heat
  | junctionTempSample (r : RegionId) (readings : List (BitVec 11))
  | stackTempSample (s : StackId) (readings : List (BitVec 11))
  | neighbourGradientStep (a b : RegionId)
  | pkgPowerSample (region : List (BitVec 10)) (pkg : BitVec 12)
  | droopDetect (r : RegionId) (sagLong : Bool)
  | droopRestore (r : RegionId)
  | opPointChange (r : RegionId)
  | shedLevelRise
  | shedLevelFall
  | s5Entry
  | s5Exit
  | pcmShedReqWrite (v : BitVec 3)
  | drOpCtrlWrite (r : RegionId) (v : BitVec 3)
  | pcmTimeLoRead
  | tlmEnergyLoRead
  | tlmRefresh (rails : List (BitVec 16 × BitVec 16)) (energy : Word64)
  | tlmPkgPeakClear
  | coreClockGate (c : CoreId)
  | coreWake (c : CoreId)
  -- registers and block resets
  | registerWrite (t : BarTarget) (off : BitVec 26) (w : AccWidth) (v : Word64)
  | blkCtrlLock (b : Block)
  | blkIdleReq (b : Block)
  | blockIdle (b : Block)
  | blkResetKey (b : Block) (key : Word32)
  | idleTimeout (b : Block)
  | blockResetDone (b : Block)
  | tapDevIdValid (dev : BitVec 14)
  | debugUnlock (scope : Bool) (sig : List Byte)
  -- rings, bolts and events
  | cfgRead (w : Window)
  | cfgWrite (w : Window)
  | dbWp (fn : FnId) (l : LoomId) (v : Word64) (whole : Bool)
  | dbRp (fn : FnId) (l : LoomId) (v : Word64) (whole : Bool)
  | ringEntryFetch
  | boltEntry (r : RingId)
  | boltStoreAlloc (r : RingId)
  | boltStart (r : RingId)
  | boltEnd (r : RingId)
  | completionRecordWrite (cpl : RingId)
  | ringTimeout (r : RingId)
  | timeoutGraceEnd (r : RingId)
  | operationFailure (c : CoreId)
  | fence (r : RingId)
  | fenceKnotMet (r : RingId)
  | eventPost (l : LoomId)
  | eventStage (l : LoomId)
  | msixHoldoffEnd (r : RingId)
  | evcTestGo (l : LoomId)
  | ringFault (r : RingId)
  -- core operations
  | operationFetch (c : CoreId)
  | operationIssue (c : CoreId) (e : Engine)
  | nop (c : CoreId)
  | matmul (c : CoreId)
  | conv (c : CoreId)
  | arrayPass (c : CoreId)
  | epilogue (c : CoreId)
  | commit (c : CoreId)
  | arrayParityFault (c : CoreId) (acc : Bool) (col : BitVec 8) (row : BitVec 7) (bank : Bool) (accRow : BitVec 12)
  | attn (c : CoreId)
  | bobbinFetch (c : CoreId)
  | kvWrite (c : CoreId)
  | spillStart (l : LoomId)
  | spillMove (l : LoomId)
  | vec (c : CoreId)
  | reduce (c : CoreId)
  | softmax (c : CoreId)
  | norm (c : CoreId)
  | normMerge (c : CoreId)
  | rope (c : CoreId)
  | pool (c : CoreId)
  | deltaSelect (c : CoreId)
  | optim (c : CoreId)
  | shuttleLoad (c : LoadRead)
  | shuttleStore (c : CoreId)
  | shuttleSend (c : CoreId)
  | shuttleRecv (c : CoreId)
  | accessFault (c : CoreId)
  | portCreditReturn (c : CoreId) (d : Dir)
  | knotAdd (c : CoreId)
  | knotSet (c : CoreId)
  | knotWaitGe (c : CoreId)
  | knotUpdate
  | ringPut (c : CoreId)
  -- creel, picks and parks
  | creelAdmit (r : RingId)
  | creelCancel (r : RingId)
  | condRelease (i : CreelId)
  | pickBuild (l : LoomId)
  | pickGet (c : CoreId)
  | creelAdvance (c : CoreId)
  | entryFree (i : CreelId)
  | preemptRaise (l : LoomId)
  | shedPointReach (c : CoreId)
  | parkSave (l : LoomId)
  | recoveryPark (c : CoreId)
  | parkResume (l : LoomId)
  | parkAbandon (c : CoreId)
  -- looms
  | loomCreate (l : LoomId)
  | loomStart (l : LoomId)
  | loomQuiesce (l : LoomId) (drain : Bool)
  | loomQuiesced (l : LoomId)
  | loomDestroy (l : LoomId) (scrub : Bool)
  | loomUpdate (l : LoomId)
  | vfFlr (vf : FnId)
  | creelRead (w : Window)
  -- faults and memory
  | coreRetire (c : CoreId) (cause : RetireCause)
  | coreRemap (c : CoreId)
  | dramRefresh (s : StackId)
  | patrolScrub (s : StackId) (addr : Nat) (found : ScrubOutcome)
  | dramUe (addr : Nat) (reader : Option CoreId)
  | dramChannelFail (s : StackId) (ch : Fin 32) (cause : ChannelCause)
  | drpTestCtrlWrite (s : StackId) (v : TestWrite)
  | bar4Read (off : Nat) (len : Nat)
  | bar4Write (off : Nat) (data : List Byte)
  | hostWindowAccess (l : LoomId) (addr : Nat) (acc : HostAcc)
  -- Weft ports
  | weftPortEnable (p : WeftId)
  | weftPortDisable (p : WeftId)
  | linkTrained (k : LinkId) (rep : TrainReport)
  | linkTrainRetry (k : LinkId)
  | laneFail (p : WeftId) (lane : Fin 8)
  | linkDown (k : LinkId) (cause : DownCause)
  | flitReceive (k : LinkId) (f : Flit) (corrected uncorrectable : BitVec 8)
  | flitNak (k : LinkId) (seq : BitVec 12)
  -- Tapestry router
  | tapestryRequest (m : TapMsg)
  | tapestryForward (m : TapMsg)
  | tapestryResponse (m : TapMsg)
  | tapestryResend (dst : BitVec 14) (vc : BitVec 2) (seq : BitVec 16)
  | tapReqTimeout (tag : BitVec 16)
  | knotSignal (m : TapMsg)
  | copy (m : TapMsg)
  -- coherence
  | coherentLoad (l : LoomId) (dev : BitVec 14) (addr : BitVec 42)
  | coherentStore (l : LoomId) (dev : BitVec 14) (addr : BitVec 42) (data : List Byte)
  | coherentEvict (dev : BitVec 14) (addr : BitVec 42)
  | readShared (m : TapMsg)
  | readOwn (m : TapMsg)
  | evict (m : TapMsg)
  | snoop (m : TapMsg)
  | snpRsp (m : TapMsg)
  | grantS (m : TapMsg)
  | grantM (m : TapMsg)
  | evictAck (m : TapMsg)
  | dirBackinv (addr : BitVec 42)
  | tapRtRead
  | tapRtWrite
  -- collectives
  | allReduce (c : CoreId)
  | reduceScatter (c : CoreId)
  | allGather (c : CoreId)
  | allToAll (c : CoreId)
  | broadcast (c : CoreId)
  | permute (c : CoreId)
  | barrier (c : CoreId)
  | collOpen (k : CollKey) (o : CollOpen)
  | collAbort (k : CollKey)
  | stagingGrant (k : CollKey) (units : Nat) (pull : Option Nat)
  | reduceForward (m : TapMsg) (k : CollKey) (d : CollData)
  -- codec
  | codecConfig (c : CoreId)
  | codecDecode (c : CoreId)
  | codecEncode (c : CoreId)
  | codecFlush (c : CoreId)
  | codecBandRead (n : ChanId)
  | codecSliceDone (n : ChanId)
  | codecPictureDone (n : ChanId) (damage : List Nat) (refMissing hashBad : Bool)
  | sequenceUnsupported (n : ChanId) (size : Bool)
  | codecStall (n : ChanId)
  | codecFault (n : ChanId) (errBits : BitVec 8)
  -- fault ledger
  | faultReport (rep : FaultRep)
  | ledgerHoldoffEnd (i : LedgerId)
  | ledgerAgeOut (i : LedgerId)
  | flRelease (i : LedgerId)
  | flRead
  | ceStorm (b : Block)
  -- later rows of the table
  | coolingFault
  | prochotDeassert
  | pwrBrakeDeassert
  | loomBobPoolWrite (l : LoomId) (tier : Fin 3) (v : Word32)
  | imageCommit
  | dramChannelRetrain (s : StackId) (ch : Fin 32) (ok : Bool)
  | vddIo18Return (straps : BitVec 7)
  | resizableBarWrite (log2Gib : BitVec 5)
  deriving DecidableEq, Repr

end Sys2Proof
end

