-- ==== Sys2Proof/Config.lean ====
section
/-! DEFINITION. The free values: constants with no body, for what the spec leaves open. Nothing can prove a value of one, so a statement about them holds whatever they are (log entries 8, 9, 10, 14). -/

namespace Sys2Proof.Config

/-- The result of a special function of R120 before it is held within the bound: function code (VOP of R116) and FP32 input. The same bits on every part (R22). -/
opaque specialFn : Nat → BitVec 32 → BitVec 32

/-- The quotient of a statistic by a count of 0 (R129): its FP32 bits, and whether the divisor is n − 1. The same bits on every part (R22, R46). -/
opaque quotByZero : BitVec 32 → Bool → BitVec 32

/-- A byte of decoded picture `n`: session record, bitstream so far cut at each FLUSH, picture number, byte of the picture layout (R354, R362, R366-R368). -/
opaque decodedByte : List (BitVec 8) → List (List (BitVec 8)) → Nat → Nat → BitVec 8

/-- Bytes of a coded slice: session record, source pictures with their samples, FORCE_KEY and lookahead applied, picture, slice (R365). -/
opaque codedSlice : List (BitVec 8) → List (List (BitVec 8) × Bool × Nat) → Nat → Nat → List (BitVec 8)

/-- Width and height of picture `n` of a stream, whether it is 4:2:2 and whether its samples take two bytes (R362). -/
opaque pictureGeometry : List (BitVec 8) → List (List (BitVec 8)) → Nat → Nat × Nat × Bool × Bool

/-- Number of pictures a stream holds (R359). -/
opaque pictureCount : List (BitVec 8) → List (List (BitVec 8)) → Nat

/-- Stream offset of the first byte of picture `n`, and whether it is a key picture (R357, R371). -/
opaque pictureStart : List (BitVec 8) → List (List (BitVec 8)) → Nat → Nat × Bool

/-- The picture buffer the decoder would choose for picture `n` (R362, R371). -/
opaque pictureBuffer : List (BitVec 8) → List (List (BitVec 8)) → Nat → Nat

/-- Units of syntax that the last chunk of a stream makes in the entropy engine (R352): session record, bitstream so far. -/
opaque chunkUnits : List (BitVec 8) → List (List (BitVec 8)) → Nat

/-- Units of syntax of picture `n` of a stream (R352). -/
opaque pictureUnits : List (BitVec 8) → List (List (BitVec 8)) → Nat → Nat

/-- Units of syntax of a coded slice (R352): what its bytes depend on (R365). -/
opaque sliceUnits : List (BitVec 8) → List (List (BitVec 8) × Bool × Nat) → Nat → Nat → Nat

/-- SHA-384 (R410). -/
opaque sha384 : List (BitVec 8) → BitVec 384

/-- ECDSA P-384 verification under SHA-384: public key, message, signature (R410, R412). -/
opaque ecdsaVerify : List (BitVec 8) → List (BitVec 8) → List (BitVec 8) → Bool

/-- ECDSA P-384 verification against the hash of the debug key: key hash, message, signature (R412). -/
opaque debugVerify : BitVec 384 → List (BitVec 8) → List (BitVec 8) → Bool

/-- A fresh 256-bit challenge for the n-th debug attempt (R412). -/
opaque challenge : Nat → BitVec 256

/-- CRC-32 of a flit's bytes 0-59: the spec names no polynomial (R303). -/
opaque crc32 : List (BitVec 8) → BitVec 32

/-- A byte the spec leaves undefined: the value of the free-value counter and an index. -/
opaque freeByte : Nat → Nat → BitVec 8

/-- The place of a line in the remote line cache: a fixed function of its Tapestry address (R330). -/
opaque lineSlot : Nat → Nat

/-- The directory set of a line (R329). -/
opaque dirSet : Nat → Nat

end Sys2Proof.Config
end

