-- ==== Sys2Proof/Machine/Bits.lean ====
section
/-! DEFINITION. Helpers with no state: keyed tables, bit fields, little-endian byte strings, list updates and time conversions. -/

namespace Sys2Proof.Machine

/-- A sparse table keyed by number. An absent key reads as the default its reader names. -/
abbrev Tab (α : Type) := List (Nat × α)

/-- Value at key `k`, `d` when absent. -/
def tget {α : Type} (d : α) (t : Tab α) (k : Nat) : α :=
  match t with
  | [] => d
  | (j, v) :: r => if j = k then v else tget d r k

/-- Value at key `k`, if listed. -/
def tfind {α : Type} (t : Tab α) (k : Nat) : Option α :=
  match t with
  | [] => none
  | (j, v) :: r => if j = k then some v else tfind r k

/-- Removes key `k`. -/
def tdel {α : Type} (t : Tab α) (k : Nat) : Tab α :=
  t.filter fun p => p.1 ≠ k

/-- Sets key `k` to `v`: a table keeps its keys rising, so that equal tables are equal data. -/
def tput {α : Type} (t : Tab α) (k : Nat) (v : α) : Tab α :=
  match t with
  | [] => [(k, v)]
  | (j, w) :: r => if k < j then (k, v) :: (j, w) :: r else if j = k then (k, v) :: r else (j, w) :: tput r k v

/-- Bits `hi..lo` of a number. -/
def bitsOf (v hi lo : Nat) : Nat := (v / 2 ^ lo) % 2 ^ (hi + 1 - lo)

/-- Bit `i` of a number. -/
def bitOf (v i : Nat) : Bool := v / 2 ^ i % 2 == 1

/-- Field `hi..lo` of a register value. -/
def fld (w : Word32) (hi lo : Nat) : Nat := bitsOf w.toNat hi lo

/-- Bit `i` of a register value. -/
def fbit (w : Word32) (i : Nat) : Bool := w.getLsbD i

/-- Mask of the bits `hi..lo`. -/
def fmask (hi lo : Nat) : Word32 := BitVec.ofNat 32 ((2 ^ (hi + 1 - lo) - 1) * 2 ^ lo)

/-- The register value with field `hi..lo` set to `v`. -/
def setFld (w : Word32) (hi lo v : Nat) : Word32 :=
  (w &&& ~~~ fmask hi lo) ||| (BitVec.ofNat 32 (v * 2 ^ lo) &&& fmask hi lo)

/-- The register value with bit `i` set to `b`. -/
def setBit (w : Word32) (i : Nat) (b : Bool) : Word32 := setFld w i i (if b then 1 else 0)

/-- A Boolean as a number. -/
def b2n (b : Bool) : Nat := if b then 1 else 0

/-- Least significant byte first: the number a byte string spells. -/
def leNat : List Byte → Nat
  | [] => 0
  | b :: r => b.toNat + 256 * leNat r

/-- `n` bytes of a number, least significant first. -/
def toLe : Nat → Nat → List Byte
  | 0, _ => []
  | n + 1, v => BitVec.ofNat 8 v :: toLe n (v / 256)

/-- Bytes `[off, off + n)` of a byte string; bytes beyond its end read 0. -/
def slice (l : List Byte) (off n : Nat) : List Byte :=
  ((l.drop off).take n) ++ List.replicate (n - (l.drop off).length) 0

/-- Little-endian number of `n` bytes at `off`. -/
def fieldLe (l : List Byte) (off n : Nat) : Nat := leNat ((l.drop off).take n)

/-- Byte `off` as a number, 0 beyond the end. -/
def byteAt (l : List Byte) (off : Nat) : Nat := (l.getD off 0).toNat

/-- The string with `v` written from `off` on; the length stays. -/
def patch (l : List Byte) (off : Nat) (v : List Byte) : List Byte :=
  (l.take off ++ v ++ l.drop (off + v.length)).take l.length

/-- Bytes of a list of 32-bit words. -/
def wordsToBytes (ws : List Word32) : List Byte := ws.flatMap fun w => toLe 4 w.toNat

/-- 32-bit words of a byte string. -/
def bytesToWords (n : Nat) (l : List Byte) : List Word32 :=
  (List.range n).map fun i => BitVec.ofNat 32 (fieldLe l (4 * i) 4)

/-- All bytes of `[lo, hi)` are zero. -/
def zeros (l : List Byte) (lo hi : Nat) : Bool := ((l.drop lo).take (hi - lo)).all (· == 0)

/-- Replaces the elements that satisfy `p`. -/
def replaceIf {α : Type} (p : α → Bool) (f : α → α) (l : List α) : List α :=
  l.map fun x => if p x then f x else x

/-- Replaces element `i`. -/
def setAt {α : Type} (l : List α) (i : Nat) (v : α) : List α := l.set i v

/-- Removes the first element that satisfies `p`. -/
def dropFirst {α : Type} (p : α → Bool) : List α → List α
  | [] => []
  | x :: r => if p x then r else x :: dropFirst p r

/-- Ceiling division. -/
def cdiv (a b : Nat) : Nat := (a + b - 1) / b

/-- `a` rounded up to a multiple of `b`. -/
def roundUp (a b : Nat) : Nat := cdiv a b * b

/-- Whether `t` AON ticks since `since` amount to at least `us` microseconds: one tick is 51.2 ns (R376). -/
def elapsedUs (now since : Word64) (us : Nat) : Bool :=
  decide (us * 10000 ≤ (now - since).toNat * 512)

/-- Ticks since `since`, in whole microseconds (R376). -/
def ticksToUs (now since : Word64) : Nat := (now - since).toNat * 512 / 10000

/-- Sorted insertion of a number, without repeats. -/
def insNat (n : Nat) : List Nat → List Nat
  | [] => [n]
  | m :: r => if n < m then n :: m :: r else if n = m then m :: r else m :: insNat n r

/-- Whether two half-open ranges `[a, a + n)` and `[b, b + m)` share an element. -/
def overlaps (a n b m : Nat) : Bool := decide (a < b + m) && decide (b < a + n) && decide (0 < n) && decide (0 < m)

/-- Whether `[a, a + n)` lies within `[b, b + m)`. -/
def within (a n b m : Nat) : Bool := decide (b ≤ a) && decide (a + n ≤ b + m)

/-- Whether a list repeats an element. -/
def noRepeats : List Nat → Bool
  | [] => true
  | x :: r => !(r.contains x) && noRepeats r

end Sys2Proof.Machine
end

