-- ==== Sys2Proof/Machine/State.lean ====
section
/-! DEFINITION. The state of the part, as plain data, and the state after reset. Each field's docstring names the rule that gives it; values the spec leaves open are DESIGN CHOICE and name their log entry. -/

namespace Sys2Proof.Machine

/-- Why a step stops without a next state. No meaning of this model faults: the spec gives every command an effect, and a command whose conditions are not met waits (log entry 2). -/
inductive Fault where
  /-- Raised by nothing; it keeps the type inhabited. Safe. -/
  | stuck
  deriving DecidableEq, Repr

/-- Why a command has no meaning. -/
inductive Refusal where
  /-- The command has no meaning in the model yet. Raised only by arms of Dispatch. Safe. -/
  | notModelled (mnemonic : String)
  deriving DecidableEq, Repr

/-- Fuses (R6, R62, R411, R444, R445). Values at reset: an IVZ-384 of stepping B1 with nothing fused out (DESIGN CHOICE, log entry 5). -/
structure Fuses where
  /-- FUSE_GRADE.GRADE. -/
  grade : BitVec 2 := 0
  stepMajor : BitVec 4 := 1
  stepMinor : BitVec 4 := 1
  /-- Bit i: core i enabled. -/
  coreEn : BitVec 384 := BitVec.allOnes 384
  /-- Fused-out array columns of a core, at most two (R62). -/
  badCols : Tab (List Nat) := []
  uniqueId : BitVec 128 := 0
  /-- Number of ARB bits blown. -/
  arbCount : Nat := 0
  /-- SHA-384 of each permitted image key, as byte strings. -/
  keyHash : List (BitVec 384) := [0, 0, 0, 0]
  revoked : BitVec 4 := 0
  dbgKeyHash : BitVec 384 := 0
  dbgDisable : Bool := false
  pciVendor : BitVec 16 := 0
  pciDevice : BitVec 16 := 0
  deriving DecidableEq, Repr

/-- Pins and board conditions (R448, R449, R454; 18 R399-R404). Levels at reset are DESIGN CHOICE (log entry 7). -/
structure Board where
  resetN : Bool := true
  pwrOk : Bool := true
  perstN : Bool := true
  prochotN : Bool := true
  pwrBrakeN : Bool := true
  straps : BitVec 7 := 0
  gpio : BitVec 16 := 0
  refclk : Bool := true
  vddIo18 : Bool := true
  /-- THERMTRIP_N asserted (R387). -/
  thermTrip : Bool := false
  /-- Every 1.8 V pin high-impedance (R454). -/
  pinsHiZ : Bool := false
  /-- The ROM drives the boot-flash pins, in SPI boot only; else they are high-impedance (R403). -/
  spiOn : Bool := false
  /-- PE_TX in electrical idle (R403). -/
  peIdle : Bool := true
  /-- Weft ports whose transmitters are in electrical idle (R403). -/
  wfIdle : BitVec 16 := BitVec.allOnes 16
  /-- VFs that SR-IOV has enabled (R438, R259); PCIe configuration, log entry 13. -/
  numVfs : Nat := 0
  /-- MSI-X enable bit of each function (R404); PCIe configuration, log entry 13. -/
  msixEn : BitVec 32 := 0
  deriving DecidableEq, Repr

/-- The boot order (R398-R412). -/
structure Boot where
  /-- The ROM waits for an image. -/
  waiting : Bool := true
  /-- A host load is in progress (R409). -/
  loading : Bool := false
  /-- Bytes of image loaded, header included. -/
  imgBytes : Nat := 0
  /-- An image lies in staging and has not been judged (R409, R410). -/
  present : Bool := false
  /-- Firmware runs (R410). -/
  firmware : Bool := false
  /-- ARB_VER of the running image (R410). -/
  arbVer : Nat := 0
  /-- Both SPI slots failed and host load serves (R409). -/
  fellBack : Bool := false
  /-- SPI slot to try next: 0 A, 1 B, 2 none. -/
  nextSlot : Nat := 0
  ltssm : Bool := false
  pcieUp : Bool := false
  /-- Stage 5 start time (R401). -/
  weftSince : Word64 := 0
  /-- Boot flits acknowledged to the peer: the model's output (R409). -/
  acks : Nat := 0
  /-- Debug attempts so far: each draws a fresh challenge (R412). -/
  dbgAttempts : Nat := 0
  /-- Scope unlocked: none, status (false) or full (true). -/
  dbgScope : Option Bool := none
  deriving DecidableEq, Repr

/-- The power and clock manager beside its registers (R389-R394). -/
structure Power where
  sag : Bool := false
  /-- Level the budget demands: 0 or 2-4. -/
  budget : BitVec 3 := 0
  prochot : Bool := false
  brake : Bool := false
  /-- Firmware emergencies (R391, R399): loss of REFCLK_SYS, a rail, PWR_OK, a cooling fault. -/
  emRef : Bool := false
  emRail : Bool := false
  emPwr : Bool := false
  emCool : Bool := false
  /-- Stack 0 lost in service (R420). -/
  emDram : Bool := false
  /-- Time since which every demand has stayed below the level in force. -/
  belowSince : Option Word64 := none
  /-- Time of the last rise of the level. -/
  riseAt : Word64 := 0
  /-- S5 is in force (R393). -/
  s5 : Bool := false
  /-- Package energy in mJ (R447). -/
  energy : Word64 := 0
  /-- Package ceiling, 0-7 (R389). -/
  pkgCeil : BitVec 3 := 0
  pkgFallAt : Word64 := 0
  pkgRiseAt : Word64 := 0
  /-- Time since which power has exceeded the limit with every region at P7. -/
  overSince : Option Word64 := none
  deriving DecidableEq, Repr

/-- A die region beside its registers (R382-R388). -/
structure Region where
  /-- Junction ladder ceiling. -/
  ladder : BitVec 3 := 0
  /-- Neighbour gradient steps (R385). -/
  grad : BitVec 3 := 0
  gradAt : Word64 := 0
  /-- Junction halt in force (R387). -/
  halt : Bool := false
  /-- Clock halved (R388). -/
  droop : Bool := false
  droopAt : Word64 := 0
  /-- Operating point a change in progress moves to (R382). -/
  target : Option (BitVec 3) := none
  deriving DecidableEq, Repr

/-- A ring: its descriptor (R200) and its run state (R201, R203, R225; 19 R418). Zero at reset, DESIGN CHOICE (log entry 6). -/
structure Ring where
  base : Word64 := 0
  log2 : BitVec 8 := 0
  kind : BitVec 3 := 0
  enable : Bool := false
  irqEn : Bool := false
  timeout : BitVec 24 := 0
  wp : Word32 := 0
  rp : Word32 := 0
  wbAddr : Word64 := 0
  msix : BitVec 16 := 0
  holdoff : BitVec 16 := 0
  cplRing : BitVec 18 := 0
  /-- Stopped by a RING_FAULT (R201). -/
  faulted : Bool := false
  /-- Fetching stopped by CORE_LOST (R418). -/
  lost : Bool := false
  /-- Time of the last interrupt, while a holdoff runs (R225). -/
  holdSince : Option Word64 := none
  /-- A record was written during the holdoff (R225). -/
  owed : Bool := false
  deriving DecidableEq, Repr

/-- Position of the scanner in its round (R206). -/
structure Scan where
  cls : Nat := 7
  /-- Entries left of the class's share. -/
  left : Nat := 0
  /-- Loom last served, per class. -/
  loom : Tab Nat := []
  /-- Ring last served, per loom. -/
  ring : Tab Nat := []
  deriving DecidableEq, Repr

/-- Where a fetched entry stands (R207-R221). -/
inductive Phase where
  /-- Fetched, not yet taken up. -/
  | fetched
  /-- A bolt waiting for store space. -/
  | waitStore
  /-- Verified; waits for its ring predecessor and its cores. -/
  | ready
  /-- A fence past its first step. -/
  | fenceWait
  /-- Running. -/
  | running
  /-- Ended; its completion record waits. -/
  | ended
  deriving DecidableEq, Repr

/-- One stage of a running bolt, after substitution (R211, R418). -/
structure Stage where
  sel : Nat
  cores : List Nat
  spares : List Nat
  chain : Bool
  deriving DecidableEq, Repr

/-- Why a bolt's cores were asked to stop (R218, R220, R251, R262). -/
inductive StopWhy where
  | none | timeout | failure | quiesce | halt | park | lost
  deriving DecidableEq, Repr

/-- The verified bolt of an entry (R210-R222). -/
structure Bolt where
  /-- First 64 KiB unit of the bolt store and the units held (R215). -/
  unit : Nat := 0
  units : Nat := 0
  stages : List Stage := []
  start : Word64 := 0
  /-- Its place in the order of fetches, starts and ends (R209). -/
  startSeq : Nat := 0
  /-- Time the TIMEOUT count started or continued, and microseconds counted before a pause (R247). -/
  clockAt : Word64 := 0
  clockUs : Nat := 0
  clockOn : Bool := true
  stop : StopWhy := .none
  graceAt : Word64 := 0
  parked : Bool := false
  wasParked : Bool := false
  remapped : Bool := false
  /-- Port occupancy of the saved image: core, bytes of each unit of each port, credits of each port (R247). -/
  saved : List (Nat × List (List Nat) × List Nat) := []
  /-- Core whose save slot holds a substitute's image (R419). -/
  homes : Tab Nat := []
  /-- Recovery point: core, shed point, operations done; empty is the bolt's start (R419). -/
  recovery : List (Nat × Nat × List Nat) := []
  /-- While parked, what each core keeps beside its image (R46, R249, R252): served KEEP point, counters run since the first PROFILE issue, PROFILE operations completed. -/
  kept : Tab (Nat × Option (List Word32) × Nat) := []
  /-- An operation that is not RESTARTABLE has begun its commit since the recovery point (R92). -/
  noRepeat : Bool := false
  deriving DecidableEq, Repr

/-- An entry fetched from a SUBMIT ring and not finished (R206-R221). -/
structure Entry where
  ring : Nat
  seq : Word32
  loom : Nat
  bytes : List Byte
  fetchTime : Word64
  phase : Phase := .fetched
  status : Nat := 0
  reject : Nat := 0
  opsDone : Word32 := 0
  firstFail : Word32 := 0xFFFFFFFF
  failCore : Nat := 0xFFFF
  flags : BitVec 10 := 0
  start : Word64 := 0
  endTime : Word64 := 0
  /-- End order among entries that wait for their record (R221). -/
  endSeq : Nat := 0
  bolt : Option Bolt := none
  /-- BOLT_ID of the record (R219, R234). -/
  id : Word64 := 0
  /-- TIMEOUT in force for this entry, in microseconds; 0 means none (R203). -/
  limit : Nat := 0
  /-- Its place in the order of fetches, starts and ends (R209). -/
  fetchSeq : Nat := 0
  deriving DecidableEq, Repr

/-- An event record (R223). -/
structure Event where
  type : BitVec 16
  loom : Nat
  srcType : BitVec 16
  srcInst : BitVec 16
  time : Word64
  info0 : Word64
  info1 : Word64
  deriving DecidableEq, Repr

/-- An operation in a slot (R174, R175). -/
structure Slot where
  /-- Descriptor index. -/
  idx : Nat
  words : List Word32
  deferred : Bool := false
  promoted : Bool := false
  /-- The knot wait has been satisfied (R194). -/
  knotMet : Bool := false
  issued : Bool := false
  /-- The commit has begun (R89, R118). -/
  committing : Bool := false
  /-- A REMOTE KNOT update has no response yet (R195). -/
  waiting : Nat := 0
  /-- Index of the part done next, for operations that run in parts. -/
  pos : Nat := 0
  /-- Bytes the sequencer read when the operation issued: index count, bitmaps, pointer, parameter block (R74, R98, R163, R181). -/
  got : List Byte := []
  /-- Index entries of the operation's rows, read as it begins on the array (R74, R75; log entry 45). -/
  ents : List Byte := []
  /-- Floating-point flags, GATHER_RANGE and FULLY_MASKED that the commit will contribute (R44, R77, R125). -/
  flags : BitVec 6 := 0
  grange : Bool := false
  fmasked : Bool := false
  deriving DecidableEq, Repr

/-- A matrix operation that has begun on the array and not begun its commit (R54-R57). -/
structure ArrayRun where
  op : Nat
  /-- Output tile and K-tile of the pass run next. -/
  tile : Nat := 0
  pass : Nat := 0
  /-- The bank of the tile in progress. -/
  bank : Bool := false
  deriving DecidableEq, Repr

/-- A bobbin on its way between tiers (R169, R170): its table entry, which reads BUSY, where it lies, where it goes, and its bytes. -/
structure Move where
  loom : Nat
  ent : Nat
  src : Nat
  srcTier : Nat
  dst : Nat
  dstTier : Nat
  len : Nat
  deriving DecidableEq, Repr

/-- The ATTN that holds the array (R152-R161, R169). -/
structure AttnRun where
  op : Nat
  /-- List entry fetched next, and bobbins fetched so far. -/
  fetchAt : Nat := 0
  fetched : Nat := 0
  /-- Bobbins in the slot ring not yet consumed: list entry, bobbin, FILL, ring slot. -/
  ready : List (Nat × Nat × Nat × Nat) := []
  /-- Running maximum and sum of each row and head (R126), as FP32. -/
  ml : List (Word32 × Word32) := []
  /-- Floating-point flags of each row and head (R43, R125). -/
  fl : List (BitVec 6) := []
  deriving DecidableEq, Repr

/-- A core beside its registers and its slot of local memory (R174-R188, R222, R250). -/
structure Core where
  /-- The entry whose bolt the core runs: ring and pointer value. -/
  bolt : Option (Nat × Word32) := none
  slots : List Slot := []
  /-- Next descriptor index to fetch. -/
  fetchAt : Nat := 0
  /-- Operations completed. -/
  done : List Nat := []
  /-- Asked to stop at the next shed point (R68), and when. -/
  stopReq : Bool := false
  stopSince : Word64 := 0
  /-- Cycles the core has run since the request, in 1/20,000 of a cycle (R250). -/
  stopRan : Nat := 0
  stopped : Bool := false
  /-- When it stopped, its begun commits completed (R247, R254). -/
  stoppedAt : Word64 := 0
  /-- Shed point at which the core stopped: index into the stage's records. -/
  stopAt : Nat := 0
  /-- One more than the KEEP shed point last served (R252). -/
  keepAt : Nat := 0
  /-- Failure found and not yet reported by OPERATION_FAILURE: operation index, status, event info (R220). -/
  fail : Option (Nat × Nat × Word64 × Word64) := none
  /-- Matrix operations begun on the array, oldest first: a main-window operation may run between the tiles of a deferred one (R56, R177). -/
  arr : List ArrayRun := []
  /-- Tiles whose last pass has written their bank, oldest first: operation, tile, and bank; none for a tile that ran no pass (R57, R99). -/
  epiQ : List (Nat × Nat × Option Bool) := []
  attn : Option AttnRun := none
  /-- The promotion that a shuttle of the core has under way (R169). -/
  promo : Option Move := none
  /-- Bank of the next output tile (R55): B when true; and the banks in use. -/
  nextBank : Bool := false
  bankBusy : Bool × Bool := (false, false)
  /-- Loaded special-function group (R119). -/
  sfu : Nat := 0
  /-- Received units of the four ports, oldest first (R186). -/
  rx : Tab (List (List Byte)) := []
  /-- Credits owed back to the sender of each port (R186). -/
  owe : Tab Nat := []
  /-- Ports whose last received unit the sender is still filling (R186). -/
  rxOpen : List Nat := []
  /-- Bytes of committed SHUTTLE operations not yet counted in whole 256-byte units (R197). -/
  shRest : Nat := 0
  /-- Counter copy of the first PROFILE issue (R222), and PROFILE operations completed. -/
  prof : Option (List Word32) := none
  profDone : Nat := 0
  /-- Array columns in order of use follow the fuses; retired for good (R417). -/
  retired : Bool := false
  deriving DecidableEq, Repr

/-- A queued loom command (R257). -/
structure LoomCmd where
  op : Nat
  drain : Bool := false
  scrub : Bool := false
  flr : Bool := false
  /-- An UPDATE whose settings are in force since `since` and that waits for older accesses (R265); a START whose keys are copied (R261). -/
  applied : Bool := false
  /-- Its LOOM_STATE event is posted; it finishes once that is staged (R223). -/
  posted : Bool := false
  since : Word64 := 0
  deriving DecidableEq, Repr

/-- A key record (R235). -/
structure KeyRec where
  key : Word32
  budget : Nat
  limit : Nat
  fullAddr : Word64
  fullBytes : Nat
  deltaAddr : Word64
  deltaBytes : Nat
  deriving DecidableEq, Repr

/-- An outstanding pick (R236-R239). -/
structure Pick where
  seq : Nat
  urgent : Bool
  delta : Bool
  members : List Nat
  submit : Nat
  ring : Nat
  /-- Highest PRIO of its members (R246). -/
  hi : Nat := 0
  deriving DecidableEq, Repr

/-- A pick that is being written (R238): its entries still to write to its ring, and the BOLT entry that follows them. -/
structure Build where
  pick : Pick
  todo : List (List Byte)
  post : List Byte
  deriving DecidableEq, Repr

/-- Why a park is under way (R246, R251, R252). -/
inductive ParkWhy where
  | urgent | pause | quiesce | recovery
  deriving DecidableEq, Repr

/-- A park (R247-R252). -/
structure Park where
  ring : Nat
  seq : Word32
  why : ParkWhy
  since : Word64
  /-- 1 parking, 2 parked, 3 resuming (R254). -/
  st : Nat := 1
  /-- The core that asked for a recovery park. -/
  asker : Nat := 0
  deriving DecidableEq, Repr

/-- A loom beside its registers (R257, R262-R264, R235-R252, R170). -/
structure Loom where
  cmds : List LoomCmd := []
  /-- The first command of the queue has started and waits (R262-R264). -/
  executing : Bool := false
  /-- The quiescence in progress uses DRAIN = 0 (R263). -/
  noDrain : Bool := false
  keys : List KeyRec := []
  pickSeq : Nat := 1
  picks : List Pick := []
  lastBuild : Option Word64 := none
  build : Option Build := none
  /-- Parks under way or saved, at most one of a bolt. -/
  parks : List Park := []
  urgents : Nat := 0
  paused : Bool := false
  /-- The spill engine's move in progress, and the table entries it has chosen to move next (R170). -/
  spill : Option Move := none
  cands : List Nat := []
  /-- Export windows closed by a DESTROY in progress (R264). -/
  closed : Bool := false
  /-- Free-ring heads and tails of tiers T1-T3 (R168). -/
  freeHead : Tab Nat := []
  freeTail : Tab Nat := []
  /-- The step bolt's park was abandoned: the pause or quiescence in progress lets it run to its end (R262). -/
  noPark : Bool := false
  deriving DecidableEq, Repr

/-- A creel entry (R229). FREE entries are not listed. -/
structure CreelEnt where
  reqTag : Word64
  loom : Nat
  /-- 1 ADMITTED, 2 READY, 3 IN_PICK, 4 PARKED, 5 DONE, 6 FAILED, 7 CANCELLED. -/
  state : Nat
  cancelPend : Bool := false
  guide : Bool
  prio : Nat
  cls : Nat
  batchKey : Word32
  step : Nat
  stepCount : Nat
  refresh : Nat
  chunk : Nat
  chunkCount : Nat
  rows : Nat
  schedPtr : Word64
  latentPtr : Word64
  condPtr : Word64
  bobbinPtr : Word64
  deltaRefPtr : Word64
  outBoltAddr : Word64
  outBoltBytes : Word32
  outSubmit : Nat
  outRing : Nat
  codecCh : Nat
  outParam : Word64
  deadline : Word64
  admitSeq : Nat
  condKnot : Nat
  condValue : Word64
  admitTime : Word64
  doneTime : Word64 := 0
  picks : Nat := 0
  parks : Nat := 0
  /-- Output bolts posted whose record is not written (R230). -/
  outs : Nat := 0
  deriving DecidableEq, Repr

/-- A DRAM stack beside its registers (R287-R293; 19 R420). Buckets 0 at reset, DESIGN CHOICE (log entry 6). -/
structure Stack where
  trained : Bool := false
  /-- Retrains of each channel since its last success (R420). -/
  retrains : Tab Nat := []
  /-- Times of recent uncorrectable reads of each channel (R420). -/
  ueTimes : Tab (List Word64) := []
  /-- Bytes in each loom's bucket (R292). -/
  bucket : Tab Nat := []
  /-- Bytes of an access that the bucket still owes: the next tokens pay them first (log entry 50). -/
  debt : Tab Nat := []
  /-- Bytes served and not yet counted in whole 64 KiB units (R294). -/
  served : Tab Nat := []
  /-- Traffic of the last microsecond: time and bytes (R295). -/
  recent : List (Word64 × Nat) := []
  selfRefresh : Bool := false
  /-- The thermal ladder's cap of 60 % (R296). -/
  cap : Bool := false
  refreshes : Nat := 0
  /-- State before a bring-up test (R290). -/
  before : Nat := 0
  deriving DecidableEq, Repr

/-- A Weft link beside its port's registers (R300-R307). -/
structure Link where
  txSeq : BitVec 12 := 0
  rxSeq : BitVec 12 := 0
  replay : List Flit := []
  /-- Credits of the four virtual channels. -/
  credits : List Nat := [512, 512, 256, 768]
  /-- Flit named by the last NAK, and how often in succession (R305). -/
  nakSeq : BitVec 12 := 0
  nakRun : Nat := 0
  /-- Lanes failed since the link last trained whole (R306). -/
  badLanes : BitVec 8 := 0
  /-- A lane failure has the link retrain on its other half (R306). -/
  retrain : Bool := false
  /-- DEGRADED since EN was set (R306). -/
  deg : Bool := false
  /-- Flits that wait for credits, oldest first, without their SEQ (R304, R311). -/
  waitq : List Flit := []
  /-- Credits returned to the peer on each virtual channel: the model's output (R303, log entry 12). -/
  rets : List Nat := [0, 0, 0, 0]
  /-- Waiting to be enabled once the stop completes (R302). -/
  enWait : Bool := false
  /-- Bytes of the message being received on each virtual channel. -/
  part : Tab (List Byte) := []
  /-- Time the link last went down, or its stop began. -/
  downAt : Word64 := 0
  /-- Cause of the LINK_DOWN or LINK_DEGRADED that no LINK_UP has answered (R324). -/
  lost : Option Nat := none
  /-- NAKs sent: the model's output (log entry 12). -/
  naks : List (BitVec 12) := []
  /-- A NAK for the expected SEQ has been sent (R305). -/
  nakOpen : Bool := false
  deriving DecidableEq, Repr

/-- A unit that makes accesses for a loom: block type and instance, and which of its jobs this is (an operation, a ring, a table). -/
structure Who where
  typ : Nat
  inst : Nat
  job : Nat := 0
  deriving DecidableEq, Repr

/-- Who made an outstanding Tapestry request. -/
inductive Origin where
  /-- A KNOT of a core. -/
  | op (core : Nat) (idx : Nat)
  /-- The remote line cache, for a line (R326). -/
  | coherent (line : Nat)
  /-- A COPY served here: the request, the bytes written so far, and the loom whose export granted it (R313). -/
  | copyPart (m : TapMsg) (left : Nat) (loom : Nat)
  /-- The collective engine. -/
  | coll (group tag : Word32)
  /-- A unit's access to `len` bytes at a Tapestry address (R271, R319). -/
  | unit (who : Who) (loom addr len : Nat) (write : Bool)
  /-- The home: a SNOOP of a line (R327). -/
  | snoop (line : Nat)
  /-- The home: a GRANT of a line, or a SNOOP that an EVICT has satisfied, kept for a RESEND (R322, R328). -/
  | grant (line : Nat)
  deriving DecidableEq, Repr

/-- The answer to a unit's remote access, held until the unit takes it. -/
structure Reply where
  who : Who
  loom : Nat
  addr : Nat
  len : Nat
  write : Bool
  status : Nat := 0
  code : Option Nat := none
  data : List Byte := []
  deriving DecidableEq, Repr

/-- What a command in progress finds that its accesses must wait for. -/
inductive Need where
  /-- Remote accesses of a unit for a loom: address, length, and the bytes of a write. -/
  | send (who : Who) (loom : Nat) (pieces : List (Nat × Nat × Option (List Byte)))
  /-- A line of the remote line cache, for a load or a store; a store of the whole line gives its bytes (R326). -/
  | line (who : Who) (loom line : Nat) (own : Bool) (put : Option (List Byte))
  /-- Snoops of lines that the home's own units touch (R327). -/
  | snoop (lines : List Nat) (inv : Bool)
  /-- Tokens, or a stack that refreshes itself (R291, R293). -/
  | hold
  deriving DecidableEq, Repr

/-- The accesses of the command in progress: what they wait for, and the traffic to pay for (loom, stack, bytes). Empty between commands. -/
structure Trip where
  need : Option Need := none
  bill : List (Option Nat × Nat × Nat) := []
  deriving DecidableEq, Repr

/-- An outstanding request (R322, R323). -/
structure OutReq where
  msg : TapMsg
  vc : Nat
  link : Option Nat
  sentAt : Word64
  resent : Bool := false
  origin : Origin
  deriving DecidableEq, Repr

/-- A recorded response (R322). -/
structure RspRec where
  src : Nat
  vc : Nat
  seq : BitVec 16
  rsp : TapMsg
  deriving DecidableEq, Repr

/-- The Tapestry router (R309-R324). Routing table 0 at reset, DESIGN CHOICE (log entry 6). -/
structure Router where
  rt : Tab (Word32 × Word32) := []
  /-- Next SEQ sent to (destination × 4 + VC). -/
  txSeq : Tab (BitVec 16) := []
  /-- Next SEQ expected from (source × 4 + VC). -/
  rxSeq : Tab (BitVec 16) := []
  out : List OutReq := []
  recent : List RspRec := []
  nextTag : BitVec 16 := 0
  /-- Messages sent and the link each took; the model's output (log entry 12). -/
  sent : List (TapMsg × Nat) := []
  /-- Messages received whole from the links (R305). -/
  inbox : List (List Byte) := []
  bucket : Tab Nat := []
  /-- Answers to the units' remote accesses, not yet taken. -/
  replies : List Reply := []
  deriving DecidableEq, Repr

/-- A line of the remote line cache (R326, R330). -/
structure Line where
  loom : Nat
  /-- M (true) or S (false); meaningful while `valid`. -/
  valid : Bool := false
  owned : Bool := false
  data : List Byte := []
  /-- A READ_SHARED (false) or READ_OWN (true) is outstanding. -/
  want : Option Bool := none
  /-- In the eviction buffer until EVICT_ACK. -/
  evicting : Bool := false
  /-- Bytes that a READ_OWN with NODATA waits to store, and the unit that stores them. -/
  put : Option (Who × List Byte) := none
  /-- The request failed: Tapestry status and event code, until an access of the line takes it (R315). -/
  fail : Option (Nat × Option Nat) := none
  lru : Nat := 0
  deriving DecidableEq, Repr

/-- A directory entry (R327, R329). -/
structure DirEnt where
  owned : Bool
  holders : List Nat
  /-- Group mode: SPAN_LO, SPAN_HI and the marked groups. -/
  group : Option (Nat × Nat × List Nat) := none
  age : Nat
  deriving DecidableEq, Repr

/-- A coherent request being served, with the snoops it waits for (R327, R328). Without a request it serves an access of the home's own units, or a back-invalidation (R329). -/
structure Tracker where
  line : Nat
  req : Option TapMsg
  waits : List Nat
  inv : Bool
  /-- Sharers that remain. -/
  keep : List Nat
  data : Option (List Byte) := none
  deriving DecidableEq, Repr

/-- Both sides of coherence (R325-R330). -/
structure Coh where
  lines : Tab Line := []
  tick : Nat := 0
  dir : Tab DirEnt := []
  busy : List Tracker := []
  queue : List TapMsg := []
  deriving DecidableEq, Repr

/-- A running collective (R334-R346). -/
structure CollRun where
  core : Nat
  idx : Nat
  loom : Nat
  dev : Nat
  group : Word32
  tag : Word32
  opcode : Nat
  opn : CollOpen
  rank : Nat
  stageBytes : Nat
  /-- Device, loom, count and staging address of each rank. -/
  members : List (Nat × Nat × Nat × Nat)
  src : Nat
  dst : Nat
  /-- Move list of a PERMUTE: source and destination rank, offsets, length. -/
  moves : List (Nat × Nat × Nat × Nat × Nat) := []
  /-- Partners whose OPEN has matched. -/
  opened : List Nat := []
  /-- Units each partner has granted and we have not used. -/
  grants : Tab Nat := []
  /-- Partials received and not yet folded: (rank, chunk) with flags and data. -/
  parts : List (Nat × Nat × BitVec 6 × List Byte) := []
  /-- Chunks of the result already in DST. -/
  doneChunks : List Nat := []
  /-- Own chunks already sent: (rank, chunk). -/
  sentChunks : List (Nat × Nat) := []
  /-- Cycle copies held in staging (R343): chunk and bytes. -/
  copies : List (Nat × List Byte) := []
  /-- Partial folds: chunk, children folded, flags, FP32 bytes (R338). -/
  acc : List (Nat × Nat × BitVec 6 × List Byte) := []
  /-- Result chunks that children still wait for: chunk, flags, bytes (R340). -/
  results : List (Nat × BitVec 6 × List Byte) := []
  /-- Staging units granted to each rank, and units freed again (R339). -/
  given : Tab Nat := []
  freed : Nat := 0
  /-- Chunks of a PERMUTE asked for, and pulls of this member's chunks not yet served (R343). -/
  pulled : List Nat := []
  pulls : List Nat := []
  /-- Chunks of a PERMUTE whose bytes are copied to break a cycle, in order (R343). -/
  breakers : List Nat := []
  flags : BitVec 6 := 0
  waiting : Bool := false
  deriving DecidableEq, Repr

/-- The collective engine (R334-R346). -/
structure Coll where
  runs : List CollRun := []
  /-- OPENs held, at most one per partner. -/
  opens : List (CollKey × CollOpen) := []
  /-- Abort records: group and its most recent tags, newest first. -/
  aborts : List (Word32 × List Word32) := []
  /-- Messages sent by the engine: (device, loom, description bytes); the model's output (log entry 12). -/
  sentOpen : List (Nat × Nat × CollKey × CollOpen) := []
  sentAbort : List (Nat × CollKey) := []
  sentGrant : List (Nat × CollKey × Nat × Option Nat) := []
  sentData : List (Nat × CollKey × CollData) := []
  deriving DecidableEq, Repr

/-- A command of a codec channel (R357). -/
structure CodecCmd where
  core : Nat
  idx : Nat
  words : List Word32
  /-- Next band to read (ENCODE). -/
  band : Nat := 0
  /-- The chunk has been fetched, and its syntax is being made (DECODE, R352). -/
  read : Bool := false
  deriving DecidableEq, Repr

/-- A source picture of an encode session (R363-R365). -/
structure CodecPic where
  /-- Samples of the bands read so far, each band's luma rows before its chroma rows. -/
  bands : List (List Byte) := []
  pts : Word64
  force : Bool
  key : Bool
  err : Bool := false
  deriving DecidableEq, Repr

/-- A codec channel beside its registers (R350-R373). -/
structure Codec where
  /-- The session record, 256 bytes (R358). -/
  session : Option (List Byte) := none
  /-- The loom whose commands the channel takes. -/
  loom : Nat := 0
  /-- Powered (R372, R373). -/
  on : Bool := false
  cmds : List CodecCmd := []
  /-- Bitstream bytes taken so far, cut at each FLUSH (R366, R370). -/
  stream : List (List Byte) := []
  /-- Stream offset of each chunk, and its PTS (R357). -/
  marks : List (Nat × Word64) := []
  /-- Picture whose bands are being read, and pictures read whole or ended by an error (R363, R364). -/
  cur : Option CodecPic := none
  held : List CodecPic := []
  /-- Coded pictures: samples, FORCE_KEY, lookahead applied (R365). -/
  coded : List (List Byte × Bool × Nat) := []
  /-- Pictures since the last key picture (R365). -/
  sinceKey : Nat := 0
  /-- Slice coded next, and whether the pixel engine has begun it (R352, R372). -/
  slice : Nat := 0
  made : Bool := false
  /-- Units of syntax made and not consumed: what the buffer does not hold, its producer holds back (R352); and units of the picture in progress consumed. -/
  syn : Nat := 0
  eaten : Nat := 0
  /-- PIC_SEQ of the next record (R371). -/
  picSeq : Nat := 0
  /-- Buffers or bitstream ranges whose records RP may not have passed: ring pointer value, buffer or offset, length (R371). -/
  used : List (Word32 × Nat × Nat) := []
  bsPos : Nat := 0
  waitSince : Option Word64 := none
  stallPosted : Bool := false
  /-- Input is discarded up to the next sequence header (R369). -/
  discard : Bool := false
  /-- Bitstream bytes not yet counted in whole 4 KiB units (R375). -/
  bytes : Nat := 0
  deriving DecidableEq, Repr

/-- A fault-ledger entry (R422) and the state of its rounds (R423-R426). -/
structure LedgerEnt where
  overflow : Bool := false
  classes : BitVec 8
  sType : BitVec 12
  sInst : BitVec 12
  sDev : BitVec 14
  count : Nat
  events : Nat
  first : Word64
  last : Word64
  eventTime : Word64
  minDev : Nat
  maxDev : Nat
  remote : Nat
  info0 : Word64
  info1 : Word64
  coreMap : BitVec 384
  blockMap : BitVec 128
  /-- COUNT at the latest round. -/
  countAt : Nat
  /-- A holdoff runs. -/
  holding : Bool
  /-- INFO1 of the CORE_RETIRED or CORE_LOST rounds that wait for the re-map decision (R423). -/
  remaps : List Word64 := []
  /-- The machine-check type of the first round. -/
  evType : BitVec 16
  /-- First reporter (R427). -/
  repType : BitVec 16
  repInst : BitVec 16
  deriving DecidableEq, Repr

/-- Block reset state of one page (R405-R407). -/
structure Blk where
  timerAt : Word64 := 0
  pending : Bool := false
  keyHeld : Bool := false
  resetting : Bool := false
  forced : Bool := false
  /-- REQ written while resetting. -/
  again : Bool := false
  /-- The part itself asked (R408). -/
  ownReq : Bool := false
  deriving DecidableEq, Repr

/-- What the last host read returned: the model's own output (log entry 3). -/
inductive Resp where
  | none
  | data (bytes : List Byte)
  | unsupported
  deriving DecidableEq, Repr

/-- A knot update waiting at the knots block (R194). -/
structure KnotOp where
  idx : Nat
  set : Bool
  value : Word64
  /-- Tapestry requester to answer, if any. -/
  src : Option TapMsg := none
  deriving DecidableEq, Repr

/-- The state of the part. -/
structure State where
  fuse : Fuses
  /-- AON timestamp (R376). -/
  time : Word64
  /-- Registers by BAR0 offset; BAR2 pages at 0x400_0000 on. A register not listed holds its reset value. -/
  regs : Tab Word32
  /-- Live settings of the looms, by the same offsets (R256, R265). -/
  live : Tab Word32
  /-- Local memory, 42-bit addresses (R278), in canonical form. -/
  mem : List Host.Cell
  /-- Host memory by PCIe address (R281), in canonical form. -/
  host : List Host.Cell
  /-- SPI flash (R409), in canonical form. -/
  spi : List Host.Cell
  /-- Uncorrectable or poisoned 64-byte blocks (R286). -/
  badBlocks : List Nat
  /-- Knot counters (R191); 0 at reset, DESIGN CHOICE (log entry 6). -/
  knots : Tab Word64
  /-- Updates waiting at the knots block, oldest first. -/
  knotQ : List KnotOp
  board : Board
  boot : Boot
  power : Power
  regions : Tab Region
  rings : Tab Ring
  scan : Scan
  entries : List Entry
  /-- Next number in the order of fetches, starts and ends (R209, R221). -/
  endSeq : Nat
  /-- Events produced and not yet staged, per loom (R223). -/
  produced : Tab (List Event)
  /-- Events staged, per loom (R223, R280). -/
  staged : Tab (List Event)
  /-- MSI-X messages sent: function and vector (R225). -/
  msix : List (Nat × Nat)
  cores : Tab Core
  looms : Tab Loom
  /-- Creel entries that are not FREE (R228). -/
  creel : Tab CreelEnt
  /-- Next ADMIT_SEQ (R229); 0 at reset, DESIGN CHOICE (log entry 6). -/
  admitSeq : Nat
  /-- Creel entries the on-chip cache holds, the last used first (R228; log entry 53). -/
  creelCache : List Nat
  stackTab : Tab Stack
  links : Tab Link
  router : Router
  coh : Coh
  coll : Coll
  codecs : Tab Codec
  ledger : Tab LedgerEnt
  /-- Times of the corrected errors of the last second, by page (R416). -/
  ceCounts : Tab (List Word64)
  blks : Tab Blk
  /-- Output of the last host read (log entry 3). -/
  resp : Resp
  /-- PCIe function whose requester ID the last host-window access of a loom carried: the model's output (R272, R281). -/
  hostFn : Option Nat
  /-- BAR4 writes that no later read by PF0 has made visible yet, the first first: address and bytes (R439). -/
  posted : List (Nat × List Byte)
  /-- Accesses of the command in progress; empty between commands. -/
  trip : Trip
  /-- Free-value counter: the model's own field (log entry 14). -/
  freeCtr : Nat
  /-- Waiting commands, first in first out: the model's own queue (log entry 1). -/
  pending : List Instr
  deriving DecidableEq, Repr

/-- The part right after reset: registers at their reset values, nothing listed, no command waiting. -/
def State.reset : State where
  fuse := {}
  time := 0
  regs := []
  live := []
  mem := []
  host := []
  spi := []
  badBlocks := []
  knots := []
  knotQ := []
  board := {}
  boot := {}
  power := {}
  regions := []
  rings := []
  scan := {}
  entries := []
  endSeq := 0
  produced := []
  staged := []
  msix := []
  cores := []
  looms := []
  creel := []
  admitSeq := 0
  creelCache := []
  stackTab := []
  links := []
  router := {}
  coh := {}
  coll := {}
  codecs := []
  ledger := []
  ceCounts := []
  blks := []
  resp := .none
  hostFn := none
  posted := []
  trip := {}
  freeCtr := 0
  pending := []

end Sys2Proof.Machine
end

