-- ==== Sys2Proof/Machine/RegMap.lean ====
section
/-! DEFINITION. The register map: for each kind of page, every register with its offset, its fields, their access codes, reset values and legal encodings (the register tables of every chapter; R8, R9, R432-R447), and the placing of the pages (R437, R438). Fields whose reset value is fused or depends on the instance are views (Registers.lean). -/

namespace Sys2Proof.Machine

/-- Access codes of R8. -/
inductive Acc where
  | rw | ro | wo | w1c | w1s | rwl
  deriving DecidableEq, Repr

/-- A field: bits `hi..lo`, access code, reset value, legal encodings (R9). -/
structure RField where
  hi : Nat
  lo : Nat
  acc : Acc
  rst : Nat := 0
  min : Nat := 0
  max : Nat := 4294967295
  deriving DecidableEq, Repr

/-- `cnt` registers of one form, the first at `off`, `stride` bytes apart. -/
structure RegRow where
  off : Nat
  cnt : Nat := 1
  stride : Nat := 4
  fields : List RField
  deriving DecidableEq, Repr

/-- Registers of the common page (R414, R442, R277). -/
def commonRegs : List RegRow := [
  -- BLK_ID
  ⟨0x0, 1, 4, [⟨7, 0, .ro, 17, 0, 4294967295⟩, ⟨19, 8, .ro, 0, 0, 4294967295⟩, ⟨31, 20, .ro, 0, 0, 4294967295⟩]⟩,
  -- BLK_CAP
  ⟨0x4, 1, 4, [⟨0, 0, .ro, 0, 0, 4294967295⟩, ⟨1, 1, .ro, 0, 0, 4294967295⟩, ⟨2, 2, .ro, 0, 0, 4294967295⟩, ⟨3, 3, .ro, 0, 0, 4294967295⟩]⟩,
  -- BLK_CTRL
  ⟨0x8, 1, 4, [⟨0, 0, .w1s, 0, 0, 4294967295⟩]⟩,
  -- BLK_STATUS
  ⟨0xC, 1, 4, [⟨0, 0, .ro, 1, 0, 4294967295⟩, ⟨1, 1, .ro, 0, 0, 4294967295⟩, ⟨2, 2, .ro, 0, 0, 4294967295⟩, ⟨3, 3, .ro, 0, 0, 4294967295⟩]⟩,
  -- BLK_ERR
  ⟨0x10, 1, 4, [⟨0, 0, .w1c, 0, 0, 4294967295⟩, ⟨1, 1, .w1c, 0, 0, 4294967295⟩, ⟨2, 2, .w1c, 0, 0, 4294967295⟩, ⟨3, 3, .w1c, 0, 0, 4294967295⟩, ⟨4, 4, .w1c, 0, 0, 4294967295⟩, ⟨5, 5, .w1c, 0, 0, 4294967295⟩, ⟨6, 6, .w1c, 0, 0, 4294967295⟩, ⟨7, 7, .w1c, 0, 0, 4294967295⟩]⟩,
  -- BLK_ERR_EN
  ⟨0x14, 1, 4, [⟨0, 0, .rw, 1, 0, 4294967295⟩, ⟨7, 1, .ro, 127, 0, 4294967295⟩]⟩,
  -- BLK_ERR_INFO0
  ⟨0x18, 1, 4, [⟨31, 0, .ro, 0, 0, 4294967295⟩]⟩,
  -- BLK_ERR_INFO1
  ⟨0x1C, 1, 4, [⟨7, 0, .ro, 0, 0, 4294967295⟩, ⟨31, 16, .ro, 0, 0, 4294967295⟩]⟩,
  -- BLK_IDLE_REQ
  ⟨0x20, 1, 4, [⟨0, 0, .w1s, 0, 0, 4294967295⟩]⟩,
  -- BLK_IDLE_STAT
  ⟨0x24, 1, 4, [⟨0, 0, .ro, 0, 0, 4294967295⟩]⟩,
  -- BLK_RESET
  ⟨0x28, 1, 4, [⟨31, 0, .wo, 0, 0, 4294967295⟩]⟩,
  -- BLK_RESET_STAT
  ⟨0x2C, 1, 4, [⟨0, 0, .w1c, 0, 0, 4294967295⟩, ⟨1, 1, .w1c, 0, 0, 4294967295⟩, ⟨31, 16, .ro, 0, 0, 4294967295⟩]⟩,
  -- BLK_EVT_CNT
  ⟨0x30, 1, 4, [⟨31, 0, .ro, 0, 0, 4294967295⟩]⟩,
  -- BLK_LOOM
  ⟨0x34, 1, 4, [⟨4, 0, .ro, 0, 0, 4294967295⟩, ⟨31, 31, .ro, 0, 0, 4294967295⟩]⟩,
  -- BLK_PWR_STATE
  ⟨0x38, 1, 4, [⟨1, 0, .ro, 0, 0, 4294967295⟩]⟩
  ]

/-- Registers of the chip page. -/
def chipRegs : List RegRow := [
  -- CHIP_PCI_ID
  ⟨0x100, 1, 4, [⟨15, 0, .ro, 0, 0, 4294967295⟩, ⟨31, 16, .ro, 0, 0, 4294967295⟩]⟩,
  -- CHIP_SUMMARY
  ⟨0x104, 1, 4, [⟨0, 0, .ro, 0, 0, 4294967295⟩, ⟨3, 1, .ro, 0, 0, 4294967295⟩, ⟨4, 4, .ro, 0, 0, 4294967295⟩, ⟨5, 5, .ro, 0, 0, 4294967295⟩, ⟨6, 6, .ro, 0, 0, 4294967295⟩, ⟨15, 8, .ro, 0, 0, 4294967295⟩]⟩,
  -- CHIP_ACC_ERR
  ⟨0x108, 1, 4, [⟨25, 0, .ro, 0, 0, 4294967295⟩, ⟨27, 26, .ro, 0, 0, 4294967295⟩, ⟨31, 31, .w1c, 0, 0, 4294967295⟩]⟩,
  -- CHIP_ACC_ERR_CNT
  ⟨0x10C, 1, 4, [⟨31, 0, .ro, 0, 0, 4294967295⟩]⟩,
  -- CHIP_SCRATCH0–CHIP_SCRATCH3
  ⟨0x110, 4, 4, [⟨31, 0, .rw, 0, 0, 4294967295⟩]⟩,
  -- CHIP_GPIO_IN
  ⟨0x120, 1, 4, [⟨15, 0, .ro, 0, 0, 4294967295⟩]⟩,
  -- CHIP_GPIO_OWN
  ⟨0x124, 1, 4, [⟨15, 0, .ro, 0, 0, 4294967295⟩]⟩
  ]

/-- Registers of the rst page. -/
def rstRegs : List RegRow := [
  -- RST_CAUSE
  ⟨0x100, 1, 4, [⟨0, 0, .w1c, 1, 0, 4294967295⟩, ⟨1, 1, .w1c, 0, 0, 4294967295⟩, ⟨2, 2, .ro, 0, 0, 4294967295⟩]⟩,
  -- RST_STRAP
  ⟨0x104, 1, 4, [⟨1, 0, .ro, 0, 0, 4294967295⟩, ⟨3, 2, .ro, 0, 0, 4294967295⟩, ⟨6, 4, .ro, 0, 0, 4294967295⟩]⟩,
  -- RST_BOOT_STAT
  ⟨0x108, 1, 4, [⟨3, 0, .ro, 0, 0, 4294967295⟩, ⟨4, 4, .ro, 0, 0, 4294967295⟩, ⟨6, 5, .ro, 0, 0, 4294967295⟩, ⟨7, 7, .ro, 0, 0, 4294967295⟩, ⟨15, 8, .ro, 0, 0, 4294967295⟩]⟩,
  -- RST_IDLE_TIMEOUT
  ⟨0x10C, 1, 4, [⟨19, 0, .rw, 1000, 1, 1048575⟩]⟩,
  -- RST_PERST_CNT, RST_FORCED_CNT
  ⟨0x110, 2, 4, [⟨31, 0, .ro, 0, 0, 4294967295⟩]⟩
  ]

/-- Registers of the pcm page. -/
def pcmRegs : List RegRow := [
  -- PCM_TIME_LO
  ⟨0x100, 1, 4, [⟨31, 0, .ro, 0, 0, 4294967295⟩]⟩,
  -- PCM_TIME_HI
  ⟨0x104, 1, 4, [⟨31, 0, .ro, 0, 0, 4294967295⟩]⟩,
  -- PCM_CLK_STAT
  ⟨0x108, 1, 4, [⟨0, 0, .ro, 0, 0, 4294967295⟩, ⟨15, 8, .ro, 0, 0, 4294967295⟩]⟩,
  -- PCM_SHED_REQ
  ⟨0x10C, 1, 4, [⟨2, 0, .rw, 0, 0, 5⟩]⟩,
  -- PCM_SHED_STAT
  ⟨0x110, 1, 4, [⟨2, 0, .ro, 0, 0, 4294967295⟩, ⟨5, 3, .ro, 0, 0, 4294967295⟩, ⟨13, 8, .ro, 0, 0, 4294967295⟩]⟩,
  -- PCM_PKG_LIMIT
  ⟨0x114, 1, 4, [⟨11, 0, .rw, 2600, 0, 2600⟩]⟩,
  -- PCM_PKG_POWER
  ⟨0x118, 1, 4, [⟨11, 0, .ro, 0, 0, 4294967295⟩]⟩,
  -- PCM_SHED_CNT
  ⟨0x11C, 1, 4, [⟨31, 0, .ro, 0, 0, 4294967295⟩]⟩
  ]

/-- Registers of the mbx page. -/
def mbxRegs : List RegRow := [
  -- MBX_BOOT_ADDR_LO
  ⟨0x100, 1, 4, [⟨31, 12, .rw, 0, 0, 4294967295⟩]⟩,
  -- MBX_BOOT_ADDR_HI
  ⟨0x104, 1, 4, [⟨31, 0, .rw, 0, 0, 4294967295⟩]⟩,
  -- MBX_BOOT_LEN
  ⟨0x108, 1, 4, [⟨31, 0, .rw, 0, 0, 4294967295⟩]⟩,
  -- MBX_BOOT_CMD
  ⟨0x10C, 1, 4, [⟨0, 0, .w1s, 0, 0, 4294967295⟩, ⟨1, 1, .ro, 0, 0, 4294967295⟩, ⟨2, 2, .ro, 0, 0, 4294967295⟩, ⟨15, 8, .ro, 0, 0, 4294967295⟩]⟩,
  -- FL_CTRL
  ⟨0x200, 1, 4, [⟨19, 0, .rw, 1000, 1, 1048575⟩, ⟨30, 20, .rw, 2047, 0, 4294967295⟩]⟩,
  -- FL_AGE
  ⟨0x204, 1, 4, [⟨15, 0, .rw, 1000, 0, 4294967295⟩]⟩,
  -- FL_CE_THRESH
  ⟨0x208, 1, 4, [⟨23, 0, .rw, 1024, 0, 4294967295⟩]⟩,
  -- FL_STAT
  ⟨0x20C, 1, 4, [⟨10, 0, .ro, 0, 0, 4294967295⟩, ⟨11, 11, .ro, 0, 0, 4294967295⟩]⟩,
  -- FL_RELEASE
  ⟨0x210, 1, 4, [⟨9, 0, .wo, 0, 0, 4294967295⟩]⟩,
  -- FL_NEW_CNT
  ⟨0x214, 1, 4, [⟨31, 0, .ro, 0, 0, 4294967295⟩]⟩,
  -- FL_RD_IDX
  ⟨0x218, 1, 4, [⟨9, 0, .rw, 0, 0, 4294967295⟩]⟩,
  -- FL_RD_CMD
  ⟨0x21C, 1, 4, [⟨0, 0, .wo, 0, 0, 4294967295⟩, ⟨31, 31, .ro, 0, 0, 4294967295⟩]⟩,
  -- SC_CORE_AVAIL_w
  ⟨0x240, 12, 4, [⟨31, 0, .ro, 0, 0, 4294967295⟩]⟩,
  -- FL_RD_DATA0–FL_RD_DATA31
  ⟨0x300, 32, 4, [⟨31, 0, .ro, 0, 0, 4294967295⟩]⟩
  ]

/-- Registers of the fuse page. -/
def fuseRegs : List RegRow := [
  -- FUSE_GRADE
  ⟨0x100, 1, 4, [⟨1, 0, .ro, 0, 0, 4294967295⟩, ⟨7, 4, .ro, 0, 0, 4294967295⟩, ⟨11, 8, .ro, 0, 0, 4294967295⟩]⟩,
  -- FUSE_REGION_DIS
  ⟨0x104, 1, 4, [⟨31, 0, .ro, 0, 0, 4294967295⟩]⟩,
  -- FUSE_CORE_EN0–FUSE_CORE_EN11
  ⟨0x140, 12, 4, [⟨31, 0, .ro, 0, 0, 4294967295⟩]⟩,
  -- FUSE_UNIQUE_ID0–3
  ⟨0x180, 4, 4, [⟨31, 0, .ro, 0, 0, 4294967295⟩]⟩,
  -- FUSE_ARB_LO, FUSE_ARB_HI
  ⟨0x190, 2, 4, [⟨31, 0, .ro, 0, 0, 4294967295⟩]⟩,
  -- FUSE_ARB_CNT
  ⟨0x198, 1, 4, [⟨6, 0, .ro, 0, 0, 4294967295⟩]⟩,
  -- FUSE_KEY_STAT
  ⟨0x19C, 1, 4, [⟨3, 0, .ro, 0, 0, 4294967295⟩, ⟨8, 8, .ro, 0, 0, 4294967295⟩]⟩,
  -- FUSE_KEY_HASH_k_w
  ⟨0x200, 12, 4, [⟨31, 0, .ro, 0, 0, 4294967295⟩]⟩,
  -- FUSE_KEY_HASH_k_w
  ⟨0x240, 12, 4, [⟨31, 0, .ro, 0, 0, 4294967295⟩]⟩,
  -- FUSE_KEY_HASH_k_w
  ⟨0x280, 12, 4, [⟨31, 0, .ro, 0, 0, 4294967295⟩]⟩,
  -- FUSE_KEY_HASH_k_w
  ⟨0x2C0, 12, 4, [⟨31, 0, .ro, 0, 0, 4294967295⟩]⟩,
  -- FUSE_DBG_KEY_HASH_w
  ⟨0x300, 12, 4, [⟨31, 0, .ro, 0, 0, 4294967295⟩]⟩
  ]

/-- Registers of the evc page. -/
def evcRegs : List RegRow := [
  -- EVC_STAGE_l
  ⟨0x100, 32, 4, [⟨10, 0, .ro, 0, 0, 4294967295⟩, ⟨16, 16, .ro, 0, 0, 4294967295⟩]⟩,
  -- EVC_POST_CNT
  ⟨0x180, 1, 4, [⟨31, 0, .ro, 0, 0, 4294967295⟩]⟩,
  -- EVC_WAIT_CNT
  ⟨0x184, 1, 4, [⟨31, 0, .ro, 0, 0, 4294967295⟩]⟩,
  -- EVC_TEST
  ⟨0x188, 1, 4, [⟨4, 0, .wo, 0, 0, 4294967295⟩, ⟨31, 31, .wo, 0, 0, 4294967295⟩]⟩,
  -- EVC_TEST_INFO
  ⟨0x18C, 1, 4, [⟨31, 0, .rw, 0, 0, 4294967295⟩]⟩
  ]

/-- Registers of the scanner page. -/
def scannerRegs : List RegRow := [
  -- RS_CLASS_WEIGHT_c
  ⟨0x100, 8, 4, [⟨7, 0, .rw, 1, 0, 4294967295⟩]⟩,
  -- CFG_IDX
  ⟨0x140, 1, 4, [⟨17, 0, .rw, 0, 0, 4294967295⟩]⟩,
  -- CFG_CMD
  ⟨0x144, 1, 4, [⟨1, 0, .wo, 0, 0, 4294967295⟩, ⟨30, 30, .ro, 0, 0, 4294967295⟩, ⟨31, 31, .ro, 0, 0, 4294967295⟩]⟩,
  -- CFG_DATA0–CFG_DATA15
  ⟨0x180, 16, 4, [⟨31, 0, .rw, 0, 0, 4294967295⟩]⟩
  ]

/-- Registers of the loader page. -/
def loaderRegs : List RegRow := [
  -- BL_STORE_FREE
  ⟨0x100, 1, 4, [⟨12, 0, .ro, 4096, 0, 4294967295⟩]⟩,
  -- BL_STORE_WAIT_CNT
  ⟨0x104, 1, 4, [⟨31, 0, .ro, 0, 0, 4294967295⟩]⟩,
  -- BL_REJECT_CNT
  ⟨0x108, 1, 4, [⟨31, 0, .ro, 0, 0, 4294967295⟩]⟩,
  -- BL_LAST_REJECT
  ⟨0x10C, 1, 4, [⟨7, 0, .ro, 0, 0, 4294967295⟩, ⟨20, 16, .ro, 0, 0, 4294967295⟩]⟩
  ]

/-- Registers of the creel page. -/
def creelRegs : List RegRow := [
  -- CREEL_RD_IDX
  ⟨0x100, 1, 4, [⟨17, 0, .rw, 0, 0, 4294967295⟩]⟩,
  -- CREEL_RD_CMD
  ⟨0x104, 1, 4, [⟨0, 0, .wo, 0, 0, 4294967295⟩, ⟨30, 30, .ro, 0, 0, 4294967295⟩, ⟨31, 31, .ro, 0, 0, 4294967295⟩]⟩,
  -- CREEL_CACHE_MISS_CNT
  ⟨0x108, 1, 4, [⟨31, 0, .ro, 0, 0, 4294967295⟩]⟩,
  -- CREEL_ADMIT_CNT
  ⟨0x10C, 1, 4, [⟨31, 0, .ro, 0, 0, 4294967295⟩]⟩,
  -- CREEL_RD_DATA0–CREEL_RD_DATA63
  ⟨0x200, 64, 4, [⟨31, 0, .ro, 0, 0, 4294967295⟩]⟩
  ]

/-- Registers of the loom page. -/
def loomRegs : List RegRow := [
  -- LOOM_CMD
  ⟨0x100, 1, 4, [⟨2, 0, .wo, 0, 0, 4294967295⟩, ⟨8, 8, .wo, 0, 0, 4294967295⟩, ⟨9, 9, .wo, 0, 0, 4294967295⟩]⟩,
  -- LOOM_CMD_STAT
  ⟨0x104, 1, 4, [⟨3, 0, .ro, 0, 0, 4294967295⟩, ⟨4, 4, .ro, 0, 0, 4294967295⟩, ⟨5, 5, .w1c, 0, 0, 4294967295⟩, ⟨15, 8, .ro, 0, 0, 4294967295⟩, ⟨18, 16, .ro, 0, 0, 4294967295⟩]⟩,
  -- LOOM_STATE
  ⟨0x108, 1, 4, [⟨2, 0, .ro, 0, 0, 4294967295⟩, ⟨8, 8, .w1c, 0, 0, 4294967295⟩, ⟨9, 9, .ro, 0, 0, 4294967295⟩]⟩,
  -- LOOM_FUNC_CLASS
  ⟨0x10C, 1, 4, [⟨4, 0, .rw, 0, 0, 4294967295⟩, ⟨10, 8, .rw, 0, 0, 4294967295⟩, ⟨13, 12, .rw, 1, 0, 2⟩]⟩,
  -- LOOM_RING_BASE, LOOM_RING_CNT
  ⟨0x110, 2, 4, [⟨18, 0, .rw, 0, 0, 4294967295⟩]⟩,
  -- LOOM_KNOT_BASE, LOOM_KNOT_CNT
  ⟨0x118, 2, 4, [⟨16, 0, .rw, 0, 0, 4294967295⟩]⟩,
  -- LOOM_CREEL_QUOTA
  ⟨0x120, 1, 4, [⟨18, 0, .rw, 0, 0, 4294967295⟩]⟩,
  -- LOOM_EVENT_RING
  ⟨0x124, 1, 4, [⟨17, 0, .rw, 0, 0, 4294967295⟩]⟩,
  -- LOOM_CODEC_SET
  ⟨0x128, 1, 4, [⟨15, 0, .rw, 0, 0, 4294967295⟩]⟩,
  -- LOOM_CORE_SET0–11
  ⟨0x140, 12, 4, [⟨31, 0, .rw, 0, 0, 4294967295⟩]⟩,
  -- LOOM_POOL_r
  ⟨0x180, 8, 4, [⟨8, 0, .rw, 0, 0, 4294967295⟩, ⟨24, 16, .rw, 0, 0, 4294967295⟩]⟩,
  -- LOOM_BW_s
  ⟨0x1C0, 8, 4, [⟨15, 0, .rw, 0, 0, 4294967295⟩, ⟨22, 16, .rw, 64, 0, 4294967295⟩, ⟨24, 24, .rw, 0, 0, 4294967295⟩]⟩,
  -- LOOM_WIN_n_BASE_LO
  ⟨0x200, 16, 16, [⟨31, 16, .rw, 0, 0, 4294967295⟩]⟩,
  -- LOOM_WIN_n_BASE_HI
  ⟨0x204, 16, 16, [⟨9, 0, .rw, 0, 0, 4294967295⟩]⟩,
  -- LOOM_WIN_n_SIZE
  ⟨0x208, 16, 16, [⟨25, 0, .rw, 0, 0, 4294967295⟩]⟩,
  -- LOOM_WIN_n_CTRL
  ⟨0x20C, 16, 16, [⟨0, 0, .rw, 0, 0, 4294967295⟩, ⟨1, 1, .rw, 0, 0, 4294967295⟩, ⟨2, 2, .rw, 0, 0, 4294967295⟩, ⟨3, 3, .rw, 0, 0, 4294967295⟩]⟩,
  -- LOOM_EXP_e_BASE_LO
  ⟨0x300, 8, 16, [⟨31, 12, .rw, 0, 0, 4294967295⟩]⟩,
  -- LOOM_EXP_e_BASE_HI
  ⟨0x304, 8, 16, [⟨9, 0, .rw, 0, 0, 4294967295⟩, ⟨23, 10, .rw, 0, 0, 4294967295⟩]⟩,
  -- LOOM_EXP_e_SIZE
  ⟨0x308, 8, 16, [⟨24, 0, .rw, 0, 0, 4294967295⟩]⟩,
  -- LOOM_EXP_e_CTRL
  ⟨0x30C, 8, 16, [⟨0, 0, .rw, 0, 0, 4294967295⟩, ⟨1, 1, .rw, 0, 0, 4294967295⟩, ⟨2, 2, .rw, 0, 0, 4294967295⟩, ⟨3, 3, .rw, 0, 0, 4294967295⟩, ⟨4, 4, .rw, 0, 0, 4294967295⟩, ⟨5, 5, .rw, 0, 0, 4294967295⟩, ⟨12, 8, .rw, 0, 0, 4294967295⟩, ⟨13, 13, .rw, 0, 0, 4294967295⟩, ⟨31, 18, .rw, 0, 0, 4294967295⟩]⟩,
  -- LOOM_IMP_i_BASE_LO
  ⟨0x380, 8, 16, [⟨31, 12, .rw, 0, 0, 4294967295⟩]⟩,
  -- LOOM_IMP_i_BASE_HI
  ⟨0x384, 8, 16, [⟨9, 0, .rw, 0, 0, 4294967295⟩, ⟨23, 10, .rw, 0, 0, 4294967295⟩]⟩,
  -- LOOM_IMP_i_SIZE
  ⟨0x388, 8, 16, [⟨24, 0, .rw, 0, 0, 4294967295⟩]⟩,
  -- LOOM_IMP_i_CTRL
  ⟨0x38C, 8, 16, [⟨0, 0, .rw, 0, 0, 4294967295⟩, ⟨1, 1, .rw, 0, 0, 4294967295⟩, ⟨2, 2, .rw, 0, 0, 4294967295⟩, ⟨3, 3, .rw, 0, 0, 4294967295⟩, ⟨4, 4, .rw, 0, 0, 4294967295⟩, ⟨5, 5, .rw, 0, 0, 4294967295⟩, ⟨31, 18, .rw, 0, 0, 4294967295⟩]⟩,
  -- LOOM_BOB_CTRL
  ⟨0x400, 1, 4, [⟨0, 0, .rw, 0, 0, 4294967295⟩, ⟨1, 1, .rw, 0, 0, 4294967295⟩, ⟨2, 2, .rw, 0, 0, 4294967295⟩, ⟨5, 4, .rw, 0, 0, 2⟩]⟩,
  -- LOOM_BOB_STAT
  ⟨0x404, 1, 4, [⟨0, 0, .ro, 0, 0, 4294967295⟩, ⟨1, 1, .ro, 0, 0, 4294967295⟩]⟩,
  -- LOOM_BOB_HIGH, LOOM_BOB_LOW
  ⟨0x408, 2, 4, [⟨24, 0, .rw, 0, 0, 4294967295⟩]⟩,
  -- LOOM_BOB_FREE_BASE_LO_t
  ⟨0x410, 3, 16, [⟨31, 8, .rw, 0, 0, 4294967295⟩]⟩,
  -- LOOM_BOB_FREE_BASE_HI_t
  ⟨0x414, 3, 16, [⟨31, 0, .rw, 0, 0, 4294967295⟩]⟩,
  -- LOOM_BOB_POOL_t
  ⟨0x418, 3, 16, [⟨24, 0, .rw, 0, 0, 4294967295⟩]⟩,
  -- LOOM_BOB_FREE_t
  ⟨0x41C, 3, 16, [⟨24, 0, .ro, 0, 0, 4294967295⟩]⟩,
  -- LOOM_BOB_SPILL_CNT
  ⟨0x440, 1, 4, [⟨31, 0, .ro, 0, 0, 4294967295⟩]⟩,
  -- LOOM_BOB_PROMOTE_CNT
  ⟨0x444, 1, 4, [⟨31, 0, .ro, 0, 0, 4294967295⟩]⟩,
  -- LOOM_PICK_CTRL
  ⟨0x480, 1, 4, [⟨0, 0, .rw, 0, 0, 4294967295⟩, ⟨1, 1, .rw, 0, 0, 4294967295⟩, ⟨2, 2, .rw, 0, 0, 4294967295⟩, ⟨5, 3, .rw, 7, 0, 4294967295⟩, ⟨9, 6, .rw, 1, 0, 4294967295⟩, ⟨18, 10, .rw, 256, 1, 256⟩]⟩,
  -- LOOM_PICK_BOUND
  ⟨0x484, 1, 4, [⟨15, 0, .rw, 200, 1, 65535⟩, ⟨31, 16, .rw, 0, 0, 4294967295⟩]⟩,
  -- LOOM_PICK_KEYTAB_LO, _HI
  ⟨0x488, 2, 4, [⟨31, 0, .rw, 0, 0, 4294967295⟩]⟩,
  -- LOOM_PICK_KEYCNT
  ⟨0x490, 1, 4, [⟨6, 0, .rw, 0, 0, 64⟩]⟩,
  -- LOOM_PICK_STEP_SUBMIT, _STEP_PICK, _URG_SUBMIT, _URG_PICK
  ⟨0x494, 4, 4, [⟨17, 0, .rw, 0, 0, 4294967295⟩]⟩,
  -- LOOM_PICK_SAVE_SIZE
  ⟨0x4A4, 1, 4, [⟨31, 0, .rw, 0, 0, 4294967295⟩]⟩,
  -- LOOM_PICK_STAT
  ⟨0x4A8, 1, 4, [⟨1, 0, .ro, 0, 0, 4294967295⟩, ⟨2, 2, .ro, 0, 0, 4294967295⟩, ⟨4, 3, .ro, 0, 0, 4294967295⟩]⟩,
  -- LOOM_PICK_PARK_LAT
  ⟨0x4AC, 1, 4, [⟨31, 0, .ro, 0, 0, 4294967295⟩]⟩,
  -- LOOM_PICK_PARK_CNT, LOOM_PICK_ABANDON_CNT
  ⟨0x4B0, 2, 4, [⟨31, 0, .ro, 0, 0, 4294967295⟩]⟩,
  -- LOOM_PICK_SEQ
  ⟨0x4B8, 1, 4, [⟨31, 0, .ro, 1, 0, 4294967295⟩]⟩,
  -- LOOM_CREEL_USED
  ⟨0x4BC, 1, 4, [⟨17, 0, .ro, 0, 0, 4294967295⟩]⟩,
  -- LOOM_PICK_SAVE_BASE_LO_r, _HI_r
  ⟨0x4C0, 16, 4, [⟨31, 0, .rw, 0, 0, 4294967295⟩]⟩,
  -- LOOM_SUBST_n
  ⟨0x500, 16, 4, [⟨8, 0, .ro, 0, 0, 4294967295⟩, ⟨17, 9, .ro, 0, 0, 4294967295⟩, ⟨31, 31, .ro, 0, 0, 4294967295⟩]⟩
  ]

/-- Registers of the drc page. -/
def drcRegs : List RegRow := [
  -- DRC_STAT
  ⟨0x100, 1, 4, [⟨1, 0, .ro, 0, 0, 4294967295⟩, ⟨2, 2, .ro, 0, 0, 4294967295⟩, ⟨3, 3, .ro, 0, 0, 4294967295⟩, ⟨6, 4, .ro, 0, 0, 4294967295⟩, ⟨7, 7, .ro, 0, 0, 4294967295⟩]⟩,
  -- DRC_TEMP
  ⟨0x104, 1, 4, [⟨10, 0, .ro, 0, 0, 4294967295⟩, ⟨19, 16, .ro, 0, 0, 4294967295⟩]⟩,
  -- DRC_ECC_CE_CNT, DRC_ECC_UE_CNT
  ⟨0x108, 2, 4, [⟨31, 0, .ro, 0, 0, 4294967295⟩]⟩,
  -- DRC_ECC_LAST_LO
  ⟨0x110, 1, 4, [⟨0, 0, .ro, 0, 0, 4294967295⟩, ⟨31, 6, .ro, 0, 0, 4294967295⟩]⟩,
  -- DRC_ECC_LAST_HI
  ⟨0x114, 1, 4, [⟨9, 0, .ro, 0, 0, 4294967295⟩]⟩,
  -- DRC_SCRUB_CTRL
  ⟨0x118, 1, 4, [⟨0, 0, .rw, 1, 0, 4294967295⟩, ⟨15, 8, .rw, 24, 1, 255⟩]⟩,
  -- DRC_LOOM_BYTES_l
  ⟨0x180, 32, 4, [⟨31, 0, .ro, 0, 0, 4294967295⟩]⟩
  ]

/-- Registers of the drp page. -/
def drpRegs : List RegRow := [
  -- DRP_LANE_MAP_c
  ⟨0x100, 32, 4, [⟨6, 0, .ro, 0, 0, 4294967295⟩, ⟨7, 7, .ro, 0, 0, 4294967295⟩, ⟨14, 8, .ro, 0, 0, 4294967295⟩, ⟨15, 15, .ro, 0, 0, 4294967295⟩, ⟨19, 16, .ro, 0, 0, 4294967295⟩, ⟨20, 20, .ro, 0, 0, 4294967295⟩, ⟨31, 31, .ro, 0, 0, 4294967295⟩]⟩,
  -- DRP_TEST_CTRL
  ⟨0x180, 1, 4, [⟨1, 0, .rw, 0, 0, 2⟩, ⟨2, 2, .rw, 0, 0, 4294967295⟩, ⟨3, 3, .rw, 0, 0, 4294967295⟩]⟩,
  -- DRP_TRAIN_TIME
  ⟨0x184, 1, 4, [⟨31, 0, .ro, 0, 0, 4294967295⟩]⟩,
  -- DRP_TEST_ERR_c
  ⟨0x200, 32, 4, [⟨15, 0, .ro, 0, 0, 4294967295⟩, ⟨31, 16, .ro, 0, 0, 4294967295⟩]⟩
  ]

/-- Registers of the wfp page. -/
def wfpRegs : List RegRow := [
  -- WFP_CTRL
  ⟨0x100, 1, 4, [⟨0, 0, .rw, 0, 0, 4294967295⟩, ⟨1, 1, .rw, 0, 0, 4294967295⟩, ⟨3, 2, .rw, 0, 0, 2⟩, ⟨4, 4, .rw, 0, 0, 4294967295⟩]⟩,
  -- WFP_STAT
  ⟨0x104, 1, 4, [⟨2, 0, .ro, 0, 0, 4294967295⟩, ⟨6, 4, .ro, 0, 0, 4294967295⟩, ⟨15, 8, .ro, 0, 0, 4294967295⟩]⟩,
  -- WFP_NBR_k
  ⟨0x108, 2, 4, [⟨13, 0, .ro, 0, 0, 4294967295⟩, ⟨14, 14, .ro, 0, 0, 4294967295⟩, ⟨20, 16, .ro, 0, 0, 4294967295⟩, ⟨21, 21, .ro, 0, 0, 4294967295⟩]⟩,
  -- WFP_FEC_CE_CNT, WFP_FEC_UE_CNT
  ⟨0x110, 2, 4, [⟨31, 0, .ro, 0, 0, 4294967295⟩]⟩,
  -- WFP_CRC_ERR_CNT, WFP_REPLAY_CNT
  ⟨0x118, 2, 4, [⟨31, 0, .ro, 0, 0, 4294967295⟩]⟩,
  -- WFP_VC_STALL_CNT
  ⟨0x120, 1, 4, [⟨31, 0, .ro, 0, 0, 4294967295⟩]⟩
  ]

/-- Registers of the tap page. -/
def tapRegs : List RegRow := [
  -- TAP_DEV_ID
  ⟨0x100, 1, 4, [⟨13, 0, .rw, 0, 0, 4294967295⟩, ⟨31, 31, .w1s, 0, 0, 4294967295⟩]⟩,
  -- TAP_RT_IDX
  ⟨0x104, 1, 4, [⟨13, 0, .rw, 0, 0, 4294967295⟩]⟩,
  -- TAP_RT_CMD
  ⟨0x108, 1, 4, [⟨1, 0, .wo, 0, 0, 4294967295⟩, ⟨30, 30, .ro, 0, 0, 4294967295⟩, ⟨31, 31, .ro, 0, 0, 4294967295⟩]⟩,
  -- TAP_RT_PRIMARY, TAP_RT_ALTERNATE
  ⟨0x10C, 2, 4, [⟨31, 0, .rw, 0, 0, 4294967295⟩]⟩,
  -- TAP_REQ_TIMEOUT
  ⟨0x114, 1, 4, [⟨15, 0, .rw, 100, 1, 65535⟩]⟩,
  -- TAP_DIR_USED
  ⟨0x118, 1, 4, [⟨21, 0, .ro, 0, 0, 4294967295⟩]⟩,
  -- TAP_DIR_BACKINV_CNT, TAP_REFUSE_CNT, TAP_TIMEOUT_CNT
  ⟨0x11C, 3, 4, [⟨31, 0, .ro, 0, 0, 4294967295⟩]⟩,
  -- TAP_LAST_REFUSE
  ⟨0x128, 1, 4, [⟨13, 0, .ro, 0, 0, 4294967295⟩, ⟨20, 16, .ro, 0, 0, 4294967295⟩]⟩,
  -- TAP_COH_EXPORT
  ⟨0x12C, 1, 4, [⟨20, 0, .ro, 0, 0, 4294967295⟩]⟩,
  -- TAP_LOOM_RATE_l
  ⟨0x180, 32, 4, [⟨12, 0, .rw, 0, 0, 4294967295⟩, ⟨22, 16, .rw, 64, 1, 64⟩]⟩,
  -- TAP_CC_QUOTA_l
  ⟨0x200, 32, 4, [⟨19, 0, .rw, 16384, 0, 4294967295⟩]⟩,
  -- TAP_COLL_STAT
  ⟨0x280, 1, 4, [⟨6, 0, .ro, 0, 0, 4294967295⟩, ⟨15, 8, .ro, 0, 0, 4294967295⟩]⟩,
  -- TAP_COLL_DONE_CNT
  ⟨0x284, 1, 4, [⟨31, 0, .ro, 0, 0, 4294967295⟩]⟩,
  -- TAP_COLL_ABORT_CNT
  ⟨0x288, 1, 4, [⟨31, 0, .ro, 0, 0, 4294967295⟩]⟩
  ]

/-- Registers of the codec page. -/
def codecRegs : List RegRow := [
  -- CODEC_STAT
  ⟨0x100, 1, 4, [⟨1, 0, .ro, 0, 0, 4294967295⟩, ⟨2, 2, .ro, 0, 0, 4294967295⟩, ⟨3, 3, .ro, 0, 0, 4294967295⟩, ⟨7, 4, .ro, 0, 0, 4294967295⟩, ⟨8, 8, .ro, 0, 0, 4294967295⟩, ⟨9, 9, .ro, 0, 0, 4294967295⟩, ⟨10, 10, .ro, 0, 0, 4294967295⟩, ⟨15, 11, .ro, 0, 0, 4294967295⟩]⟩,
  -- CODEC_SYN_OCC
  ⟨0x104, 1, 4, [⟨10, 0, .ro, 0, 0, 4294967295⟩]⟩,
  -- CODEC_PIC_CNT
  ⟨0x108, 1, 4, [⟨31, 0, .ro, 0, 0, 4294967295⟩]⟩,
  -- CODEC_ERR_PIC_CNT
  ⟨0x10C, 1, 4, [⟨31, 0, .ro, 0, 0, 4294967295⟩]⟩,
  -- CODEC_REFMISS_CNT
  ⟨0x110, 1, 4, [⟨31, 0, .ro, 0, 0, 4294967295⟩]⟩,
  -- CODEC_BYTE_CNT
  ⟨0x114, 1, 4, [⟨31, 0, .ro, 0, 0, 4294967295⟩]⟩,
  -- CODEC_LAST_REFUSE
  ⟨0x118, 1, 4, [⟨7, 0, .ro, 0, 0, 4294967295⟩]⟩
  ]

/-- Registers of the pcie page. -/
def pcieRegs : List RegRow := [
  -- PCIE_BAR4_BASE
  ⟨0x100, 1, 4, [⟨11, 0, .rwl, 0, 0, 4294967295⟩]⟩,
  -- PCIE_BAR4_SIZE
  ⟨0x104, 1, 4, [⟨4, 0, .ro, 6, 0, 4294967295⟩]⟩,
  -- PCIE_BAR4_ERR_CNT
  ⟨0x108, 1, 4, [⟨31, 0, .ro, 0, 0, 4294967295⟩]⟩,
  -- PCIE_OB_XLAT_j_LO
  ⟨0x800, 256, 8, [⟨0, 0, .rw, 0, 0, 4294967295⟩, ⟨31, 12, .rw, 0, 0, 4294967295⟩]⟩,
  -- PCIE_OB_XLAT_j_HI
  ⟨0x804, 256, 8, [⟨31, 0, .rw, 0, 0, 4294967295⟩]⟩
  ]

/-- Registers of the core page. -/
def coreRegs : List RegRow := [
  -- CORE_SEQ_STAT
  ⟨0x100, 1, 4, [⟨5, 0, .ro, 0, 0, 4294967295⟩, ⟨12, 8, .ro, 0, 0, 4294967295⟩, ⟨16, 16, .ro, 0, 0, 4294967295⟩, ⟨17, 17, .ro, 0, 0, 4294967295⟩]⟩,
  -- CORE_STAGE
  ⟨0x104, 1, 4, [⟨15, 0, .ro, 0, 0, 4294967295⟩, ⟨24, 16, .ro, 0, 0, 4294967295⟩]⟩,
  -- CORE_CHAIN
  ⟨0x108, 1, 4, [⟨2, 0, .ro, 7, 0, 4294967295⟩, ⟨6, 4, .ro, 7, 0, 4294967295⟩]⟩,
  -- CORE_SEQ_DEFER_CNT
  ⟨0x10C, 1, 4, [⟨31, 0, .ro, 0, 0, 4294967295⟩]⟩,
  -- CORE_KNOT_WAIT_CNT
  ⟨0x110, 1, 4, [⟨31, 0, .ro, 0, 0, 4294967295⟩]⟩,
  -- CORE_SHUTTLE_BYTE_CNT
  ⟨0x114, 1, 4, [⟨31, 0, .ro, 0, 0, 4294967295⟩]⟩,
  -- CORE_PORT_n
  ⟨0x120, 4, 4, [⟨5, 0, .ro, 32, 0, 4294967295⟩, ⟨13, 8, .ro, 0, 0, 4294967295⟩, ⟨16, 16, .ro, 0, 0, 4294967295⟩]⟩,
  -- CORE_PORT_STALL_CNT
  ⟨0x130, 1, 4, [⟨31, 0, .ro, 0, 0, 4294967295⟩]⟩,
  -- CORE_PORT_ERR
  ⟨0x134, 1, 4, [⟨3, 0, .w1c, 0, 0, 4294967295⟩]⟩,
  -- CORE_FP_STICKY
  ⟨0x180, 1, 4, [⟨0, 0, .w1c, 0, 0, 4294967295⟩, ⟨1, 1, .w1c, 0, 0, 4294967295⟩, ⟨2, 2, .w1c, 0, 0, 4294967295⟩, ⟨3, 3, .w1c, 0, 0, 4294967295⟩, ⟨4, 4, .w1c, 0, 0, 4294967295⟩, ⟨5, 5, .w1c, 0, 0, 4294967295⟩]⟩,
  -- CORE_OPND_STICKY
  ⟨0x184, 1, 4, [⟨0, 0, .w1c, 0, 0, 4294967295⟩]⟩,
  -- CORE_COMMIT_HOLD_CNT
  ⟨0x188, 1, 4, [⟨31, 0, .ro, 0, 0, 4294967295⟩]⟩,
  -- CORE_VEC_STICKY
  ⟨0x18C, 1, 4, [⟨0, 0, .w1c, 0, 0, 4294967295⟩]⟩,
  -- CORE_SFU_RELOAD_CNT
  ⟨0x190, 1, 4, [⟨31, 0, .ro, 0, 0, 4294967295⟩]⟩,
  -- CORE_VEC_BUSY_CNT
  ⟨0x194, 1, 4, [⟨31, 0, .ro, 0, 0, 4294967295⟩]⟩,
  -- CORE_DELTA_ROW_CNT
  ⟨0x198, 1, 4, [⟨31, 0, .ro, 0, 0, 4294967295⟩]⟩,
  -- CORE_DELTA_EMIT_CNT
  ⟨0x19C, 1, 4, [⟨31, 0, .ro, 0, 0, 4294967295⟩]⟩,
  -- CORE_ARRAY_FUSE
  ⟨0x1C0, 1, 4, [⟨7, 0, .ro, 0, 0, 4294967295⟩, ⟨8, 8, .ro, 0, 0, 4294967295⟩, ⟨23, 16, .ro, 0, 0, 4294967295⟩, ⟨24, 24, .ro, 0, 0, 4294967295⟩]⟩,
  -- CORE_ARRAY_ERR
  ⟨0x1C4, 1, 4, [⟨0, 0, .w1c, 0, 0, 4294967295⟩, ⟨1, 1, .w1c, 0, 0, 4294967295⟩, ⟨2, 2, .w1c, 0, 0, 4294967295⟩]⟩,
  -- CORE_ARRAY_ERR_LOC
  ⟨0x1C8, 1, 4, [⟨7, 0, .ro, 0, 0, 4294967295⟩, ⟨14, 8, .ro, 0, 0, 4294967295⟩, ⟨15, 15, .ro, 0, 0, 4294967295⟩, ⟨27, 16, .ro, 0, 0, 4294967295⟩]⟩,
  -- CORE_ARRAY_STREAM_CNT
  ⟨0x1CC, 1, 4, [⟨31, 0, .ro, 0, 0, 4294967295⟩]⟩,
  -- CORE_ARRAY_LOAD_CNT
  ⟨0x1D0, 1, 4, [⟨31, 0, .ro, 0, 0, 4294967295⟩]⟩,
  -- CORE_ARRAY_WAIT_CNT
  ⟨0x1D4, 1, 4, [⟨31, 0, .ro, 0, 0, 4294967295⟩]⟩
  ]

/-- Registers of the region page. -/
def regionRegs : List RegRow := [
  -- DR_OP_CTRL
  ⟨0x100, 1, 4, [⟨2, 0, .rw, 0, 0, 4294967295⟩]⟩,
  -- DR_OP_STAT
  ⟨0x104, 1, 4, [⟨2, 0, .ro, 0, 0, 4294967295⟩, ⟨5, 3, .ro, 0, 0, 4294967295⟩, ⟨6, 6, .ro, 0, 0, 4294967295⟩, ⟨7, 7, .ro, 0, 0, 4294967295⟩, ⟨10, 8, .ro, 0, 0, 4294967295⟩]⟩,
  -- DR_TEMP
  ⟨0x108, 1, 4, [⟨10, 0, .ro, 0, 0, 4294967295⟩, ⟨15, 12, .ro, 0, 0, 4294967295⟩]⟩,
  -- DR_DROOP_CNT
  ⟨0x10C, 1, 4, [⟨31, 0, .ro, 0, 0, 4294967295⟩]⟩,
  -- DR_VOLT
  ⟨0x110, 1, 4, [⟨10, 0, .ro, 0, 0, 4294967295⟩]⟩,
  -- DR_POWER
  ⟨0x114, 1, 4, [⟨9, 0, .ro, 0, 0, 4294967295⟩]⟩
  ]

/-- Registers of the tlm page. -/
def tlmRegs : List RegRow := [
  -- TLM_CTRL
  ⟨0x100, 1, 4, [⟨0, 0, .rw, 0, 0, 4294967295⟩]⟩,
  -- TLM_SEQ
  ⟨0x104, 1, 4, [⟨31, 0, .ro, 0, 0, 4294967295⟩]⟩,
  -- TLM_TJ_MAX
  ⟨0x108, 1, 4, [⟨10, 0, .ro, 0, 0, 4294967295⟩, ⟨18, 16, .ro, 0, 0, 4294967295⟩]⟩,
  -- TLM_TDRAM_MAX
  ⟨0x10C, 1, 4, [⟨10, 0, .ro, 0, 0, 4294967295⟩, ⟨18, 16, .ro, 0, 0, 4294967295⟩]⟩,
  -- TLM_ENERGY_LO
  ⟨0x110, 1, 4, [⟨31, 0, .ro, 0, 0, 4294967295⟩]⟩,
  -- TLM_ENERGY_HI
  ⟨0x114, 1, 4, [⟨31, 0, .ro, 0, 0, 4294967295⟩]⟩,
  -- TLM_PKG_PEAK
  ⟨0x118, 1, 4, [⟨11, 0, .ro, 0, 0, 4294967295⟩, ⟨31, 31, .wo, 0, 0, 4294967295⟩]⟩,
  -- TLM_RAIL_n
  ⟨0x140, 24, 4, [⟨15, 0, .ro, 0, 0, 4294967295⟩, ⟨31, 16, .ro, 0, 0, 4294967295⟩]⟩
  ]

/-- Registers of the doorbell page of a loom (R227). -/
def doorbellRegs : List RegRow := [
  -- DB_ERR
  ⟨0x10, 1, 4, [⟨0, 0, .w1c, 0, 0, 4294967295⟩, ⟨1, 1, .w1c, 0, 0, 4294967295⟩, ⟨2, 2, .w1c, 0, 0, 4294967295⟩, ⟨3, 3, .w1c, 0, 0, 4294967295⟩]⟩,
  -- DB_LAST_ERR_RING
  ⟨0x14, 1, 4, [⟨17, 0, .ro, 0, 0, 4294967295⟩]⟩,
  -- CFG_IDX
  ⟨0x100, 1, 4, [⟨17, 0, .rw, 0, 0, 4294967295⟩]⟩,
  -- CFG_CMD
  ⟨0x104, 1, 4, [⟨1, 0, .wo, 0, 0, 4294967295⟩, ⟨30, 30, .ro, 0, 0, 4294967295⟩, ⟨31, 31, .ro, 0, 0, 4294967295⟩]⟩,
  -- CFG_DATA
  ⟨0x140, 16, 4, [⟨31, 0, .rw, 0, 0, 4294967295⟩]⟩
  ]

/-- Registers of the status page of a loom (R273). -/
def statusRegs : List RegRow := [
  -- LOOM_STATE mirror
  ⟨0x8, 1, 4, [⟨31, 0, .ro, 0, 0, 4294967295⟩]⟩,
  -- CREEL_RD_IDX
  ⟨0x100, 1, 4, [⟨17, 0, .rw, 0, 0, 4294967295⟩]⟩,
  -- CREEL_RD_CMD
  ⟨0x104, 1, 4, [⟨0, 0, .wo, 0, 0, 4294967295⟩, ⟨30, 30, .ro, 0, 0, 4294967295⟩, ⟨31, 31, .ro, 0, 0, 4294967295⟩]⟩,
  -- CREEL_RD_DATA
  ⟨0x200, 64, 4, [⟨31, 0, .ro, 0, 0, 4294967295⟩]⟩,
  -- loom page mirror
  ⟨0x400, 64, 4, [⟨31, 0, .ro, 0, 0, 4294967295⟩]⟩
  ]

/-- Offset of a block's page: BAR0 offsets of R437. -/
def pageOf : Block → Nat
  | .chip => 0x0000000
  | .rst => 0x0001000
  | .pcm => 0x0002000
  | .mbx => 0x0003000
  | .fuse => 0x0004000
  | .evc => 0x0010000
  | .scanner => 0x0020000
  | .loader => 0x0021000
  | .creel => 0x0022000
  | .pick => 0x0023000
  | .knots => 0x0040000
  | .loom l => 0x0050000 + l.val * 0x1000
  | .drc s => 0x0080000 + s.val * 0x10000
  | .drp s => 0x0081000 + s.val * 0x10000
  | .wfp p => 0x0100000 + p.val * 0x10000
  | .tap => 0x0200000
  | .codec n => 0x0210000 + n.val * 0x2000
  | .pcie => 0x0300000
  | .core c => 0x0400000 + c.val * 0x1000
  | .region r => 0x0600000 + r.val * 0x1000
  | .tlm => 0x0700000

/-- Block type code (R437). -/
def codeOf : Block → Nat
  | .chip => 0x010
  | .rst => 0x012
  | .pcm => 0x011
  | .mbx => 0x013
  | .fuse => 0x090
  | .evc => 0x014
  | .scanner => 0x020
  | .loader => 0x021
  | .creel => 0x022
  | .pick => 0x023
  | .knots => 0x024
  | .loom _ => 0x025
  | .drc _ => 0x050
  | .drp _ => 0x051
  | .wfp _ => 0x060
  | .tap => 0x061
  | .codec _ => 0x070
  | .pcie => 0x080
  | .core _ => 0x040
  | .region _ => 0x041
  | .tlm => 0x091

/-- Instance number of a block (R437). -/
def instOf : Block → Nat
  | .loom l => l.val
  | .drc s => s.val
  | .drp s => s.val
  | .wfp p => p.val
  | .codec n => n.val
  | .core c => c.val
  | .region r => r.val
  | _ => 0

/-- The block whose page holds a BAR0 offset (R437), if any. -/
def blockAt (off : Nat) : Option Block :=
  let p := off / 0x1000
  if p = 0x0 then some .chip
  else if p = 0x1 then some .rst
  else if p = 0x2 then some .pcm
  else if p = 0x3 then some .mbx
  else if p = 0x4 then some .fuse
  else if p = 0x10 then some .evc
  else if p = 0x20 then some .scanner
  else if p = 0x21 then some .loader
  else if p = 0x22 then some .creel
  else if p = 0x23 then some .pick
  else if p = 0x40 then some .knots
  else if h : 0x50 ≤ p ∧ p < 0x70 then some (.loom ⟨p - 0x50, by omega⟩)
  else if h : 0x80 ≤ p ∧ p < 0x100 then
    let i : StackId := ⟨(p - 0x80) / 0x10, by omega⟩
    if p % 0x10 = 0 then some (.drc i) else if p % 0x10 = 1 then some (.drp i) else none
  else if h : 0x100 ≤ p ∧ p < 0x200 then
    if p % 0x10 = 0 then some (.wfp ⟨(p - 0x100) / 0x10, by omega⟩) else none
  else if p = 0x200 then some .tap
  else if h : 0x210 ≤ p ∧ p < 0x230 then
    if p % 2 = 0 then some (.codec ⟨(p - 0x210) / 2, by omega⟩) else none
  else if p = 0x300 then some .pcie
  else if h : 0x400 ≤ p ∧ p < 0x580 then some (.core ⟨p - 0x400, by omega⟩)
  else if h : 0x600 ≤ p ∧ p < 0x608 then some (.region ⟨p - 0x600, by omega⟩)
  else if p = 0x700 then some .tlm
  else none

/-- Block-specific registers of a page (R443). -/
def regsOf : Block → List RegRow
  | .chip => chipRegs
  | .rst => rstRegs
  | .pcm => pcmRegs
  | .mbx => mbxRegs
  | .fuse => fuseRegs
  | .evc => evcRegs
  | .scanner => scannerRegs
  | .loader => loaderRegs
  | .creel => creelRegs
  | .pick => []
  | .knots => []
  | .loom _ => loomRegs
  | .drc _ => drcRegs
  | .drp _ => drpRegs
  | .wfp _ => wfpRegs
  | .tap => tapRegs
  | .codec _ => codecRegs
  | .pcie => pcieRegs
  | .core _ => coreRegs
  | .region _ => regionRegs
  | .tlm => tlmRegs

/-- The row that holds page offset `o`. -/
def findRow (rows : List RegRow) (o : Nat) : Option RegRow :=
  rows.find? fun r => decide (r.off ≤ o) && decide ((o - r.off) % r.stride = 0) && decide ((o - r.off) / r.stride < r.cnt)

/-- Reset value of a register with these fields. -/
def fieldsReset (fs : List RField) : Word32 :=
  fs.foldl (fun w f => setFld w f.hi f.lo f.rst) 0

/-- First key of the doorbell pages: BAR2 offset 0 of PF0. -/
def bar2Key : Nat := 0x4000000

/-- Key of loom `l`'s doorbell page (R204, R438). -/
def dbPage (l : Nat) : Nat := bar2Key + l * 0x1000

/-- Key of loom `l`'s status page (R273, R438). -/
def stPage (l : Nat) : Nat := bar2Key + 0x20000 + l * 0x1000

/-- First key of the MSI-X table of a VF (VF BAR2 offset 0x2000); its pending bits lie 0x1000 higher (R438). -/
def vfMsix (fn : Nat) : Nat := bar2Key + 0x80000 + fn * 0x2000

/-- Key of word 0 of a function's MSI-X vector (R437, R438). -/
def msixKey (fn v : Nat) : Nat := (if fn = 0 then 0x310000 else vfMsix fn) + 16 * v

/-- Key of the word that holds a vector's pending bit (R437, R438). -/
def pbaKey (fn v : Nat) : Nat := (if fn = 0 then 0x318000 else vfMsix fn + 0x1000) + 4 * (v / 32)

/-- Fields of word `w` of an MSI-X vector as PCIe lays it out: address low, address high, data, control with the mask bit set at reset (R438; PRESUMED, log entry 13). -/
def msixWord (w : Nat) : List RField :=
  if w % 4 = 3 then [⟨0, 0, .rw, 1, 0, 4294967295⟩]
  else if w % 4 = 0 then [⟨31, 2, .rw, 0, 0, 4294967295⟩]
  else [⟨31, 0, .rw, 0, 0, 4294967295⟩]

/-- The fields of the register at a key of the register table, in BAR0 or BAR2. -/
def fieldsAt (k : Nat) : Option (List RField) :=
  if 0x310000 ≤ k ∧ k < 0x318000 then some (msixWord (k / 4))
  else if 0x318000 ≤ k ∧ k < 0x318100 then some [⟨31, 0, .ro, 0, 0, 4294967295⟩]
  else if k < bar2Key then
    match blockAt k with
    | none => none
    | some b =>
      let o := k % 0x1000
      ((findRow (if o < 0x100 then commonRegs else regsOf b) o)).map RegRow.fields
  else if k < bar2Key + 0x20000 then (findRow doorbellRegs (k % 0x1000)).map RegRow.fields
  else if k < bar2Key + 0x40000 then (findRow statusRegs (k % 0x1000)).map RegRow.fields
  else if bar2Key + 0x80000 ≤ k ∧ k < bar2Key + 0xC0000 then
    let o := (k - bar2Key) % 0x2000
    if o < 0x400 then some (msixWord (o / 4))
    else if 0x1000 ≤ o ∧ o < 0x1008 then some [⟨31, 0, .ro, 0, 0, 4294967295⟩]
    else none
  else none

/-- Reset value of the register at a key, 0 where there is none. -/
def resetAt (k : Nat) : Word32 :=
  match fieldsAt k with
  | some fs => fieldsReset fs
  | none => 0

end Sys2Proof.Machine
end

