-- ==== Sys2Proof/Machine/Ops.lean ====
section
/-! DEFINITION. The named operations on the state that every family shares: byte storage in canonical form, registers, events, interrupts, and the frame every command keeps. A block has no exception entry: what a fault does to the part is an event, a register or a status, written by these. -/

namespace Sys2Proof.Machine

/-- One step's outcome. -/
abbrev Out := Host.Outcome State Fault Refusal

-- ## Byte storage (R278; canonical form: strictly rising addresses, no byte equal to the unlisted value 0, log entry 4)

/-- Byte at an address; an unlisted byte reads 0 (log entry 4). -/
def cget (m : List Host.Cell) (a : Nat) : Byte := tget 0 m a

/-- Storage with one byte written. -/
def cput (m : List Host.Cell) (a : Nat) (v : Byte) : List Host.Cell := if v = 0 then tdel m a else tput m a v

/-- Storage with a byte string written from `a` on. -/
def cputs : List Host.Cell → Nat → List Byte → List Host.Cell
  | m, _, [] => m
  | m, a, v :: r => cputs (cput m a v) (a + 1) r

/-- `n` bytes from `a` on. -/
def cgets (m : List Host.Cell) (a n : Nat) : List Byte :=
  (List.range n).map fun i => cget m (a + i)

/-- Storage with `[a, a + n)` zeroed. -/
def czero (m : List Host.Cell) (a n : Nat) : List Host.Cell :=
  m.filter fun c => decide (c.1 < a) || decide (a + n ≤ c.1)

/-- Whether storage is in canonical form. -/
def Memory.wf : List Host.Cell → Bool
  | [] => true
  | [(_, v)] => decide (v ≠ 0)
  | (a, v) :: (b, w) :: r => decide (v ≠ 0) && decide (a < b) && Memory.wf ((b, w) :: r)

/-- `n` bytes of local memory. -/
def memRd (s : State) (a n : Nat) : List Byte := cgets s.mem a n

/-- Local memory with bytes written. -/
def memWr (s : State) (a : Nat) (bs : List Byte) : State := { s with mem := cputs s.mem a bs }

/-- Local memory with a range zeroed. -/
def memZero (s : State) (a n : Nat) : State := { s with mem := czero s.mem a n }

-- ## Registers

-- ## Core geometry (R5, R12, R186)

/-- Whether a core's enable fuse is set (R5). -/
def coreEnabled (s : State) (c : Nat) : Bool := s.fuse.coreEn.getLsbD c

/-- Column, row and region of a core index `y * 32 + x` (R12): region r covers columns 8 (r mod 4) on and rows 6 (r / 4) on. -/
def coreX (c : Nat) : Nat := c % 32
/-- Row of a core. -/
def coreY (c : Nat) : Nat := c / 32
/-- Die region of a core (R12). -/
def coreRegion (c : Nat) : Nat := coreY c / 6 * 4 + coreX c / 8

/-- Disabled cores of a die region (R3, R6). -/
def disabledIn (f : Fuses) (r : Nat) : Nat := ((List.range 384).filter fun c => decide (coreRegion c = r) && !f.coreEn.getLsbD c).length

/-- The fuses a part leaves manufacture with (R1, R3, R6, R62, R411): stepping B1 of one of the three grades, none, exactly 4 or exactly 8 cores of each die region disabled, at most two columns of a core fused out. -/
def fusesLegal (f : Fuses) : Bool :=
  decide (f.grade ≠ 3) && decide (f.stepMajor = 1) && decide (f.stepMinor = 1) &&
  (List.range 8).all (fun r => decide (disabledIn f r = 4 * f.grade.toNat)) &&
  f.badCols.all (fun p => decide (p.2.length ≤ 2) && p.2.all fun c => decide (c < 130)) && decide (f.arbCount ≤ 64)

/-- A part with given fuses right after reset. -/
def resetPart (f : Fuses) : State := { State.reset with fuse := f }

/-- Neighbour of a core in a direction 0 N, 1 E, 2 S, 3 W (R186), if the mesh has one. -/
def neighbour (c d : Nat) : Option Nat :=
  if d = 0 then (if coreY c = 0 then none else some (c - 32))
  else if d = 1 then (if coreX c = 31 then none else some (c + 1))
  else if d = 2 then (if coreY c = 11 then none else some (c + 32))
  else if d = 3 then (if coreX c = 0 then none else some (c - 1))
  else none

/-- Whether a core has an enabled neighbour in a direction (R197). -/
def hasNbr (s : State) (c d : Nat) : Bool :=
  match neighbour c d with
  | some n => coreEnabled s n
  | none => false

/-- Registers whose reset value is not a constant of the tables: the available-core map comes from the fuses (R430), and cores and codec channels start power-gated (R375, R379, R401; DEDUCED, log entry 6), and a stream port holds 32 credits or faces an edge (R197). -/
def resetVal (s : State) (k : Nat) : Word32 :=
  if 0x3240 ≤ k ∧ k < 0x3270 then s.fuse.coreEn.extractLsb' ((k - 0x3240) / 4 * 32) 32
  else if 0x400000 ≤ k ∧ k < 0x580000 ∧ k % 0x1000 = 0x38 then 2
  else if 0x210000 ≤ k ∧ k < 0x230000 ∧ k % 0x2000 = 0x38 then 2
  else if 0x400000 ≤ k ∧ k < 0x580000 ∧ 0x120 ≤ k % 0x1000 ∧ k % 0x1000 < 0x130 then
    if hasNbr s ((k - 0x400000) / 0x1000) ((k % 0x1000 - 0x120) / 4) then 32 else 0x10000
  else resetAt k

/-- Value held at a register key: as written, else the reset value. -/
def rd (s : State) (k : Nat) : Word32 :=
  match tfind s.regs k with
  | some v => v
  | none => resetVal s k

/-- The register at a key set to a value. -/
def wr (s : State) (k : Nat) (v : Word32) : State := { s with regs := tput s.regs k v }

/-- Field `hi..lo` of a register. -/
def rdF (s : State) (k hi lo : Nat) : Nat := fld (rd s k) hi lo

/-- Field `hi..lo` of a register set. -/
def wrF (s : State) (k hi lo v : Nat) : State := wr s k (setFld (rd s k) hi lo v)

/-- Bit of a register set or cleared. -/
def wrB (s : State) (k i : Nat) (b : Bool) : State := wrF s k i i (b2n b)

/-- A counter register advanced, wrapping at 2^32. -/
def addCnt (s : State) (k n : Nat) : State := wr s k (rd s k + BitVec.ofNat 32 n)

/-- Every register of the page range `[lo, hi)` returned to its reset value. -/
def resetRegs (s : State) (lo hi : Nat) : State :=
  { s with regs := s.regs.filter fun p => decide (p.1 < lo) || decide (hi ≤ p.1) }

/-- Bits ORed into a register. -/
def orReg (s : State) (k : Nat) (v : Word32) : State := wr s k (rd s k ||| v)

-- ## Pages and looms

/-- Key of a register of a loom's page (R276). -/
def loomKey (l off : Nat) : Nat := 0x50000 + l * 0x1000 + off

/-- Key of a register of a core's page (R437). -/
def coreKey (c off : Nat) : Nat := 0x400000 + c * 0x1000 + off

/-- Key of a register of a region's page (R437). -/
def regionKey (r off : Nat) : Nat := 0x600000 + r * 0x1000 + off

/-- Key of a register of a stack's controller page (R299). -/
def drcKey (st off : Nat) : Nat := 0x80000 + st * 0x10000 + off

/-- Key of a register of a stack's PHY page (R299). -/
def drpKey (st off : Nat) : Nat := 0x81000 + st * 0x10000 + off

/-- Key of a register of a Weft port's page (R331). -/
def wfpKey (p off : Nat) : Nat := 0x100000 + p * 0x10000 + off

/-- Key of a register of the router's page (R332). -/
def tapKey (off : Nat) : Nat := 0x200000 + off

/-- Key of a register of a codec channel's page (R375). -/
def codecKey (n off : Nat) : Nat := 0x210000 + n * 0x2000 + off

/-- Key of a register of the power and clock manager's page (R396). -/
def pcmKey (off : Nat) : Nat := 0x2000 + off

/-- Key of a register of the reset controller's page (R413). -/
def rstKey (off : Nat) : Nat := 0x1000 + off

/-- Key of a register of the mailbox page (R414, R430). -/
def mbxKey (off : Nat) : Nat := 0x3000 + off

/-- State of a loom: 0 DESTROYED, 1 CREATED, 2 RUNNING, 3 QUIESCING, 4 QUIESCED (R276). -/
def loomSt (s : State) (l : Nat) : Nat := rdF s (loomKey l 0x108) 2 0

/-- Live setting of a loom (R256): the value CREATE or UPDATE took over. -/
def lv (s : State) (l off : Nat) : Word32 := tget 0 s.live (loomKey l off)

/-- Field of a live setting. -/
def lvF (s : State) (l off hi lo : Nat) : Nat := fld (lv s l off) hi lo

/-- Loom record, with its defaults. -/
def loomOf (s : State) (l : Nat) : Loom := tget {} s.looms l

/-- Loom record set. -/
def setLoom (s : State) (l : Nat) (x : Loom) : State := { s with looms := tput s.looms l x }

/-- Core record, with its defaults. -/
def coreOf (s : State) (c : Nat) : Core := tget {} s.cores c

/-- Core record set. -/
def setCore (s : State) (c : Nat) (x : Core) : State := { s with cores := tput s.cores c x }

/-- Ring record. -/
def ringOf (s : State) (r : Nat) : Ring := tget {} s.rings r

/-- Ring record set. -/
def setRing (s : State) (r : Nat) (x : Ring) : State := { s with rings := tput s.rings r x }

/-- Region record. -/
def regionOf (s : State) (r : Nat) : Region := tget {} s.regions r

/-- Region record set. -/
def setRegion (s : State) (r : Nat) (x : Region) : State := { s with regions := tput s.regions r x }

/-- Stack record. -/
def stackOf (s : State) (st : Nat) : Stack := tget {} s.stackTab st

/-- Stack record set. -/
def setStack (s : State) (st : Nat) (x : Stack) : State := { s with stackTab := tput s.stackTab st x }

/-- Link record. -/
def linkOf (s : State) (k : Nat) : Link := tget {} s.links k

/-- Link record set. -/
def setLink (s : State) (k : Nat) (x : Link) : State := { s with links := tput s.links k x }

/-- Codec channel record. -/
def codecOf (s : State) (n : Nat) : Codec := tget {} s.codecs n

/-- Codec channel record set. -/
def setCodec (s : State) (n : Nat) (x : Codec) : State := { s with codecs := tput s.codecs n x }

/-- Block reset record of a page. -/
def blkOf (s : State) (page : Nat) : Blk := tget {} s.blks page

/-- Block reset record set. -/
def setBlk (s : State) (page : Nat) (x : Blk) : State := { s with blks := tput s.blks page x }

/-- Knot counter (R191). -/
def knotOf (s : State) (i : Nat) : Word64 := tget 0 s.knots i

/-- Whether a core is enabled and not retired: the available-core map (R7, R417, R430). -/
def coreAvail (s : State) (c : Nat) : Bool := fbit (rd s (mbxKey (0x240 + c / 32 * 4))) (c % 32)

/-- Whether a core lies in a loom's live core set (R256). -/
def inCoreSet (s : State) (l c : Nat) : Bool := fbit (lv s l (0x140 + c / 32 * 4)) (c % 32)

/-- The loom that owns a core under R260, if any. -/
def ownerOfPage (s : State) (page : Nat) : Option Nat :=
  if fbit (rd s (page + 0x34)) 31 then some (rdF s (page + 0x34) 4 0) else none

/-- READY of the boot order (R402). -/
def ready (s : State) : Bool := fbit (rd s (rstKey 0x108)) 4

/-- Shedding level in force (R392). -/
def shedLevel (s : State) : Nat := rdF s (pcmKey 0x110) 2 0

/-- Looms that are not DESTROYED. -/
def liveLooms (s : State) : List Nat := (List.range 32).filter fun l => loomSt s l ≠ 0

-- ## Events and interrupts

/-- An event handed to a loom's staging (R223): it carries the timestamp of its production. A DESTROYED loom receives none. -/
def produce (s : State) (l typ srcT srcI : Nat) (i0 i1 : Word64) : State :=
  if loomSt s l = 0 then s else
  let e : Event := { type := BitVec.ofNat 16 typ, loom := l, srcType := BitVec.ofNat 16 srcT,
                     srcInst := BitVec.ofNat 16 srcI, time := s.time, info0 := i0, info1 := i1 }
  { s with produced := tput s.produced l (tget [] s.produced l ++ [e]) }

/-- One event to each loom of a list. -/
def produceAll (s : State) (ls : List Nat) (typ srcT srcI : Nat) (i0 i1 : Word64) : State :=
  ls.foldl (fun s l => produce s l typ srcT srcI i0 i1) s

/-- Whether a producer whose last record still waits because the loom's staging area is full would post another (R223). -/
def overfull (s t : State) : Bool :=
  t.produced.any fun p =>
    let old := tget [] s.produced p.1
    decide (1024 ≤ (tget [] s.staged p.1).length) &&
    (p.2.drop old.length).any fun e => old.any fun o => decide (o.srcType = e.srcType) && decide (o.srcInst = e.srcInst)

/-- An action that posts events: its producer waits while its last record cannot be staged (R223; log entry 54). -/
def posting (f : State → State) (s : State) : State := if overfull s (f s) then s else f s

/-- The 32 bytes of an event record (R223). -/
def eventBytes (e : Event) : List Byte :=
  toLe 2 e.type.toNat ++ toLe 2 e.loom ++ toLe 2 e.srcType.toNat ++ toLe 2 e.srcInst.toNat ++
  toLe 8 e.time.toNat ++ toLe 8 e.info0.toNat ++ toLe 8 e.info1.toNat

/-- An MSI-X vector raised (R225): sent when the function has MSI-X enabled (R404) and the vector is not masked; a masked vector sets its pending bit (R438, log entry 13). -/
def raiseMsix (s : State) (fn v : Nat) : State :=
  if s.board.msixEn.getLsbD fn then
    if fbit (rd s (msixKey fn v + 12)) 0 then wrB s (pbaKey fn v) (v % 32) true
    else { s with msix := s.msix ++ [(fn, v)] }
  else s

/-- The loom whose ring range holds an absolute ring index (R199). -/
def ringLoom (s : State) (r : Nat) : Option Nat :=
  (liveLooms s).find? fun l => within r 1 (lvF s l 0x110 17 0) (lvF s l 0x114 18 0)

/-- PCIe function of a loom (R272). -/
def loomFn (s : State) (l : Nat) : Nat := lvF s l 0x10C 4 0

/-- A record was written to ring `r` of loom `l`: its interrupt, at most once per HOLDOFF (R225). -/
def ringIrq (s : State) (l r : Nat) : State :=
  let g := ringOf s r
  if !g.irqEn then s
  else match g.holdSince with
    | some t =>
      if elapsedUs s.time t g.holdoff.toNat then
        raiseMsix (setRing s r { g with holdSince := some s.time, owed := false }) (loomFn s l) g.msix.toNat
      else setRing s r { g with owed := true }
    | none =>
      let s1 := if g.holdoff = 0 then s else setRing s r { g with holdSince := some s.time, owed := false }
      raiseMsix s1 (loomFn s l) g.msix.toNat

/-- An error recorded in a doorbell page (R201, R204, R205, R208): the bit sets, and the first error's ring is kept. -/
def dbError (s : State) (l bit relRing : Nat) : State :=
  let k := dbPage l + 0x10
  let s1 := if rd s k = 0 then wr s (dbPage l + 0x14) (BitVec.ofNat 32 relRing) else s
  wrB s1 k bit true

-- ## Block errors and refused register accesses

/-- An error recorded in a block's common registers (R442). -/
def blkError (s : State) (page cls : Nat) (loc : Word32) : State :=
  let first := decide (rd s (page + 0x10) = 0)
  let s1 := if first then wrF (wr s (page + 0x18) loc) (page + 0x1C) 7 0 cls else s
  let n := if first then 0 else rdF s (page + 0x1C) 31 16
  let s2 := wrF s1 (page + 0x1C) 31 16 (min 65535 (n + 1))
  wrB s2 (page + 0x10) cls true

/-- A refused register access recorded in CHIP_ACC_ERR (R432, R433, R435, R444). -/
def accRefuse (s : State) (off kind : Nat) : State :=
  let s1 := if fbit (rd s 0x108) 31 then s
            else wr s 0x108 (BitVec.ofNat 32 (off % 2 ^ 26 + kind * 2 ^ 26 + 2 ^ 31))
  addCnt s1 0x10C 1

/-- Whether S5 gates the block of a page (R393): all but chip control, reset, power, mailbox, fuses, events, PCIe and telemetry (log entry 59). -/
def gatedPage (page : Nat) : Bool := decide (0x20000 ≤ page) && decide (page ≠ 0x300000) && decide (page ≠ 0x700000)

/-- Whether a page's block is gated now. -/
def asleep (s : State) (page : Nat) : Bool := s.power.s5 && gatedPage page

/-- A write whose register lies at `off` of a block's page: lost while S5 gates the block (R393), refused while the page is under reset (R435). -/
def onPage (page off : Nat) (f : State → State) (s : State) : State :=
  if asleep s page then s else if (blkOf s page).resetting then accRefuse s (page + off) 2 else f s

/-- What a gated unit does: nothing while S5 is in force (R390, R393). -/
def awake (f : State → State) (s : State) : State := if s.power.s5 then s else f s

-- ## The frame of every command

/-- What a command leaves alone: the fuses (R7, R445), the timestamp (R376) and the queue, unless its own rule says otherwise. -/
def keep (s t : State) : State := { t with fuse := s.fuse, time := s.time, pending := s.pending }

/-- A command whose effect on the rest of the state is `f`. -/
def effect (f : State → State) (s : State) : Out := .next (keep s (f s))

end Sys2Proof.Machine
end

