-- ==== Sys2Proof/Machine/Windows.lean ====
section
/-! DEFINITION. Where addresses lead: the local map (R278), a loom's windows and resources (R256, R266, R269, R271), export and import windows (R317-R319), and the checks made on them. -/

namespace Sys2Proof.Machine

/-- What lies at a local address (R278). -/
inductive Place where
  | dram (stack off : Nat)
  | scratch (core off : Nat)
  | accum (core off : Nat)
  | pool (region off : Nat)
  | knot (off : Nat)
  | mirror (off : Nat)
  | hostWin (off : Nat)
  | hole
  deriving DecidableEq, Repr

/-- Decoding of a local address (R278, R279): offsets beyond what is populated, and slots of disabled cores, are holes. -/
def placeOf (s : State) (a : Nat) : Place :=
  if a < 0x10000000000 then
    if a % 0x2000000000 < 0x1800000000 then .dram (a / 0x2000000000) (a % 0x2000000000) else .hole
  else if a < 0x10300000000 then
    let c := (a - 0x10000000000) / 0x2000000
    let o := a % 0x2000000
    if c < 384 ∧ coreEnabled s c then
      if o < 0x1800000 then .scratch c o else if o < 0x1C00000 then .accum c (o - 0x1800000) else .hole
    else .hole
  else if 0x10400000000 ≤ a ∧ a < 0x10500000000 then
    let o := a % 0x20000000
    if o < 0x18000000 then .pool ((a - 0x10400000000) / 0x20000000) o else .hole
  else if 0x10800000000 ≤ a ∧ a < 0x10800400000 then .knot (a - 0x10800000000)
  else if 0x10C00000000 ≤ a ∧ a < 0x10C04000000 then .mirror (a - 0x10C00000000)
  else if 0x20000000000 ≤ a ∧ a < 0x40000000000 then .hostWin (a - 0x20000000000)
  else .hole

/-- Local address of byte `off` of a core's scratchpad (R278). -/
def spAddr (c off : Nat) : Nat := 0x10000000000 + c * 0x2000000 + off

/-- Local address of an accumulator byte: bank, row and column of 32-bit words (R55, R58). -/
def accAddr (c : Nat) (bank : Bool) (row col : Nat) : Nat :=
  0x10000000000 + c * 0x2000000 + 0x1800000 + (b2n bank) * 0x200000 + row * 512 + col * 4

/-- Local address of byte `off` of a die pool (R278). -/
def poolAddr (r off : Nat) : Nat := 0x10400000000 + r * 0x20000000 + off

/-- State of a DRAM stack: 0 TRAINING, 1 READY, 2 FAILED, 3 TEST (R299). -/
def stackSt (s : State) (st : Nat) : Nat := rdF s (drcKey st 0x100) 1 0

/-- Whether an access to a stack is refused (R279): it is FAILED or in TEST. -/
def stackOut (s : State) (st : Nat) : Bool := decide (stackSt s st = 2) || decide (stackSt s st = 3)

/-- A window of a loom (R266). -/
structure Win where
  base : Nat
  size : Nat
  valid : Bool
  read : Bool
  write : Bool
  sharedRo : Bool
  deriving DecidableEq, Repr

/-- Window `n` decoded from a register reader (R276). -/
def winFrom (f : Nat → Word32) (n : Nat) : Win :=
  let o := 0x200 + 0x10 * n
  { base := fld (f o) 31 16 * 0x10000 + fld (f (o + 4)) 9 0 * 0x100000000
    size := fld (f (o + 8)) 25 0 * 0x10000
    valid := fbit (f (o + 12)) 0, read := fbit (f (o + 12)) 1
    write := fbit (f (o + 12)) 2, sharedRo := fbit (f (o + 12)) 3 }

/-- The sixteen windows, from a register reader. -/
def winsFrom (f : Nat → Word32) : List Win := (List.range 16).map (winFrom f)

/-- The live windows of a loom that are valid. -/
def liveWins (s : State) (l : Nat) : List Win := (winsFrom (lv s l)).filter Win.valid

/-- An export window (R321). -/
structure Exp where
  base : Nat
  size : Nat
  devLo : Nat
  devHi : Nat
  valid : Bool
  read : Bool
  write : Bool
  atomic : Bool
  knot : Bool
  coherent : Bool
  srcLoom : Nat
  anyLoom : Bool
  deriving DecidableEq, Repr

/-- Export window `e` decoded from a register reader (R321). -/
def expFrom (f : Nat → Word32) (e : Nat) : Exp :=
  let o := 0x300 + 0x10 * e
  let c := f (o + 12)
  { base := fld (f o) 31 12 * 0x1000 + fld (f (o + 4)) 9 0 * 0x100000000
    size := fld (f (o + 8)) 24 0 * 0x1000
    devLo := fld c 31 18, devHi := fld (f (o + 4)) 23 10
    valid := fbit c 0, read := fbit c 1, write := fbit c 2, atomic := fbit c 3
    knot := fbit c 4, coherent := fbit c 5, srcLoom := fld c 12 8, anyLoom := fbit c 13 }

/-- The eight export windows, from a register reader. -/
def expsFrom (f : Nat → Word32) : List Exp := (List.range 8).map (expFrom f)

/-- An import window (R319, R321). -/
structure Imp where
  base : Nat
  size : Nat
  dev : Nat
  span : Nat
  valid : Bool
  read : Bool
  write : Bool
  atomic : Bool
  knot : Bool
  coherent : Bool
  deriving DecidableEq, Repr

/-- Import window `i` decoded from a register reader (R321). -/
def impFrom (f : Nat → Word32) (i : Nat) : Imp :=
  let o := 0x380 + 0x10 * i
  let c := f (o + 12)
  { base := fld (f o) 31 12 * 0x1000 + fld (f (o + 4)) 9 0 * 0x100000000
    size := fld (f (o + 8)) 24 0 * 0x1000
    dev := fld (f (o + 4)) 23 10, span := fld c 31 18
    valid := fbit c 0, read := fbit c 1, write := fbit c 2, atomic := fbit c 3
    knot := fbit c 4, coherent := fbit c 5 }

/-- The eight import windows, from a register reader. -/
def impsFrom (f : Nat → Word32) : List Imp := (List.range 8).map (impFrom f)

/-- The valid live import windows of a loom. -/
def liveImps (s : State) (l : Nat) : List Imp := (impsFrom (lv s l)).filter Imp.valid

/-- Whether an import window covers a device. -/
def impHas (w : Imp) (d : Nat) : Bool := decide (w.dev ≤ d) && decide (d ≤ w.dev + w.span)

/-- Base and size in bytes of a loom's die-pool range in region `r` (R269). -/
def poolRange (f : Nat → Word32) (r : Nat) : Nat × Nat :=
  (poolAddr r (fld (f (0x180 + 4 * r)) 8 0 * 0x100000), fld (f (0x180 + 4 * r)) 24 16 * 0x100000)

/-- Rights an access needs (R271, R317, R319). -/
inductive Right where
  | read | write | atomic | knot
  deriving DecidableEq, Repr

/-- Whether a loom may access local `[a, a + n)` (R271): one core's scratchpad of its set, one die-pool range, knot records for reading, or one valid window with the right; never a stack that is FAILED or TEST (R279). -/
def localAllowed (s : State) (l a n : Nat) (w : Bool) : Bool :=
  match placeOf s a with
  | .scratch c o => inCoreSet s l c && decide (o + n ≤ 0x1800000)
  | .pool r _ => let p := poolRange (lv s l) r; within a n p.1 p.2
  | .knot o => !w && within (o / 64) (cdiv (o % 64 + n) 64) (lvF s l 0x118 15 0) (lvF s l 0x11C 16 0)
  | .dram st _ =>
    !stackOut s st && (liveWins s l).any fun x => within a n x.base x.size && (if w then x.write else x.read)
  | .hostWin _ => (liveWins s l).any fun x => within a n x.base x.size && (if w then x.write else x.read)
  | _ => false

/-- This part's device number and whether it is in force (R309, R332). -/
def ownDev (s : State) : Nat := rdF s (tapKey 0x100) 13 0

/-- Whether the device number is in force (R309). -/
def devValid (s : State) : Bool := fbit (rd s (tapKey 0x100)) 31

/-- A Tapestry address taken apart (R308): device and local address; none when malformed. -/
def tapSplit (a : Nat) : Option (Nat × Nat) :=
  if bitsOf a 62 56 = 0 then some (bitsOf a 55 42, bitsOf a 41 0) else none

/-- Whether an address is a Tapestry address (R308). -/
def isTap (a : Nat) : Bool := bitOf a 63

/-- The import window a Tapestry access uses (R319): one that covers the range on the device with the right. -/
def impFor (s : State) (l d a n : Nat) (r : Right) : Option Imp :=
  (liveImps s l).find? fun w => impHas w d && within a n w.base w.size &&
    (match r with
     | .read => w.read
     | .write => w.write
     | .atomic => w.atomic
     | .knot => w.knot)

/-- Whether a loom may access `[a, a + n)` at any address it can name (R182, R271, R308). -/
def allowed (s : State) (l a n : Nat) (w : Bool) : Bool :=
  if isTap a then
    match tapSplit a with
    | some (d, o) => (impFor s l d o n (if w then .write else .read)).isSome
    | none => false
  else decide (a + n ≤ 2 ^ 42) && localAllowed s l a n w

/-- Segments of the host window that `[off, off + n)` touches (R281). -/
def hostSegs (off n : Nat) : List Nat :=
  (List.range (n / 0x200000000 + 2)).filterMap fun i =>
    let j := off / 0x200000000 + i
    if j * 0x200000000 < off + n then some j else none

/-- Whether every touched segment is VALID (R281). -/
def hostOk (s : State) (off n : Nat) : Bool :=
  (hostSegs off n).all fun j => decide (j < 256) && fbit (rd s (0x300800 + 8 * j)) 0

/-- PCIe address of host-window offset `off` (R281). -/
def hostAddr (s : State) (off : Nat) : Nat :=
  let j := off / 0x200000000
  rdF s (0x300800 + 8 * j) 31 12 * 0x1000 + (rd s (0x300804 + 8 * j)).toNat * 0x100000000 + off % 0x200000000

end Sys2Proof.Machine
end

