-- ==== Sys2Proof/Machine/Fabric.lean ====
section
/-! DEFINITION. Sending on the Tapestry (R301-R305, R309-R316, R322): message headers and flits, links and their credits, routes, and the requests a part keeps until they are answered. -/

namespace Sys2Proof.Machine

-- ## Messages (R304, R312-R314)

/-- OPCODE of a message (R313); a RESEND has no number in the spec and uses 0x2F (log entry 12). -/
def opNum (m : TapMsg) : Nat :=
  match m.op with
  | .read => 0x01
  | .write => 0x02
  | .atomic => 0x03
  | .copy => 0x04
  | .reduceForward => 0x05
  | .knotSignal => 0x06
  | .readShared => 0x10
  | .readOwn => 0x11
  | .evict => 0x12
  | .snoop => 0x13
  | .rsp => 0x20
  | .grantS => 0x21
  | .grantM => 0x22
  | .snpRsp => 0x23
  | .evictAck => 0x24
  | .resend => 0x2F

/-- Virtual channel of a message (R304). -/
def vcOf (m : TapMsg) : Nat :=
  match m.op with
  | .atomic => if m.coh then 2 else 0
  | .read => 0
  | .write => 0
  | .copy => 0
  | .knotSignal => 0
  | .reduceForward => 3
  | .rsp => 1
  | .snpRsp => 1
  | .evictAck => 1
  | .resend => 1
  | _ => 2

/-- Whether a message is ordered and carries a SEQ (R312, R322). -/
def orderedMsg (m : TapMsg) : Bool := decide (m.op ≠ .read) && decide (vcOf m ≠ 1)

/-- Number of an ATOMIC operation in a header: the order of R313 (log entry 12). -/
def aopNum : AtomicOp → Nat
  | .add => 0
  | .and => 1
  | .or => 2
  | .xor => 3
  | .minS => 4
  | .minU => 5
  | .maxS => 6
  | .maxU => 7
  | .swap => 8
  | .cas => 9

/-- Number of a snoop response (log entry 12). -/
def snpNum : SnpKind → Nat
  | .ackI => 0
  | .dataS => 1
  | .dataI => 2
  | .evictPending => 3

/-- Header byte 1 (R314): ATOMIC operation or KOP, width, NODATA and snoop kind. -/
def hdrByte1 (m : TapMsg) : Nat :=
  (if m.op = .knotSignal then b2n m.kopSet else if m.op = .atomic then aopNum m.aop else 0) +
  16 * b2n m.wide + 32 * b2n m.noData + 64 * b2n m.snpInv

/-- The 32 bytes of a message header (R314). -/
def headerBytes (m : TapMsg) : List Byte :=
  toLe 1 (opNum m) ++ toLe 1 (hdrByte1 m) ++ toLe 2 m.srcDev.toNat ++ toLe 2 m.dstDev.toNat ++ toLe 1 m.srcLoom.val ++
  toLe 1 m.hops ++ toLe 2 m.tag.toNat ++ toLe 2 m.seq.toNat ++ toLe 4 m.len ++ toLe 6 m.addr.toNat ++
  toLe 1 m.status.toNat ++ toLe 1 (snpNum m.snp) ++ toLe 8 m.extra.toNat

-- ## Flits (R303, R305)

/-- Pieces of 56 bytes, zero-filled. -/
def dataPieces : Nat → List Byte → List (List Byte)
  | 0, _ => []
  | n + 1, bs => if bs.isEmpty then [] else slice bs 0 56 :: dataPieces n (bs.drop 56)

/-- The flits of a message, before their SEQ, ACK and CRC are set (R303). -/
def flitsOf (m : TapMsg) : List Flit :=
  let vc := BitVec.ofNat 2 (vcOf m)
  { kind := 1, vc := vc, seq := 0, ack := 0, payload := slice (headerBytes m ++ m.data.take 24) 0 56, crc := 0 } ::
  (dataPieces m.data.length (m.data.drop 24)).map fun p => { kind := 2, vc := vc, seq := 0, ack := 0, payload := p, crc := 0 }

/-- Bytes 0-59 of a flit (R303). -/
def flitBytes (f : Flit) : List Byte :=
  toLe 4 (f.kind.toNat + 16 * f.vc.toNat + 256 * f.seq.toNat + 2 ^ 20 * f.ack.toNat) ++ slice f.payload 0 56

/-- A flit with its SEQ and ACK in place and its CRC over bytes 0-59. -/
def sealFlit (f : Flit) (seq ack : BitVec 12) : Flit :=
  let g := { f with seq := seq, ack := ack }
  { g with crc := Config.crc32 (flitBytes g) }

/-- Waiting flits accepted by the link, oldest first (R311): one without a credit, or without replay space, holds back only the later ones of its virtual channel (R304, R305). `shut` lists the channels held back and `kept` the flits that stay, newest first. -/
def pumpFlits : List Flit → List Nat → List Flit → Link → Link
  | [], _, kept, k => { k with waitq := kept.reverse }
  | f :: r, shut, kept, k =>
    let vc := f.vc.toNat
    if shut.contains vc || decide (k.credits.getD vc 0 = 0) || decide (2048 ≤ k.replay.length) then
      pumpFlits r (vc :: shut) (f :: kept) k
    else pumpFlits r shut kept { k with
      credits := k.credits.set vc (k.credits.getD vc 0 - 1)
      replay := k.replay ++ [sealFlit f k.txSeq (k.rxSeq - 1)], txSeq := k.txSeq + 1 }

/-- Every waiting flit that a link can accept, accepted; a link that retrains accepts none (R306). -/
def pumpLink (k : Link) : Link := if k.retrain then k else pumpFlits k.waitq [] [] k

/-- Whether a flit of a link waits for credit (R304, R331). -/
def flitWaits (k : Link) : Bool := k.waitq.any fun f => decide (k.credits.getD f.vc.toNat 0 = 0)

-- ## Links and routes (R301, R311)

/-- State of a link: 0 OFF, 1 TRAINING, 2 UP, 3 DEGRADED, 4 DOWN, 5 STOPPING (R331). -/
def linkState (s : State) (k : Nat) : Nat := bitsOf (rdF s (wfpKey (k / 2) 0x104) 6 0) (4 * (k % 2) + 2) (4 * (k % 2))

/-- State of a link set. -/
def setLinkState (s : State) (k v : Nat) : State := wrF s (wfpKey (k / 2) 0x104) (4 * (k % 2) + 2) (4 * (k % 2)) v

/-- Whether a link carries traffic: UP, DEGRADED, or retraining on its other half, while its traffic waits (R306). -/
def linkWorks (s : State) (k : Nat) : Bool :=
  decide (linkState s k = 2) || decide (linkState s k = 3) || (decide (linkState s k = 1) && (linkOf s k).retrain)

/-- Whether flits pass on a link: UP, DEGRADED, or STOPPING, while it finishes the flits it has accepted (R307). -/
def linkFlows (s : State) (k : Nat) : Bool := decide (linkState s k = 2) || decide (linkState s k = 3) || decide (linkState s k = 5)

/-- Position of ordered traffic among `n` links (R311). -/
def pickOrdered (src dst n : Nat) : Nat :=
  let h : Word32 := (BitVec.ofNat 32 src * 0x9E3779B1) ^^^ (BitVec.ofNat 32 dst * 0x85EBCA6B)
  (h ^^^ (h >>> 16)).toNat % n

/-- Routing-table entry of a destination: PRIMARY and ALTERNATE masks. -/
def rtOf (s : State) (d : Nat) : Word32 × Word32 := tget (0, 0) s.router.rt d

/-- Working links of a mask, in increasing order. -/
def maskLinks (s : State) (w : Word32) : List Nat := (List.range 32).filter fun k => fbit w k && linkWorks s k

/-- The link set of a destination: PRIMARY, or ALTERNATE when PRIMARY has no working link (R311). -/
def routeSet (s : State) (d : Nat) : List Nat :=
  let p := maskLinks s (rtOf s d).1
  if p.isEmpty then maskLinks s (rtOf s d).2 else p

/-- The link with the most free credits on a virtual channel; ties go to the lowest (R311). -/
def mostCredits (s : State) (vc : Nat) (ks : List Nat) : Option Nat :=
  ks.foldl (fun b k => match b with
    | none => some k
    | some x => if (linkOf s x).credits.getD vc 0 < (linkOf s k).credits.getD vc 0 then some k else some x) none

/-- The link a message takes (R311). -/
def linkFor (s : State) (m : TapMsg) : Option Nat :=
  let ks := routeSet s m.dstDev.toNat
  if ks.isEmpty then none
  else if orderedMsg m then ks[pickOrdered m.srcDev.toNat m.dstDev.toNat ks.length]?
  else mostCredits s (vcOf m) ks

/-- The mark of a message that loops back inside the router (R310). -/
def loopLink : Nat := 32

/-- A message put on a link: recorded, and its flits queued. -/
def putOnLink (s : State) (m : TapMsg) (k : Nat) : State :=
  let l := linkOf s k
  let l1 := { l with waitq := l.waitq ++ flitsOf m }
  { setLink s k (pumpLink l1) with router := { s.router with sent := s.router.sent ++ [(m, k)] } }

/-- A message sent: looped back for the own device (R310), else on its route; none when every link of the route is down (R311). -/
def sendMsg (s : State) (m : TapMsg) : Option (State × Nat) :=
  if m.dstDev.toNat = ownDev s then
    some ({ s with router := { s.router with sent := s.router.sent ++ [(m, loopLink)] } }, loopLink)
  else match linkFor s m with
    | none => none
    | some k => some (putOnLink s m k, k)

/-- A message sent when it can be; an answer without a route is lost and its request times out at its source (R323). -/
def sendAny (s : State) (m : TapMsg) : State :=
  match sendMsg s m with
  | some (t, _) => t
  | none => s

-- ## Requests kept until answered (R309, R316, R320, R322)

/-- Whether a kept message is a GRANT, or a SNOOP already satisfied: it waits for no answer. -/
def isGrant (o : OutReq) : Bool :=
  match o.origin with
  | .grant _ => true
  | _ => false

/-- Whether the home sent a kept message: a SNOOP or a GRANT. -/
def isHomes (o : OutReq) : Bool :=
  match o.origin with
  | .grant _ => true
  | .snoop _ => true
  | _ => false

/-- The kept request that a TAG names. -/
def outTag (s : State) (tag : BitVec 16) : Option OutReq :=
  s.router.out.find? fun o => decide (o.msg.tag = tag) && !isGrant o

/-- Requests outstanding to a device on a virtual channel; what the home sends is not counted. -/
def outstanding (s : State) (d vc : Nat) : Nat :=
  (s.router.out.filter fun o => decide (o.msg.dstDev.toNat = d) && decide (o.vc = vc) && orderedMsg o.msg && !isHomes o).length

/-- Whether the source may keep one more request (R322): 128 per destination and channel, 4 on the coherence channel per home. -/
def maySend (s : State) (m : TapMsg) : Bool :=
  !orderedMsg m || decide (outstanding s m.dstDev.toNat (vcOf m) < (if vcOf m = 2 then 4 else 128))

/-- Whether a loom's outbound bucket lets a message pass (R320): no limit, or not empty. -/
def bucketOpen (s : State) (l : Nat) : Bool :=
  decide (rdF s (tapKey (0x180 + 4 * l)) 12 0 = 0) || decide (0 < tget 0 s.router.bucket l)

/-- Outbound request and write-data bytes taken from a loom's bucket (R320). -/
def takeBucket (s : State) (l n : Nat) : State :=
  if rdF s (tapKey (0x180 + 4 * l)) 12 0 = 0 then s
  else { s with router := { s.router with bucket := tput s.router.bucket l (tget 0 s.router.bucket l - n) } }

/-- Next SEQ of a (destination, channel). -/
def txSeqOf (s : State) (d vc : Nat) : BitVec 16 := tget 0 s.router.txSeq (4 * d + vc)

/-- Whether no working link leads to another device (R311). -/
def unroutable (s : State) (d : Nat) : Bool := decide (d ≠ ownDev s) && (routeSet s d).isEmpty

/-- A message that carries its TAG, sent with the next SEQ of its channel and kept. An ordered message keeps its SEQ even while no link works; it waits for a RESEND or its timeout (R322). -/
def sendKept (s : State) (m0 : TapMsg) (o : Origin) : State :=
  let k := 4 * m0.dstDev.toNat + vcOf m0
  let m := { m0 with seq := if orderedMsg m0 then txSeqOf s m0.dstDev.toNat (vcOf m0) else 0 }
  let (t, link) := match sendMsg s m with
    | some (t, j) => (t, some j)
    | none => (s, none)
  let r := t.router
  { t with router := { r with
      txSeq := if orderedMsg m then tput r.txSeq k (m.seq + 1) else r.txSeq
      out := r.out ++ [{ msg := m, vc := vcOf m, link := link, sentAt := s.time, origin := o }] } }

/-- A request made by loom `l` of this part: stamped with the loom (R316), given TAG and SEQ (R322), and kept. The status tells a failure at the source: 4 UNREACHABLE, with the event code of R463 when the ledger does not own the cause. -/
def sendReq (s : State) (l : Nat) (m0 : TapMsg) (o : Origin) : State × Option (Nat × Option Nat) :=
  if !devValid s then (s, some (4, some 4))
  else if unroutable s m0.dstDev.toNat then (s, some (4, none))
  else
    let m := { m0 with srcLoom := Fin.ofNat 32 l, tag := s.router.nextTag, hops := 0 }
    let t := sendKept s m o
    (takeBucket { t with router := { t.router with nextTag := s.router.nextTag + 1 } } l (32 + m.data.length), none)

/-- A request of this part with its own device number as source. -/
def ownReq (s : State) (op : MsgOp) (d a n : Nat) (bs : List Byte) : TapMsg :=
  { op := op, srcDev := BitVec.ofNat 14 (ownDev s), dstDev := BitVec.ofNat 14 d, len := n, addr := BitVec.ofNat 42 a, data := bs }

/-- An answer to a message: status and data (R315). -/
def rspTo (s : State) (m : TapMsg) (status : Nat) (data : List Byte) : TapMsg :=
  { op := .rsp, srcDev := BitVec.ofNat 14 (ownDev s), dstDev := m.srcDev, srcLoom := m.srcLoom
    tag := m.tag, len := data.length, addr := m.addr, status := BitVec.ofNat 8 status, data := data }

/-- An answer sent. -/
def answer (s : State) (m : TapMsg) (status : Nat) (data : List Byte) : State := sendAny s (rspTo s m status data)

/-- Most recent responses kept (R322): 4,096 entries. -/
def remember (s : State) (m : TapMsg) (rsp : TapMsg) : State :=
  let x : RspRec := { src := m.srcDev.toNat, vc := vcOf m, seq := m.seq, rsp := rsp }
  { s with router := { s.router with recent := (s.router.recent ++ [x]).drop (s.router.recent.length + 1 - 4096) } }

/-- An answer sent and kept for a duplicate. -/
def answerKept (s : State) (m : TapMsg) (status : Nat) (data : List Byte) : State :=
  remember (answer s m status data) m (rspTo s m status data)

-- ## What the home sends (R327-R329)

/-- A coherence message of the home to a holder. -/
def homeMsg (s : State) (op : MsgOp) (dev line : Nat) : TapMsg :=
  { op := op, srcDev := BitVec.ofNat 14 (ownDev s), dstDev := BitVec.ofNat 14 dev, len := 128, addr := BitVec.ofNat 42 (line * 128) }

/-- Kept GRANTs of a line to a device forgotten: the device has answered, or takes a later grant (R322). -/
def dropGrants (s : State) (dev line : Nat) : State :=
  { s with router := { s.router with out := s.router.out.filter fun o =>
      !(decide (o.origin = .grant line) && decide (o.msg.dstDev.toNat = dev) && decide (o.msg.op ≠ .snoop)) } }

/-- A SNOOP sent to each device of a list (R327). -/
def sendSnoops (s : State) (line : Nat) (inv : Bool) (ds : List Nat) : State :=
  ds.foldl (fun t d =>
    let u := sendKept t { homeMsg t .snoop d line with snpInv := inv, tag := t.router.nextTag } (.snoop line)
    { u with router := { u.router with nextTag := t.router.nextTag + 1 } }) s

/-- Devices of group `g` of a span (R329): from SPAN_LO + ⌊g G / 64⌋ to SPAN_LO + ⌊(g + 1) G / 64⌋ - 1. -/
def groupDevs (lo hi g : Nat) : List Nat :=
  let n := hi - lo + 1
  (List.range ((g + 1) * n / 64 - g * n / 64)).map (lo + g * n / 64 + ·)

/-- The group of a device of a span (R329). -/
def groupOf (lo hi d : Nat) : Nat :=
  ((List.range 64).find? fun g => (groupDevs lo hi g).contains d).getD 0

/-- Every device a snoop of an entry goes to: its holders, or all devices of its marked groups (R329). -/
def dirTargets (e : DirEnt) : List Nat :=
  match e.group with
  | none => e.holders
  | some (lo, hi, gs) => gs.flatMap (groupDevs lo hi)

/-- Whether a line is being served (R325). -/
def lineBusy (s : State) (line : Nat) : Bool := s.coh.busy.any fun t => decide (t.line = line)

/-- Line number of a message at its home. -/
def homeLineOf (m : TapMsg) : Nat := m.addr.toNat / 128

/-- Whether a request for a line waits (R328). -/
def lineQueued (s : State) (line : Nat) : Bool := s.coh.queue.any fun q => decide (homeLineOf q = line)

/-- A line served by a tracker that waits for snoops. -/
def track (s : State) (t : Tracker) : State := { s with coh := { s.coh with busy := s.coh.busy ++ [t] } }

/-- Lines that the home's own units must wait for when they touch local `[a, a + n)` (R325, R327): one being served or asked for, one another device holds in M, and for a store one that any device holds. -/
def linesHeld (s : State) (a n : Nat) (w : Bool) : List Nat :=
  let held := (s.coh.dir.filter fun p => overlaps (p.1 * 128) 128 a n && (w || p.2.owned)).map Prod.fst
  let busy := (s.coh.busy.filter fun t => overlaps (t.line * 128) 128 a n).map Tracker.line
  held ++ busy.filter fun l => !held.contains l

/-- The home's own access to a line begins (R327): SHARE to the owner for a load, INV to every holder for a store, in turn with the other requests for the line. -/
def snoopLine (s : State) (line : Nat) (w : Bool) : State :=
  match tfind s.coh.dir line with
  | none => s
  | some e =>
    let ds := dirTargets e
    if lineBusy s line || lineQueued s line || ds.isEmpty then s
    else track (sendSnoops s line w ds) { line := line, req := none, waits := ds, inv := w, keep := e.holders }

end Sys2Proof.Machine
end

