-- ==== Sys2Proof/Machine/Ledger.lean ====
section
/-! DEFINITION. The fault ledger (R422-R427): reports join or create entries, and rounds of machine-check events follow. -/

namespace Sys2Proof.Machine

/-- Bit of a class in CLASS_MASK (R422). -/
def classBit : FaultClass → Nat
  | .ceStorm => 0
  | .ueSram => 1
  | .parity => 2
  | .ueDram => 3
  | .link => 4
  | .timeout => 5
  | .host => 6
  | .other => 7

/-- The machine-check type of a report's first round (R224, R427); none for suspects R427 gives no type. -/
def mcType (own : Nat) (r : FaultRep) : Option Nat :=
  if r.dev.toNat ≠ own ∨ r.type = 0x000 then (match r.cls with | .timeout => some 0x203 | .link => some 0x203 | _ => none)
  else if r.stackLost then some 0x202
  else match r.cls with
    | .ceStorm => some 0x205
    | .ueDram => some 0x201
    | .ueSram => some (if r.type = 0x040 then 0x200 else 0x204)
    | .parity => some (if r.type = 0x040 then 0x200 else 0x204)
    | _ => none

/-- Looms with a valid live window over local byte `a` (R275, R286). -/
def windowLooms (s : State) (a : Nat) : List Nat :=
  (liveLooms s).filter fun l => (liveWins s l).any fun w => within a 1 w.base w.size

/-- Looms with a valid live window on a stack (R275, R420). -/
def stackLooms (s : State) (st : Nat) : List Nat :=
  (liveLooms s).filter fun l => (liveWins s l).any fun w =>
    decide (w.base < 0x10000000000) && decide (w.base / 0x2000000000 = st)

/-- Looms whose import windows reach a device (R275, R421). -/
def deviceLooms (s : State) (d : Nat) : List Nat :=
  (liveLooms s).filter fun l => (liveImps s l).any fun w => impHas w d

/-- Looms with a host window (R275). -/
def hostLooms (s : State) : List Nat :=
  (liveLooms s).filter fun l => (liveWins s l).any fun w => decide (0x20000000000 ≤ w.base)

/-- Looms that receive a link's events (R324): a valid import window whose span includes a destination with the link in PRIMARY. -/
def linkLooms (s : State) (k : Nat) : List Nat :=
  (liveLooms s).filter fun l => (liveImps s l).any fun w => s.router.rt.any fun r => fbit r.2.1 k && impHas w r.1

/-- Looms entitled to a report's events (R275): the owner of an owned unit, the looms that share a shared one. -/
def entitled (s : State) (r : FaultRep) : List Nat :=
  if r.dev.toNat ≠ ownDev s ∨ r.type = 0 then deviceLooms s r.dev.toNat
  else if r.type = 0x040 then (ownerOfPage s (coreKey r.inst.toNat 0)).toList
  else if r.type = 0x070 then (ownerOfPage s (codecKey r.inst.toNat 0)).toList
  else if r.type = 0x050 ∨ r.type = 0x051 then
    (if r.cls = .ueDram ∧ !r.stackLost then windowLooms s r.info1.toNat else stackLooms s r.inst.toNat)
  else if r.type = 0x080 then hostLooms s
  else if r.type = 0x041 then (liveLooms s).filter fun l => decide (0 < (poolRange (lv s l) r.inst.toNat).2)
  else if r.type = 0x060 then
    (liveLooms s).filter fun l => (linkLooms s (2 * r.inst.toNat)).contains l || (linkLooms s (2 * r.inst.toNat + 1)).contains l
  else if r.type = 0x061 then (liveLooms s).filter fun l => !(liveImps s l).isEmpty
  else []

/-- INFO0 of a machine-check event (R427). -/
def mcInfo0 (i : Nat) (e : LedgerEnt) : Word64 :=
  BitVec.ofNat 64 (i + e.sType.toNat * 2 ^ 10 + e.sInst.toNat * 2 ^ 22 + e.sDev.toNat * 2 ^ 34)

/-- Bit of BLOCK_MAP for a reporter (R422), none for a core. -/
def blockBit (t i : Nat) : Option Nat :=
  if t = 0x040 then none
  else if t = 0x050 ∨ t = 0x051 then some i
  else if t = 0x060 then some (8 + i)
  else if t = 0x070 then some (24 + i)
  else if t = 0x061 then some 40
  else if 0x020 ≤ t ∧ t ≤ 0x025 then some 41
  else some 42

/-- A ledger entry with a report taken in (R423). -/
def ledgerJoin (s : State) (e : LedgerEnt) (r : FaultRep) : LedgerEnt :=
  let t := r.reporterType.toNat
  let i := r.reporterInst.toNat
  let e1 := { e with
    classes := e.classes ||| BitVec.ofNat 8 (2 ^ classBit r.cls)
    count := min (2 ^ 32 - 1) (e.count + 1), last := s.time
    coreMap := if t = 0x040 then e.coreMap ||| BitVec.ofNat 384 (2 ^ i) else e.coreMap
    blockMap := match blockBit t i with
      | some b => e.blockMap ||| BitVec.ofNat 128 (2 ^ b)
      | none => e.blockMap }
  match r.fromDev with
  | none => e1
  | some d =>
    { e1 with
      remote := e1.remote + 1
      minDev := if e1.minDev = 0xFFFF then d.toNat else min e1.minDev d.toNat
      maxDev := if e1.maxDev = 0xFFFF then d.toNat else max e1.maxDev d.toNat }

/-- A fresh entry for a report (R422, R423). -/
def ledgerNew (s : State) (r : FaultRep) (overflow : Bool) : LedgerEnt :=
  { overflow := overflow, classes := 0, sType := r.type, sInst := r.inst, sDev := r.dev
    count := 0, events := 0, first := s.time, last := s.time, eventTime := 0
    minDev := 0xFFFF, maxDev := 0xFFFF, remote := 0, info0 := 0, info1 := r.info1
    coreMap := 0, blockMap := 0, countAt := 0, holding := false
    evType := BitVec.ofNat 16 ((mcType (ownDev s) r).getD 0)
    repType := r.reporterType.setWidth 16, repInst := r.reporterInst.setWidth 16 }

/-- One event round of entry `i` (R423, R424): one event of the type to each loom of `ls`, one vector on PF0, and a holdoff starts. Type 0 posts no loom event. -/
def ledgerRound (s : State) (i : Nat) (e : LedgerEnt) (ls : List Nat) (typ : Nat) (i0 i1 : Word64) : State :=
  let s1 := if typ = 0 then s else produceAll s ls typ e.repType.toNat e.repInst.toNat i0 i1
  let s2 := raiseMsix s1 0 (rdF s (mbxKey 0x200) 30 20)
  { s2 with ledger := tput s2.ledger i { e with
      events := e.events + 1, eventTime := s.time, countAt := e.count, holding := true } }

/-- INFO1 of a first round: for a lost device the device and the reports so far (R427), else as reported. -/
def firstInfo1 (typ : Nat) (e : LedgerEnt) : Word64 :=
  if typ = 0x203 then BitVec.ofNat 64 (e.sDev.toNat + e.count * 2 ^ 32) else e.info1

/-- Index of the entry a report matches: its suspect's (R423). -/
def ledgerMatch (s : State) (r : FaultRep) : Option Nat :=
  (s.ledger.find? fun p => decide (p.2.sDev = r.dev) && decide (p.2.sType = r.type) && decide (p.2.sInst = r.inst) && !p.2.overflow).map Prod.fst

/-- Lowest free index below 1,023 (R423, R425). -/
def ledgerFree (s : State) : Option Nat :=
  (List.range 1023).find? fun i => (tfind s.ledger i).isNone

/-- Where a report goes (R423, R425): the entry it matches, else the lowest free index, else entry 1,023. -/
def ledgerIndex (s : State) (r : FaultRep) : Nat := (ledgerMatch s r).getD ((ledgerFree s).getD 1023)

/-- A report taken by the ledger (R423, R425): it joins the entry at its index, or creates one. With `wait`, a round waits for the re-map decision: a new entry's first, or one of an entry that is there already (R419; log entry 61). -/
def report (s : State) (r : FaultRep) (wait : Bool) : State :=
  let ix := ledgerIndex s r
  let hold := fun (e : LedgerEnt) => if wait then { e with remaps := e.remaps ++ [r.info1] } else e
  match tfind s.ledger ix with
  | some e => { s with ledger := tput s.ledger ix (hold (ledgerJoin s e r)) }
  | none =>
    let e0 := ledgerJoin s (ledgerNew s r (decide (ix = 1023))) r
    let e := { e0 with info0 := mcInfo0 ix e0 }
    let s1 := addCnt s (mbxKey 0x214) 1
    if wait then { s1 with ledger := tput s1.ledger ix (hold e) }
    else ledgerRound s1 ix e (entitled s r) e.evType.toNat (mcInfo0 ix e) (firstInfo1 e.evType.toNat e)

/-- A report whose event the loss itself promises, CORE_RETIRED or STACK_LOST (R419, R420): where it joins an entry, which raises no round for it, the event goes out beside the entry's rounds (log entry 61). -/
def reportLoss (s : State) (r : FaultRep) : State :=
  match tfind s.ledger (ledgerIndex s r), mcType (ownDev s) r with
  | some e, some typ =>
    report (produceAll s (entitled s r) typ r.reporterType.toNat r.reporterInst.toNat (mcInfo0 (ledgerIndex s r) e) r.info1) r false
  | _, _ => report s r false

/-- A report by a local unit about a local unit. -/
def localRep (s : State) (typ inst : Nat) (cls : FaultClass) (repT repI : Nat) (info1 : Nat) : FaultRep :=
  { dev := BitVec.ofNat 14 (ownDev s), type := BitVec.ofNat 12 typ, inst := BitVec.ofNat 12 inst, cls := cls
    fromDev := none, reporterType := BitVec.ofNat 12 repT, reporterInst := BitVec.ofNat 12 repI
    info1 := BitVec.ofNat 64 info1 }

/-- The 128 bytes of an entry as PF0 reads them (R422). -/
def ledgerBytes (e : LedgerEnt) : List Byte :=
  toLe 1 (1 + 2 * b2n e.overflow) ++ toLe 1 e.classes.toNat ++ toLe 2 e.sType.toNat ++ toLe 2 e.sInst.toNat ++
  toLe 2 e.sDev.toNat ++ toLe 4 e.count ++ toLe 4 e.events ++ toLe 8 e.first.toNat ++ toLe 8 e.last.toNat ++
  toLe 8 e.eventTime.toNat ++ toLe 2 e.minDev ++ toLe 2 e.maxDev ++ toLe 4 e.remote ++
  toLe 8 e.info0.toNat ++ toLe 8 e.info1.toNat ++ toLe 48 e.coreMap.toNat ++ toLe 16 e.blockMap.toNat

end Sys2Proof.Machine
end

