-- ==== Sys2Proof/Machine/Lines.lean ====
section
/-! DEFINITION. The requester's line cache (R326, R330) and a unit's coherent accesses through it (R319). Lines are 128 bytes; a line number is its address divided by 128, with the device above the local address. -/

namespace Sys2Proof.Machine

/-- Why an access failed: completion status (R220), and the code of the FETCH_ERROR event when the ledger does not own the cause (R463). -/
structure AccErr where
  status : Nat
  code : Option Nat
  addr : Nat
  deriving DecidableEq, Repr

/-- Completion status of a Tapestry status (R315). -/
def tapStatus (st : Nat) : Nat := if st = 1 ∨ st = 2 then 3 else 4

/-- Event code of a response's status that the ledger does not own (R463): UNREACHABLE, ERR_RESET, BAD_REQ, DUP_LOST. -/
def tapCode (st : Nat) : Option Nat := if st = 4 ∨ st = 6 ∨ st = 7 ∨ st = 8 then some st else none

/-- The Tapestry address of a device's local address (R308). -/
def tapAt (dev addr : Nat) : Nat := 2 ^ 63 + dev * 2 ^ 42 + addr

/-- The failure of an access that a Tapestry status ended. -/
def tapErr (st : Nat) (code : Option Nat) (a : Nat) : AccErr := ⟨tapStatus st, code, a⟩

/-- What the command in progress waits for; the first need found stands. -/
def needs (s : State) (n : Need) : State :=
  if s.trip.need.isSome then s else { s with trip := { s.trip with need := some n } }

-- ## Answers that wait for their unit

/-- Whether a reply answers an access. -/
def answers (w : Who) (l a n : Nat) (wr : Bool) (r : Reply) : Bool :=
  decide (r.who = w) && decide (r.loom = l) && decide (r.addr = a) && decide (r.len = n) && (r.write == wr)

/-- The oldest answer to an access taken. -/
def takeReply (s : State) (w : Who) (l a n : Nat) (wr : Bool) : State × Option Reply :=
  match s.router.replies.find? (answers w l a n wr) with
  | none => (s, none)
  | some r => ({ s with router := { s.router with replies := dropFirst (answers w l a n wr) s.router.replies } }, some r)

/-- An answer kept for its unit. -/
def addReply (s : State) (r : Reply) : State := { s with router := { s.router with replies := s.router.replies ++ [r] } }

-- ## Lines (R326, R330)

/-- Requester's line number of a byte of a device. -/
def lineOf (dev addr : Nat) : Nat := (dev * 2 ^ 42 + addr) / 128

/-- Device and local address of a line. -/
def lineHome (line : Nat) : Nat × Nat := (line * 128 / 2 ^ 42, line * 128 % 2 ^ 42)

/-- A line of the remote line cache set. -/
def setLine (s : State) (line : Nat) (x : Line) : State := { s with coh := { s.coh with lines := tput s.coh.lines line x } }

/-- A line given up. -/
def dropLine (s : State) (line : Nat) : State := { s with coh := { s.coh with lines := tdel s.coh.lines line } }

/-- A line kept while it is valid or something of it is under way. -/
def keepLine (s : State) (line : Nat) (x : Line) : State :=
  if !x.valid && x.want.isNone && !x.evicting && x.fail.isNone then dropLine s line else setLine s line x

/-- A coherence request of loom `l` for a line (R326): at most four per home are outstanding (R322). -/
def lineReq (s : State) (l : Nat) (op : MsgOp) (line : Nat) (noData : Bool) (bs : List Byte) : Option State :=
  let (d, a) := lineHome line
  let m := { ownReq s op d a (if op = .evict then bs.length else 128) bs with noData := noData }
  if !maySend s m || !bucketOpen s l then none
  else match sendReq s l m (.coherent line) with
    | (t, none) => some t
    | (_, some _) => none

/-- A line's eviction begins (R326): EVICT, with data when M; the line waits in the eviction buffer. -/
def evictLine (s : State) (line : Nat) : State :=
  match tfind s.coh.lines line with
  | none => s
  | some x =>
    if x.want.isSome || x.evicting || !x.valid then s
    else match lineReq s x.loom .evict line false (if x.owned then x.data else []) with
      | none => s
      | some t => setLine t line { x with evicting := true }

/-- Lines a loom holds. -/
def loomLines (s : State) (l : Nat) : List (Nat × Line) := s.coh.lines.filter fun p => decide (p.2.loom = l)

/-- The least recently used line of a list that may be evicted. -/
def oldestLine (ls : List (Nat × Line)) : Option Nat :=
  (ls.foldl (fun b p => if p.2.want.isSome || p.2.evicting then b
    else match b with
      | none => some p
      | some q => if p.2.lru < q.2.lru then some p else some q) (none : Option (Nat × Line))).map Prod.fst

/-- The line whose place a new line needs (R330): the cache place is a fixed function of the address. -/
def slotRival (s : State) (line : Nat) : Option Nat :=
  (s.coh.lines.find? fun p => decide (p.1 ≠ line) && decide (Config.lineSlot p.1 = Config.lineSlot line)).map Prod.fst

/-- Whether a loom may hold one more line at its place; else the eviction that makes room (R330). -/
def makeRoom (s : State) (l line : Nat) : State × Bool :=
  match slotRival s line with
  | some v => (evictLine s v, false)
  | none =>
    if (loomLines s l).length < rdF s (tapKey (0x200 + 4 * l)) 19 0 then (s, true)
    else match oldestLine (loomLines s l) with
      | some v => (evictLine s v, false)
      | none => (s, false)

/-- A line used now. -/
def touchLine (s : State) (line : Nat) (x : Line) : State :=
  let t := setLine s line { x with lru := s.coh.tick }
  { t with coh := { t.coh with tick := s.coh.tick + 1 } }

/-- A line asked for: S for a load, M for a store (R326); a store of the whole line asks for no data and leaves its bytes in `put`. Nothing is sent while a request or an eviction of the line is under way. -/
def fetchLine (s : State) (l line : Nat) (own : Bool) (put : Option (Who × List Byte)) : State :=
  let op : MsgOp := if own then .readOwn else .readShared
  match tfind s.coh.lines line with
  | some x =>
    if x.want.isSome || x.evicting then s
    else match lineReq s l op line put.isSome [] with
      | some t => setLine t line { x with want := some own, put := put }
      | none => s
  | none =>
    match makeRoom s l line with
    | (t, false) => t
    | (t, true) =>
      match lineReq t l op line put.isSome [] with
      | some u => setLine u line { loom := l, want := some own, put := put }
      | none => t

/-- The data of a line that a load hits: S or M (R326). -/
def lineHit (s : State) (line : Nat) : Option Line :=
  match tfind s.coh.lines line with
  | some x => if x.valid && !x.evicting then some x else none
  | none => none

/-- Whether a loom may load or store at a coherent address: a COHERENT import window with the right (R319). -/
def cohImport (s : State) (l d a n : Nat) (w : Bool) : Bool :=
  (impFor s l d a n (if w then .write else .read)).any Imp.coherent

/-- Lines that `[a, a + n)` of a device touches. -/
def linesOf (d a n : Nat) : List Nat :=
  if n = 0 then [] else (List.range ((a + n - 1) / 128 - a / 128 + 1)).map fun i => lineOf d (a / 128 * 128 + 128 * i)

/-- Bytes `[a, a + n)` of a device from the remote line cache, where every line is held. -/
def lineBytes (s : State) (d a n : Nat) : List Byte :=
  (List.range n).map fun i => match lineHit s (lineOf d (a + i)) with
    | some y => y.data.getD ((a + i) % 128) 0
    | none => 0

/-- The 128 bytes of a line at address `b` with what a store of `bs` at `a` leaves there. -/
def linePatch (old : List Byte) (b a : Nat) (bs : List Byte) : List Byte :=
  (List.range 128).map fun i => if within (b + i) 1 a bs.length then bs.getD (b + i - a) 0 else old.getD i 0

/-- Lines used for a load. -/
def touchLines (s : State) (d a n : Nat) : State :=
  (linesOf d a n).foldl (fun t line => match lineHit t line with
    | some y => touchLine t line y
    | none => t) s

/-- Whether a line's request is under way. -/
def lineWanted (s : State) (line : Nat) : Bool := (tfind s.coh.lines line).any fun y => y.want.isSome || y.evicting

/-- The failure that a line's request left, taken by the access that meets it (R315). -/
def takeFail (s : State) (line : Nat) : State × Option AccErr :=
  match tfind s.coh.lines line with
  | none => (s, none)
  | some x => match x.fail with
    | none => (s, none)
    | some (st, code) => (keepLine s line { x with fail := none }, some (tapErr st code (2 ^ 63 + line * 128)))

/-- The first failure of a list of lines. -/
def takeFails : List Nat → State → State × Option AccErr
  | [], s => (s, none)
  | line :: r, s => match takeFail s line with
    | (t, some e) => (t, some e)
    | (t, none) => takeFails r t

/-- A unit's load of `[a, a + n)` of a device through the line cache (R326): served when every line is held, else the first missing line is needed. -/
def cohRead (s : State) (w : Who) (l d a n : Nat) : State × Except AccErr (List Byte) :=
  match takeFails (linesOf d a n) s with
  | (t, some e) => (t, .error e)
  | (t, none) =>
    match (linesOf d a n).find? fun line => (lineHit t line).isNone with
    | some line => (needs t (.line w l line false none), .ok (List.replicate n 0))
    | none => (touchLines t d a n, .ok (lineBytes t d a n))

/-- A unit's store of `bs` at `a` into a list of lines (R326): a line in M takes its bytes; another is needed, a whole one with the bytes it will hold. A store that a GRANT_M has made is answered by a reply. -/
def cohStore (w : Who) (l a : Nat) (bs : List Byte) : List Nat → State → State × Option AccErr
  | [], s => (s, none)
  | line :: r, s =>
    let b := (lineHome line).2
    match takeReply s w l (2 ^ 63 + line * 128) 128 true with
    | (t, some _) => cohStore w l a bs r t
    | (_, none) =>
      match takeFail s line with
      | (t, some e) => (t, some e)
      | (t, none) =>
        let whole := within b 128 a bs.length
        let need := (needs t (.line w l line true (if whole then some (slice (bs.drop (b - a)) 0 128) else none)), none)
        match lineHit t line with
        | some y => if y.owned then cohStore w l a bs r (touchLine t line { y with data := linePatch y.data b a bs }) else need
        | none => need

end Sys2Proof.Machine
end

