-- ==== Sys2Proof/Machine/Access.lean ====
section
/-! DEFINITION. Accesses made for a loom (R271, R281, R284-R286, R292-R294): checked first, then moved, counted and charged. -/

namespace Sys2Proof.Machine

/-- The block that serves a local address, if any. -/
def placeBlock (s : State) (a : Nat) : Option Block :=
  match placeOf s a with
  | .dram st _ => some (.drc (Fin.ofNat 8 st))
  | .scratch c _ => some (.core (Fin.ofNat 384 c))
  | .pool r _ => some (.region (Fin.ofNat 8 r))
  | .knot _ => some .knots
  | _ => none

/-- Whether a block accepts no new work: it was asked to become idle, or is resetting (R405). -/
def blockClosed (s : State) (b : Block) : Bool := (blkOf s (pageOf b)).pending || (blkOf s (pageOf b)).resetting

/-- Whether an access is a block's own. -/
def unitOf (b : Block) (w : Who) : Bool := decide (w.typ = codeOf b) && decide (w.inst = instOf b)

/-- Whether another unit's access to a local address is answered ERR_RESET (R405, R406). -/
def shutPlace (s : State) (w : Who) (a : Nat) : Bool := (placeBlock s a).any fun b => blockClosed s b && !unitOf b w

/-- One byte at a local address: knot records present their counter (R191), host-window bytes lie in host memory (R281). -/
def byteRd (s : State) (a : Nat) : Byte :=
  match placeOf s a with
  | .knot o => if o % 64 < 8 then BitVec.ofNat 8 ((knotOf s (o / 64)).toNat / 256 ^ (o % 64)) else 0
  | .hostWin o => cget s.host (hostAddr s o)
  | .hole => 0
  | _ => cget s.mem a

/-- `n` bytes at a local address. -/
def localRd (s : State) (a n : Nat) : List Byte := (List.range n).map fun i => byteRd s (a + i)

/-- Whether a 64-byte block holds an uncorrectable error or poison (R286). -/
def badBlock (s : State) (b : Nat) : Bool := s.badBlocks.contains b

/-- 64-byte blocks that `[a, a + n)` touches. -/
def blocksOf (a n : Nat) : List Nat :=
  if n = 0 then [] else (List.range ((a + n - 1) / 64 - a / 64 + 1)).map (a / 64 + ·)

/-- Pseudo-channel number of a local address in its stack (R283). -/
def dramPc (a : Nat) : Nat :=
  let g := a % 0x2000000000 / 256
  g % 64 ^^^ g / 64 % 64 ^^^ g / 4096 % 64 ^^^ g / 262144 % 64 ^^^ g / 16777216 % 32

/-- DRAM channel of a local address (R283). -/
def dramChannel (a : Nat) : Nat := dramPc a / 2

/-- Pseudo-channel of a local address within its channel (R283). -/
def dramPseudo (a : Nat) : Nat := dramPc a % 2

/-- 256-byte unit of a local address within its pseudo-channel (R283). -/
def dramUnit (a : Nat) : Nat := a % 0x2000000000 / 256 / 64

/-- Times of a list within the last second, 19,531,250 ticks. -/
def lastSecond (now : Word64) (ts : List Word64) : List Word64 := ts.filter fun t => decide ((now - t).toNat < 19531250)

/-- A corrected error counted against its block (R416), when the block's CE class is enabled (R442). -/
def ceCount (s : State) (page : Nat) : State :=
  if fbit (rd s (page + 0x14)) 0 = false then s else { s with ceCounts := tput s.ceCounts page (s.time :: lastSecond s.time (tget [] s.ceCounts page)) }

/-- A corrected DRAM read (R285, R299, R416): an uncorrectable record is not overwritten. -/
def ceFound (s : State) (st a : Nat) : State :=
  let s1 := ceCount (blkError (addCnt s (drcKey st 0x108) 1) (drcKey st 0) 0 (BitVec.ofNat 32 (a / 64))) (drcKey st 0)
  if fbit (rd s1 (drcKey st 0x110)) 0 then s1
  else wr (wr s1 (drcKey st 0x110) (BitVec.ofNat 32 (a / 64 * 64 % 2 ^ 32))) (drcKey st 0x114) (BitVec.ofNat 32 (a / 2 ^ 32))

/-- An uncorrectable block found by a read (R286): counted, recorded, kept in the block's error registers and reported. -/
def ueFound (s : State) (b repT repI : Nat) : State :=
  let a := b * 64
  let st := a / 0x2000000000
  let s1 := addCnt s (drcKey st 0x10C) 1
  let s2 := wr (wr s1 (drcKey st 0x110) (BitVec.ofNat 32 (a % 2 ^ 32 + 1))) (drcKey st 0x114) (BitVec.ofNat 32 (a / 2 ^ 32))
  let s0 := blkError s2 (drcKey st 0) 3 (BitVec.ofNat 32 (a / 64))
  let k := stackOf s0 st
  let s3 := setStack s0 st { k with ueTimes := tput k.ueTimes (dramChannel a) (s.time :: lastSecond s.time (tget [] k.ueTimes (dramChannel a))) }
  report s3 (localRep s3 0x050 st .ueDram repT repI a) false

/-- Bytes written at a local address (R284, R286): a host-window byte goes to host memory. A write of a whole block clears poison; a partial write into a bad block still completes, poisons the merged block and is reported. -/
def localWr (s : State) (a : Nat) (bs : List Byte) : State :=
  match placeOf s a with
  | .hostWin _ =>
    (List.range bs.length).foldl (fun t i =>
      { t with host := cput t.host (hostAddr t (a + i - 0x20000000000)) (bs.getD i 0) }) s
  | .dram _ _ =>
    let bad := (blocksOf a bs.length).filter (badBlock s)
    let whole := bad.filter fun b => within (b * 64) 64 a bs.length
    let part := bad.filter fun b => !within (b * 64) 64 a bs.length
    let s1 := memWr { s with badBlocks := s.badBlocks.filter fun b => !whole.contains b } a bs
    part.foldl (fun t b => ueFound t b 0x050 (a / 0x2000000000)) s1
  | .hole => s
  | _ => memWr s a bs

-- ## The regulators (R292-R295)

/-- The live regulator of a loom on a stack: RATE, BURST in bytes, BORROW (R270, R276). -/
def regRate (s : State) (l st : Nat) : Nat := lvF s l (0x1C0 + 4 * st) 15 0
/-- BURST of a loom's regulator, in bytes. -/
def regCap (s : State) (l st : Nat) : Nat := lvF s l (0x1C0 + 4 * st) 22 16 * 1024
/-- BORROW of a loom's regulator. -/
def regBorrow (s : State) (l st : Nat) : Bool := fbit (lv s l (0x1C0 + 4 * st)) 24

/-- CAP60 of a stack (R295). -/
def capped (s : State) (st : Nat) : Bool := fbit (rd s (drcKey st 0x100)) 3

/-- Effective rate of a loom's regulator, in units of 0.5 GB/s (R295). -/
def effRate (s : State) (l st : Nat) : Nat := if capped s st then regRate s l st * 3 / 5 else regRate s l st

/-- A stack's traffic of the last microsecond: entries of the last 20 ticks (R295). -/
def lastMicro (now : Word64) (r : List (Word64 × Nat)) : List (Word64 × Nat) := r.filter fun p => decide ((now - p.1).toNat < 20)

/-- Whether borrowing on a stack is suspended (R295): a cap is in force and the last microsecond carried more than 1,966 GB/s. -/
def borrowShut (s : State) (st : Nat) : Bool :=
  capped s st && decide (1966000 < ((lastMicro s.time (stackOf s st).recent).map Prod.snd).sum)

/-- Traffic of a stack noted (R295), and bytes served to a loom counted in units of 64 KiB (R294). -/
def noteTraffic (s : State) (l : Option Nat) (st n : Nat) : State :=
  let k := stackOf s st
  let k1 := { k with recent := (s.time, n) :: lastMicro s.time k.recent }
  match l with
  | none => setStack s st k1
  | some i =>
    let m := tget 0 k.served i + n
    addCnt (setStack s st { k1 with served := tput k.served i (m % 65536) }) (drcKey st (0x180 + 4 * i)) (m / 65536)

/-- Whether `n` bytes of a loom to a stack are in-rate (R292): nothing is owed and the bucket holds them, or is full; a loom without a burst is unregulated, which R270 shuts out. -/
def inRate (s : State) (l st n : Nat) : Bool :=
  decide (regCap s l st = 0) ||
  (decide (tget 0 (stackOf s st).debt l = 0) && decide (min n (regCap s l st) ≤ tget 0 (stackOf s st).bucket l))

/-- `n` bytes of a loom paid from its bucket; what the bucket does not hold is owed (log entry 50). -/
def pay (s : State) (l st n : Nat) : State :=
  let k := stackOf s st
  let b := tget 0 k.bucket l
  if regCap s l st = 0 then s
  else setStack s st { k with bucket := tput k.bucket l (b - n), debt := tput k.debt l (tget 0 k.debt l + (n - b)) }

/-- A loom's traffic to a stack charged (R292-R294): in-rate it takes tokens, borrowed it costs nothing; none when it must wait. -/
def charge (s : State) (l : Option Nat) (st n : Nat) : Option State :=
  match l with
  | none => some (noteTraffic s none st n)
  | some i =>
    if inRate s i st n then some (noteTraffic (pay s i st n) (some i) st n)
    else if regBorrow s i st && !borrowShut s st then some (noteTraffic s (some i) st n)
    else none

/-- Traffic that waits for nothing charged to a loom: coherent requests at their home (R294, R327; log entry 50). -/
def chargeNow (s : State) (l st n : Nat) : State := (charge s (some l) st n).getD (noteTraffic (pay s l st n) (some l) st n)

/-- A bill's entries with one more: the traffic of one loom to one stack adds up. -/
def addBill (l : Option Nat) (st n : Nat) : List (Option Nat × Nat × Nat) → List (Option Nat × Nat × Nat)
  | [] => [(l, st, n)]
  | (m, t, k) :: r => if m = l ∧ t = st then (m, t, k + n) :: r else (m, t, k) :: addBill l st n r

/-- The bill of the command in progress settled; none when some traffic must wait. -/
def settle : List (Option Nat × Nat × Nat) → State → Option State
  | [], s => some s
  | (l, st, n) :: r, s => (charge s l st n).bind (settle r)

/-- Cost of a dense transfer of `[a, a + n)` (R292): 256 bytes for each granule. -/
def denseCost (a n : Nat) : Nat := if n = 0 then 0 else ((a + n - 1) / 256 - a / 256 + 1) * 256

/-- Bytes that the reads of a partial write cost (R292): 64 for each block that `[a, a + n)` covers only in part. -/
def partCost (a n : Nat) : Nat := ((blocksOf a n).filter fun b => !within (b * 64) 64 a n).length * 64

/-- Traffic of an access at a local address put on the bill, when it reaches a stack; a stack that refreshes itself holds it (R291). -/
def bill (s : State) (l : Option Nat) (a cost : Nat) : State :=
  match placeOf s a with
  | .dram st _ =>
    if (stackOf s st).selfRefresh then needs s .hold
    else { s with trip := { s.trip with bill := addBill l st cost s.trip.bill } }
  | _ => s

/-- The export window that grants a request to local `[a, a + n)` from a device and loom (R317): the lowest of loom × 8 + window, and how many qualify. -/
def expFor (s : State) (srcDev srcLoom a n : Nat) (rt : Right) (coh : Bool) : Option (Nat × Nat) × Nat :=
  let all := (liveLooms s).flatMap fun l =>
    if (loomOf s l).closed then [] else
    ((List.range 8).filter fun e =>
      let w := expFrom (lv s l) e
      w.valid && within a n w.base w.size && decide (w.devLo ≤ srcDev) && decide (srcDev ≤ w.devHi) &&
      (w.anyLoom || decide (w.srcLoom = srcLoom)) && (w.coherent == coh) &&
      (match rt with
       | .read => w.read
       | .write => w.write
       | .atomic => w.atomic
       | .knot => w.knot)).map fun e => (l, e)
  (all.head?, all.length)

/-- A host access cut off because the PCIe link is down (R404): reported with the PCIe block as suspect. -/
def hostDown (s : State) (repT repI a : Nat) : State :=
  report (blkError s 0x300000 6 0) (localRep s 0x080 0 .host repT repI a) false

-- ## Local accesses (R281, R284-R286, R327)

/-- Coherent lines that a local access must wait for (R325, R327). -/
def homeWait (s : State) (a n : Nat) (w : Bool) : State :=
  let ls := linesHeld s a n w
  if ls.isEmpty then s else needs s (.snoop ls w)

/-- The requester ID of a host-window access (R272, R281): the loom's function. -/
def hostAs (s : State) (l : Option Nat) : State :=
  match l with
  | some i => { s with hostFn := some (loomFn s i) }
  | none => s

/-- A local read already allowed, charged to a loom or to none at `cost` bytes: a block that closes answers ERR_RESET (R406), bad blocks fail it (R286), host segments are checked first (R281), coherent lines are snooped (R327). -/
def localReadAt (s : State) (w : Who) (l : Option Nat) (a n cost : Nat) : State × Except AccErr (List Byte) :=
  if shutPlace s w a then (s, .error ⟨4, some 6, a⟩) else
  match placeOf s a with
  | .dram _ _ =>
    match (blocksOf a n).find? (badBlock s) with
    | some b => (ueFound s b w.typ w.inst, .error ⟨4, none, b * 64⟩)
    | none => (homeWait (bill s l a cost) a n false, .ok (localRd s a n))
  | .pool _ _ => (homeWait s a n false, .ok (localRd s a n))
  | .hostWin o =>
    if !hostOk s o n then (s, .error ⟨4, some 0x10, a⟩)
    else if !s.boot.pcieUp then (hostDown s w.typ w.inst a, .error ⟨4, none, a⟩)
    else if blockClosed s .pcie then (s, .error ⟨4, some 6, a⟩)
    else (hostAs s l, .ok (localRd s a n))
  | _ => (s, .ok (localRd s a n))

/-- A dense local read. -/
def localRead (s : State) (w : Who) (l : Option Nat) (a n : Nat) : State × Except AccErr (List Byte) :=
  localReadAt s w l a n (denseCost a n)

/-- A local write already allowed, charged to a loom or to none at `cost` bytes beside the reads of its partial blocks; a block that closes answers ERR_RESET (R406). -/
def localWriteAt (s : State) (w : Who) (l : Option Nat) (a : Nat) (bs : List Byte) (cost : Nat) : State × Option AccErr :=
  if shutPlace s w a then (s, some ⟨4, some 6, a⟩) else
  match placeOf s a with
  | .hostWin o =>
    if !hostOk s o bs.length then (s, some ⟨4, some 0x10, a⟩)
    else if !s.boot.pcieUp then (hostDown s w.typ w.inst a, some ⟨4, none, a⟩)
    else if blockClosed s .pcie then (s, some ⟨4, some 6, a⟩)
    else (localWr (hostAs s l) a bs, none)
  | _ => (localWr (homeWait (bill s l a (cost + partCost a bs.length)) a bs.length true) a bs, none)

/-- A dense local write. -/
def localWrite (s : State) (w : Who) (l : Option Nat) (a : Nat) (bs : List Byte) : State × Option AccErr :=
  localWriteAt s w l a bs (denseCost a bs.length)

-- ## Accesses through the Tapestry (R271, R309, R310, R313, R319)

/-- Lengths of the messages that carry `[a, a + n)`: none crosses a 4 KiB page (R313). -/
def pageCuts : Nat → Nat → Nat → List (Nat × Nat)
  | 0, _, _ => []
  | f + 1, a, n =>
    if n = 0 then []
    else
      let k := min n (4096 - a % 4096)
      (a, k) :: pageCuts f (a + k) (n - k)

/-- The pieces of a read that have been answered, joined; the rest is needed. -/
def tapRead (w : Who) (l : Nat) : List (Nat × Nat) → State → List Byte → State × Except AccErr (List Byte)
  | [], s, acc => (s, .ok acc)
  | (a, n) :: r, s, acc =>
    match takeReply s w l a n false with
    | (t, some p) => if p.status = 0 then tapRead w l r t (acc ++ slice p.data 0 n) else (t, .error (tapErr p.status p.code a))
    | (_, none) => (needs s (.send w l (((a, n) :: r).map fun q => (q.1, q.2, none))), .ok [])

/-- The pieces of a write that have been answered; the rest is needed. -/
def tapWrite (w : Who) (l : Nat) : List (Nat × Nat × List Byte) → State → State × Option AccErr
  | [], s => (s, none)
  | (a, n, bs) :: r, s =>
    match takeReply s w l a n true with
    | (t, some p) => if p.status = 0 then tapWrite w l r t else (t, some (tapErr p.status p.code a))
    | (_, none) => (needs s (.send w l (((a, n, bs) :: r).map fun q => (q.1, q.2.1, some q.2.2))), none)

/-- The start of the 16-byte unit of a Tapestry transfer (R313). -/
def unit16 (a : Nat) : Nat := a / 16 * 16

/-- Bytes of the whole 16-byte units that `[a, a + n)` touches (R313). -/
def span16 (a n : Nat) : Nat := cdiv (a + n - unit16 a) 16 * 16

/-- A unit's read of `[a, a + n)` at a Tapestry address, `d` and `o` its parts: by READs of whole 16-byte units, or through the line cache under a COHERENT import (R319). -/
def farRead (s : State) (w : Who) (l a n d o : Nat) : State × Except AccErr (List Byte) :=
  if !devValid s then (s, .error ⟨4, some 4, a⟩)
  else if unroutable s d then (s, .error ⟨4, none, a⟩)
  else if cohImport s l d o n false then cohRead s w l d o n
  else match tapRead w l (pageCuts (n / 4096 + 3) (unit16 a) (span16 a n)) s [] with
    | (t, .ok bs) => (t, .ok (slice bs (a - unit16 a) n))
    | (t, .error e) => (t, .error e)

/-- WRITEs of `bs` from a 16-byte boundary on. -/
def farPieces (a : Nat) (bs : List Byte) : List (Nat × Nat × List Byte) :=
  (pageCuts (bs.length / 4096 + 3) a bs.length).map fun p => (p.1, p.2, slice bs (p.1 - a) p.2)

/-- A unit's write at a Tapestry address: by WRITEs, or through the line cache under a COHERENT import (R319). A write that is not of whole 16-byte units reads them first and writes them whole (R313; log entry 51). -/
def farWrite (s : State) (w : Who) (l a : Nat) (bs : List Byte) (d o : Nat) : State × Option AccErr :=
  if !devValid s then (s, some ⟨4, some 4, a⟩)
  else if unroutable s d then (s, some ⟨4, none, a⟩)
  else if cohImport s l d o bs.length true then cohStore w l o bs (linesOf d o bs.length) s
  else if a % 16 = 0 ∧ bs.length % 16 = 0 then tapWrite w l (farPieces a bs) s
  else match tapRead w l (pageCuts (bs.length / 4096 + 3) (unit16 a) (span16 a bs.length)) s [] with
    | (t, .ok old) => tapWrite w l (farPieces (unit16 a) (patch (slice old 0 (span16 a bs.length)) (a - unit16 a) bs)) t
    | (t, .error e) => (t, some e)

/-- How many live windows of a loom, local or import, match an access with its right (R267, R319). -/
def windowHits (s : State) (l a n : Nat) (w : Bool) : Nat :=
  if isTap a then
    match tapSplit a with
    | some (d, o) => ((liveImps s l).filter fun x => impHas x d && within o n x.base x.size && (if w then x.write else x.read)).length
    | none => 0
  else match placeOf s a with
    | .dram _ _ | .hostWin _ => ((liveWins s l).filter fun x => within a n x.base x.size && (if w then x.write else x.read)).length
    | _ => 0

/-- A decode of a loom's windows that found `k` entries: several are counted on the loom's page, and the access goes on (R20, R267). -/
def noteHits (s : State) (l k : Nat) : State := if 1 < k then addCnt s (loomKey l 0x30) 1 else s

/-- A read made by a front-end, codec or spill unit, or by a core, for a loom (R271), which costs `cost` bytes at a stack (R292). -/
def loomReadAt (s : State) (w : Who) (l a n cost : Nat) : State × Except AccErr (List Byte) :=
  if !allowed s l a n false then (s, .error ⟨3, none, a⟩)
  else if isTap a then
    match tapSplit a with
    | none => (s, .error ⟨3, none, a⟩)
    | some (d, o) => farRead (noteHits s l (windowHits s l a n false)) w l a n d o
  else localReadAt (noteHits s l (windowHits s l a n false)) w (some l) a n cost

/-- A dense read for a loom. -/
def loomRead (s : State) (w : Who) (l a n : Nat) : State × Except AccErr (List Byte) := loomReadAt s w l a n (denseCost a n)

/-- A write made by a front-end, codec or spill unit, or by a core, for a loom (R271), which costs `cost` bytes at a stack. -/
def loomWriteAt (s : State) (w : Who) (l a : Nat) (bs : List Byte) (cost : Nat) : State × Option AccErr :=
  if !allowed s l a bs.length true then (s, some ⟨3, none, a⟩)
  else if isTap a then
    match tapSplit a with
    | none => (s, some ⟨3, none, a⟩)
    | some (d, o) => farWrite (noteHits s l (windowHits s l a bs.length true)) w l a bs d o
  else localWriteAt (noteHits s l (windowHits s l a bs.length true)) w (some l) a bs cost

/-- A dense write for a loom. -/
def loomWrite (s : State) (w : Who) (l a : Nat) (bs : List Byte) : State × Option AccErr :=
  loomWriteAt s w l a bs (denseCost a bs.length)

/-- Reads of consecutive pieces, joined. -/
def readPieces (w : Who) (l : Nat) : List (Nat × Nat) → State → List Byte → State × Except AccErr (List Byte)
  | [], s, acc => (s, .ok acc)
  | (a, n) :: r, s, acc =>
    match loomRead s w l a n with
    | (t, .ok bs) => readPieces w l r t (acc ++ bs)
    | (t, .error e) => (t, .error e)

/-- A read of `[a, a + n)` that adjoining windows may serve together: window by window, in pieces within 4 KiB pages. -/
def loomReadAcross (s : State) (w : Who) (l a n : Nat) : State × Except AccErr (List Byte) :=
  readPieces w l (pageCuts (n / 4096 + 2) a n) s []

-- ## Waiting (R16, R291, R293, R320, R322, R326, R327)

/-- Whether an access of a unit is outstanding. -/
def pieceOut (s : State) (w : Who) (l a n : Nat) (wr : Bool) : Bool :=
  s.router.out.any fun o => decide (o.origin = .unit w l a n wr)

/-- Requests for pieces sent while the source may send: each once (R320, R322). -/
def sendNeeds (w : Who) (l : Nat) : List (Nat × Nat × Option (List Byte)) → State → State
  | [], s => s
  | (a, n, bs) :: r, s =>
    if pieceOut s w l a n bs.isSome then sendNeeds w l r s
    else
      let m := match bs with
        | some v => ownReq s .write (bitsOf a 55 42) (bitsOf a 41 0) n v
        | none => ownReq s .read (bitsOf a 55 42) (bitsOf a 41 0) n []
      if !maySend s m || !bucketOpen s l then s
      else sendNeeds w l r (sendReq s l m (.unit w l a n bs.isSome)).1

/-- What a need sets off: remote requests, a line's request, snoops of the home's own lines; tokens only come with time. -/
def pursue (s : State) : Need → State
  | .send w l ps => sendNeeds w l ps s
  | .line w l line own put => fetchLine s l line own (put.map fun bs => (w, bs))
  | .snoop ls inv => ls.foldl (fun t line => snoopLine t line inv) s
  | .hold => s

/-- Whether pursuing a need does anything now. -/
def canPursue (s : State) (n : Need) : Bool := decide (pursue s n ≠ s)

/-- What a command has left, once its accesses are served: nothing it needs is missing, and its traffic is paid for. -/
def served (t : State) : Option State :=
  if t.trip.need.isSome then none else settle t.trip.bill { t with trip := {} }

/-- A state with no access begun. -/
def fresh (s : State) : State := { s with trip := {} }

/-- A command that makes accesses: `f` runs whole when its accesses are served and its events find their producers free (R223). Otherwise nothing of it happens but the requests and snoops that its accesses wait for, and the command waits (R16). At S5 nothing makes accesses (R390, R393). -/
def asking (f : State → State) (s : State) : State :=
  if s.power.s5 then s else
  match served (f (fresh s)) with
  | some u => if overfull s u then fresh s else u
  | none => match (f (fresh s)).trip.need with
    | some n => pursue (fresh s) n
    | none => fresh s

/-- One unit of an engine's work, `t` after `s`: done when its accesses are served; otherwise only the requests and snoops it waits for are set off. The Boolean tells whether it is done. -/
def workUnit (s t : State) : State × Bool :=
  match served t with
  | some u => (u, true)
  | none => match t.trip.need with
    | some n => (pursue (fresh s) n, false)
    | none => (fresh s, false)

/-- An attempt `t` of one of several candidates: none when it can only wait, so that the next may try. -/
def attempt (s t : State) : Option State :=
  if (served t).isSome || t.trip.need.any (canPursue (fresh s)) then some t else none

/-- Whether a loom's bucket lets it reach a stack now (R292, R293), when an address lies in one. -/
def affordable (s : State) (l a : Nat) : Bool :=
  match placeOf s a with
  | .dram st _ => inRate s l st 256 || (regBorrow s l st && !borrowShut s st)
  | _ => true

/-- Whether another unit's write to local or Tapestry `[a, a + n)` is under way for a loom. -/
def writing (s : State) (w : Who) (l a n : Nat) : Bool :=
  (s.router.out.any fun o => match o.origin with
    | .unit v m b k wr => wr && decide (v ≠ w) && decide (m = l) && overlaps b k a n
    | _ => false) ||
  s.router.replies.any fun r => r.write && decide (r.who ≠ w) && decide (r.loom = l) && overlaps r.addr r.len a n

/-- ACCESS_FAULT posted to a loom (R224): address, and operation and core when an operation made the access. -/
def postAccessFault (s : State) (l addr : Nat) (op core : Nat) (srcT srcI : Nat) : State :=
  produce s l 0x0003 srcT srcI (BitVec.ofNat 64 addr) (BitVec.ofNat 64 (op + core * 2 ^ 32))

/-- FETCH_ERROR posted to a loom for a cause the ledger does not own (R463). -/
def postFetchError (s : State) (l : Nat) (e : AccErr) (srcT srcI : Nat) : State :=
  match e.code with
  | some c => produce s l 0x0004 srcT srcI (BitVec.ofNat 64 e.addr) (BitVec.ofNat 64 c)
  | none => s

/-- The event of a failed access made by no operation. -/
def postErr (s : State) (l : Nat) (e : AccErr) (srcT srcI : Nat) : State :=
  if e.status = 3 then postAccessFault s l e.addr 0xFFFFFFFF 0xFFFF srcT srcI
  else postFetchError s l e srcT srcI

-- ## Writes behind which PF0 reads (R439)

/-- The PCIe block as the unit that makes a host's access. -/
def pcieWho : Who := ⟨0x080, 0, 0⟩

/-- The BAR4 writes that no read by PF0 has followed yet reach memory, in their order (R439). -/
def landPosted (s : State) : State := s.posted.foldl (fun t p => (localWrite t pcieWho none p.1 p.2).1) { s with posted := [] }

/-- A read by PF0 from BAR0 or BAR4: the BAR4 writes before it become visible, and then it completes (R439). At S5, where no stack is accessed, they stay (log entry 60). -/
def behindPosted (f : State → State) (s : State) : State :=
  if s.posted.isEmpty || s.power.s5 then f s
  else
    let t := asking landPosted s
    if t.posted.isEmpty then f t else t

end Sys2Proof.Machine
end

