-- ==== Sys2Proof/Machine/Knots.lean ====
section
/-! DEFINITION. Knots (R191, R194): atomic updates, and the waits they satisfy. -/

namespace Sys2Proof.Machine

/-- Field of descriptor word `w`. -/
def wfld (ws : List Word32) (w hi lo : Nat) : Nat := fld (ws.getD w 0) hi lo

/-- Value of a knot after an update (R192). -/
def knotNew (old : Word64) (set : Bool) (v : Word64) : Word64 := if set then v else old + v

/-- Whether an issued WAIT_GE waits on knot `i` for at most `v` (R192). -/
def waitsFor (i : Nat) (v : Word64) (x : Slot) : Bool :=
  x.issued && decide (wfld x.words 0 7 0 = 0x28) && decide (wfld x.words 5 1 0 = 2) && decide (wfld x.words 6 15 0 = i) &&
  decide ((x.words.getD 8 0).toNat + (x.words.getD 9 0).toNat * 2 ^ 32 ≤ v.toNat)

/-- Marks the slots of a core whose knot wait an update satisfies; a wait once satisfied stays satisfied (R194). -/
def markSlots (i : Nat) (v : Word64) (c : Core) : Core :=
  { c with slots := c.slots.map fun x =>
      let y := if decide (wfld x.words 3 15 0 = i) && decide ((x.words.getD 4 0).toNat ≤ v.toNat) then { x with knotMet := true } else x
      if waitsFor i v x then { y with pos := 1 } else y }

/-- One update applied atomically (R194). -/
def applyKnot (s : State) (i : Nat) (set : Bool) (v : Word64) : State :=
  let w := knotNew (knotOf s i) set v
  { s with knots := tput s.knots i w, cores := s.cores.map fun p => (p.1, markSlots i w p.2) }

/-- Head of the knots block's queue applied (R194). An update sent by another part is answered once applied (R195). -/
def knotStep (s : State) : State :=
  match s.knotQ with
  | [] => s
  | k :: r =>
    let s1 := applyKnot { s with knotQ := r } k.idx k.set k.value
    match k.src with
    | none => s1
    | some m => answerKept s1 m 0 []

/-- Every waiting update applied in order. -/
def drainKnots (s : State) : State := (List.range s.knotQ.length).foldl (fun t _ => knotStep t) s

/-- An update queued at the knots block. -/
def queueKnot (s : State) (i : Nat) (set : Bool) (v : Word64) : State :=
  { s with knotQ := s.knotQ ++ [{ idx := i, set := set, value := v }] }

/-- KNOT_UPDATE (R194): the knots block applies one update. -/
def execKnotUpdate (s : State) : Out := effect (awake knotStep) s

/-- Whether a knot lies in a loom's range (R256). -/
def knotInLoom (s : State) (l i : Nat) : Bool :=
  within i 1 (lvF s l 0x118 15 0) (lvF s l 0x11C 16 0)

end Sys2Proof.Machine
end

