-- ==== Sys2Proof/Machine/Reset.lean ====
section
/-! DEFINITION. Block-alone reset (R405-R408): the idle handshake, held keys, forced resets, and what a completed reset leaves. BLK_PWR_STATE shows the block's power, which a block reset does not change (DEDUCED, log entry 6). -/

namespace Sys2Proof.Machine

/-- Whether a page belongs to a disabled core (R4). -/
def deadPage (s : State) : Block → Bool
  | .core c => !coreEnabled s c
  | _ => false

/-- A write to register `o` of a block's page: a disabled core's page ignores writes and records them (R4, R433); a page that S5 gates loses them (R393). -/
def onBlock (b : Block) (o : Nat) (f : State → State) (s : State) : State :=
  if deadPage s b then accRefuse s (pageOf b + o) 0 else if asleep s (pageOf b) then s else f s

/-- Blocks that reset only with the part (R408). -/
def exemptBlock : Block → Bool
  | .chip => true
  | .pcm => true
  | .rst => true
  | .mbx => true
  | .fuse => true
  | _ => false

/-- Whether software may not ask for a reset of a block now (R408). -/
def resetRefused (s : State) (b : Block) : Bool :=
  exemptBlock b ||
  (match b with
   | .core c => (ownerOfPage s (coreKey c 0)).any fun l => decide (loomSt s l = 2) || decide (loomSt s l = 3)
   | .codec n => (ownerOfPage s (codecKey n 0)).any fun l => decide (loomSt s l = 2) || decide (loomSt s l = 3)
   | _ => false)

/-- A core without the work it has not begun to commit (R65, R67, R68): the array and both banks are free, and after an ATTN bank A is next (R55). -/
def dropWork (k : Core) : Core :=
  { k with arr := [], epiQ := [], attn := none, bankBusy := (false, false), nextBank := k.nextBank && k.attn.isNone
           slots := k.slots.filter Slot.committing }

/-- A core stopped where it stands, with only the operations that have begun their commit (R68, R220, R417). -/
def haltCore (k : Core) : Core := { dropWork k with stopReq := true, stopped := true }

/-- A core loses the work it has not begun to commit (R67). -/
def dropCore (s : State) (b : Block) : State :=
  match b with
  | .core c => setCore s c (dropWork (coreOf s c))
  | _ => s

/-- REQ written, by software or by the part (R405, R407): the timer starts; while the block is resetting the request waits; a request already pending stays. A core's operations that have not begun their commit abort (R67). -/
def idleReq (s : State) (b : Block) (own : Bool) : State :=
  let p := pageOf b
  let k := blkOf s p
  if k.resetting then setBlk s p { k with again := true }
  else if k.pending then s
  else dropCore (wrB (setBlk s p { k with pending := true, timerAt := s.time, ownReq := own }) (p + 0x20) 0 true) b

/-- The reset key takes effect (R405, R435). -/
def startReset (s : State) (b : Block) (forced : Bool) : State :=
  let p := pageOf b
  setBlk s p { blkOf s p with resetting := true, keyHeld := false, forced := forced }

/-- The key written (R405): held until the block is idle; without a prior REQ it acts as REQ first. -/
def writeKey (s : State) (b : Block) (own : Bool) : State :=
  let p := pageOf b
  let s1 := idleReq s b own
  if (blkOf s p).resetting then s1
  else if fbit (rd s1 (p + 0x24)) 0 then startReset s1 b false
  else setBlk s1 p { blkOf s1 p with keyHeld := true }

/-- The part's own idle-then-reset of a block (R218, R264, R393, R404). -/
def ownReset (s : State) (b : Block) : State := writeKey s b true

/-- Whether an operation of a core made an outstanding request. -/
def fromCore (c : Nat) (o : OutReq) : Bool :=
  match o.origin with
  | .op x _ => decide (x = c)
  | .unit w _ _ _ _ => decide (w.typ = 0x040) && decide (w.inst = c)
  | _ => false

/-- Remote accesses of some units forgotten, with their answers: late responses are discarded (R322). -/
def dropUnits (s : State) (p : Who → Bool) : State :=
  { s with router := { s.router with
      replies := s.router.replies.filter fun r => !p r.who
      out := s.router.out.filter fun o => match o.origin with
        | .unit w _ _ _ _ => !p w
        | _ => true } }

/-- A core as the unit that makes an access for its operation `i`. -/
def coreWho (c i : Nat) : Who := ⟨0x040, c, i⟩

/-- Requests of an operation forgotten, with their answers. -/
def dropOpOuts (s : State) (c i : Nat) : State :=
  let t := dropUnits s fun w => decide (w = coreWho c i)
  { t with router := { t.router with out := t.router.out.filter fun o =>
      match o.origin with
      | .op x j => !(decide (x = c) && decide (j = i))
      | _ => true } }

/-- Requests of a core's operations forgotten, with their answers. -/
def dropCoreOuts (s : State) (c : Nat) : State :=
  let t := dropUnits s fun w => decide (w.typ = 0x040) && decide (w.inst = c)
  { t with router := { t.router with out := t.router.out.filter fun o => !fromCore c o } }

/-- Whether an outstanding request is a block's own access. -/
def fromBlock (b : Block) (o : OutReq) : Bool :=
  match o.origin with
  | .unit w _ _ _ _ => unitOf b w
  | _ => false

/-- Whether a block has completed its outstanding requests (R405): a core also its begun commits, the router every request of the part. -/
def blockQuiet (s : State) (b : Block) : Bool :=
  match b with
  | .core c => (coreOf s c).slots.all (fun x => !x.committing && decide (x.waiting = 0)) && !s.router.out.any (fromCore c)
  | .tap => s.router.out.isEmpty
  | _ => !s.router.out.any (fromBlock b)

-- ## Collectives (R333, R337, R346)

/-- Element bytes of a collective (R335). -/
def collElem (r : CollRun) : Nat := 2 ^ r.opn.elem.toNat

/-- Members' counts. -/
def collCount (r : CollRun) (i : Nat) : Nat := match r.members[i]? with
  | some m => m.2.2.1
  | none => 0

/-- OFF_i: elements before rank i (R333). -/
def collOff (r : CollRun) (i : Nat) : Nat := ((List.range i).map (collCount r)).sum

/-- TOTAL (R333). -/
def collTotal (r : CollRun) : Nat := collOff r r.members.length

/-- Bytes of SRC and DST a member touches (R337). -/
def collSpans (r : CollRun) : Nat × Nat :=
  let es := collElem r
  let n := r.opn.nElem * es
  if r.opcode = 0x40 then (n, n)
  else if r.opcode = 0x46 then (n, if r.rank = r.opn.root then n else 0)
  else if r.opcode = 0x41 then (collTotal r * es, collCount r r.rank * es)
  else if r.opcode = 0x42 then (collCount r r.rank * es, collTotal r * es)
  else if r.opcode = 0x43 then (collTotal r * es, r.members.length * collCount r r.rank * es)
  else if r.opcode = 0x44 then (if r.rank = r.opn.root then n else 0, n)
  else (0, 0)

/-- The ranges a collective writes at this member (R337, R342). -/
def dstRanges (r : CollRun) : List (Nat × Nat) :=
  if r.opcode = 0x45 then (r.moves.filter fun m => decide (m.2.1 = r.rank)).map fun m => (r.dst + m.2.2.2.1, m.2.2.2.2)
  else [(r.dst, (collSpans r).2)]

/-- Bytes in memory that a loom may write left undefined (R346): free values (log entry 14). -/
def spoil (s : State) (l : Nat) (rs : List (Nat × Nat)) : State :=
  { s with
    mem := rs.foldl (fun m p => (List.range p.2).foldl (fun m i =>
      if allowed s l (p.1 + i) 1 true && !isTap (p.1 + i) && holdsData (placeOf s (p.1 + i)) then cput m (p.1 + i) (Config.freeByte s.freeCtr (p.1 + i)) else m) m) s.mem
    freeCtr := s.freeCtr + 1 }
where
  /-- Whether bytes of local memory lie at a place. -/
  holdsData : Place → Bool
    | .dram _ _ => true
    | .pool _ _ => true
    | .scratch _ _ => true
    | _ => false

/-- A collective's members other than the one at `dev`, `loom`. -/
def collPartners (r : CollRun) : List (Nat × Nat) :=
  (r.members.filter fun m => !(decide (m.1 = r.dev) && decide (m.2.1 = r.loom))).map fun m => (m.1, m.2.1)

/-- The tags of a group's abort record with one more: the newest 256 (R346). -/
def abortTags (ts : List Word32) (t : Word32) : List Word32 := (t :: ts.filter (· ≠ t)).take 256

/-- An abort recorded (R346): 64 groups, the group with the oldest newest record drops out. -/
def recordAbort (s : State) (g t : Word32) : State :=
  let old := (s.coll.aborts.find? fun a => decide (a.1 = g)).map Prod.snd
  { s with coll := { s.coll with aborts := ((g, abortTags (old.getD []) t) :: s.coll.aborts.filter fun a => decide (a.1 ≠ g)).take 64 } }

/-- The abort of a collective (R346): it is recorded, an ABORT goes to every member, the count rises, and what it writes at this member is undefined. -/
def collKill (s0 : State) (r : CollRun) : State :=
  let key : CollKey := { fromDev := BitVec.ofNat 14 r.dev, loom := Fin.ofNat 32 r.loom, group := r.group, tag := r.tag }
  let s := recordAbort (dropUnits s0 fun w => decide (w = ⟨0x061, 0, r.core * 65536 + r.idx⟩)) r.group r.tag
  let c := s.coll
  let s1 := { s with coll := { c with
    runs := c.runs.filter fun x => !(decide (x.core = r.core) && decide (x.idx = r.idx) && decide (x.tag = r.tag))
    sentAbort := c.sentAbort ++ (collPartners r).map fun m => (m.1, key) } }
  addCnt (spoil s1 r.loom (dstRanges r)) (tapKey 0x288) 1

/-- Every collective issued by a core aborted (R346). -/
def collKillCore (s : State) (c : Nat) : State :=
  (s.coll.runs.filter fun r => decide (r.core = c)).foldl collKill s

/-- An event of a codec channel (R374): INFO0 the channel. -/
def codecEvent (s : State) (n typ info : Nat) : State :=
  produce s (codecOf s n).loom typ 0x070 n (BitVec.ofNat 64 n) (BitVec.ofNat 64 info)

/-- Whether a session record gangs its channel (R356, R358). -/
def sessGang (b : List Byte) : Bool := bitOf (byteAt b 0) 2

/-- Leader of a channel's gang (R356). -/
def leaderOf (n : Nat) : Nat := n / 4 * 4

/-- Whether a channel is a member of a gang that works now (R356). -/
def ganged (s : State) (n : Nat) : Bool := (codecOf s (leaderOf n)).session.any sessGang

/-- Whether a channel is paused (R372): at S4, its slice in progress finished. -/
def codecPaused (s : State) (n : Nat) : Bool :=
  decide (4 ≤ shedLevel s) && !(codecOf s (if ganged s n then leaderOf n else n)).made

/-- What a completed reset does to the state behind a block's registers (R373, R397, R407). A core that ran a bolt counts as stopped in it. -/
def clearBlock (s : State) (b : Block) : State :=
  match b with
  | .core c =>
    let k := coreOf s c
    let s1 := collKillCore s c
    setCore (dropCoreOuts s1 c) c { bolt := k.bolt, stopped := k.bolt.isSome, stoppedAt := s.time, stopReq := k.bolt.isSome, done := k.done, retired := k.retired }
  | .codec n =>
    let k := codecOf s n
    let s1 := if k.session.isSome then codecEvent s n 0x102 1 else s
    let gang := k.session.any sessGang
    let s2 := if gang then (List.range 4).foldl (fun t i => wrF t (codecKey (n.val / 4 * 4 + i) 0x100) 7 3 0) s1 else s1
    setCodec s2 n {}
  | .wfp p => setLink (setLink s (2 * p) {}) (2 * p + 1) {}
  | .tap => { s with router := {}, coh := {}, coll := {} }
  | .region r => setRegion s r {}
  | .drc st => setStack s st { stackOf s st with bucket := [], debt := [], served := [], recent := [] }
  | .loom l => { setLoom s l {} with live := s.live.filter fun p => decide (p.1 / 0x1000 ≠ 0x50 + l.val) }
  | .pcie => { s with board := { s.board with msixEn := 0 }, posted := [] }
  | _ => s

/-- A reset completes (R407): registers at reset values but BLK_LOOM and BLK_RESET_STAT, REQ and IDLE clear, DONE and COUNT, FORCED as it was; a request that came meanwhile starts. Registers that reset only with the part stay: the event controller's (R446), the telemetry page's (R447) and TAP_DEV_ID (R309). -/
def finishReset (s : State) (b : Block) : State :=
  let p := pageOf b
  let k := blkOf s p
  let own := rd s (p + 0x34)
  let st := rd s (p + 0x2C)
  let pw := rd s (p + 0x38)
  let stays : Nat → Bool := fun o => match b with
    | .evc => decide (0x100 ≤ o)
    | .tlm => decide (0x100 ≤ o)
    | .tap => decide (o = 0x100)
    | _ => false
  let s0 := dropUnits (clearBlock s b) (unitOf b)
  let s1 := wr { s0 with regs := s0.regs.filter fun x => decide (x.1 < p) || decide (p + 0x1000 ≤ x.1) || stays (x.1 - p) } (p + 0x38) pw
  let st1 := setFld (setBit (setBit st 0 true) 1 k.forced) 31 16 ((fld st 31 16 + 1) % 65536)
  let s2 := wr (wr s1 (p + 0x34) own) (p + 0x2C) st1
  let s3 := setBlk s2 p {}
  if k.again then idleReq s3 b k.ownReq else s3

/-- BLK_IDLE_REQ (R4, R405, R408). -/
def execBlkIdleReq (b : Block) (s : State) : Out :=
  effect (onBlock b 0x20 fun s => if resetRefused s b then s else idleReq s b false) s

/-- BLOCK_IDLE (R405): once its requests have completed the block reads IDLE, and a held key takes effect. -/
def execBlockIdle (b : Block) (s : State) : Out :=
  effect (fun s =>
    let p := pageOf b
    let k := blkOf s p
    if k.pending && !k.resetting && blockQuiet s b then
      let s1 := wrB s (p + 0x24) 0 true
      if k.keyHeld then startReset s1 b false else s1
    else s) s

/-- BLK_RESET written (R405, R408): only 0x0000_00A5 has an effect. -/
def opResetKey (s : State) (b : Block) (key : Word32) : State :=
  if resetRefused s b || decide (key ≠ 0xA5) then s else writeKey s b false

/-- BLK_RESET_KEY (R4, R405, R408, R435). -/
def execBlkResetKey (b : Block) (key : Word32) (s : State) : Out :=
  effect (onBlock b 0x28 (onPage (pageOf b) 0x28 fun s => opResetKey s b key)) s

/-- A forced reset of a core discards its array state and both banks at once, and cuts off its commits (R67, R89). -/
def cutOff (s : State) (b : Block) : State :=
  match b with
  | .core c => memZero (setCore s c { dropWork (coreOf s c) with slots := [] }) (0x10000000000 + c * 0x2000000 + 0x1800000) 0x400000
  | _ => s

/-- IDLE_TIMEOUT (R405, R406): the timer expires before IDLE sets and the reset is forced. -/
def execIdleTimeout (b : Block) (s : State) : Out :=
  effect (fun s =>
    let p := pageOf b
    let k := blkOf s p
    if k.pending && !k.resetting && !fbit (rd s (p + 0x24)) 0 &&
       elapsedUs s.time k.timerAt (rdF s (rstKey 0x10C) 19 0) then
      addCnt (startReset (cutOff s b) b true) (rstKey 0x114) 1
    else s) s

/-- BLOCK_RESET_DONE (R407). -/
def execBlockResetDone (b : Block) (s : State) : Out :=
  effect (fun s => if (blkOf s (pageOf b)).resetting then finishReset s b else s) s

end Sys2Proof.Machine
end

