-- ==== Sys2Proof/Machine/BoltBase.lean ====
section
/-! DEFINITION. Reading a stored bolt: header, descriptors, stage, shed-point and live-range tables (R210-R212, R243, R244), and where a core stands in it (R68, R176). -/

namespace Sys2Proof.Machine

/-- Cores of a bolt's stages. -/
def boltCores (b : Bolt) : List Nat := b.stages.flatMap Stage.cores

/-- The core set of a bolt: stage cores and spares (R211). -/
def boltSet (b : Bolt) : List Nat := b.stages.flatMap fun g => g.cores ++ g.spares

/-- Address of a stored bolt's byte `o` (R215, R280). -/
def storeAt (b : Bolt) (o : Nat) : Nat := 0x1790000000 + b.unit * 65536 + o

/-- Header field of a stored bolt. -/
def hdr (s : State) (b : Bolt) (o n : Nat) : Nat := leNat (memRd s (storeAt b o) n)

/-- Number of operations of a stored bolt (R210). -/
def boltOps (s : State) (b : Bolt) : Nat := hdr s b 4 4

/-- The sixteen words of descriptor `i` of a stored bolt (R212). -/
def descWords (s : State) (b : Bolt) (i : Nat) : List Word32 := bytesToWords 16 (memRd s (storeAt b (256 + 64 * i)) 64)

/-- Opcode of a descriptor (R212). -/
def opcode (ws : List Word32) : Nat := wfld ws 0 7 0

/-- Stage selector of descriptor `i` of a stored bolt. -/
def descStage (s : State) (b : Bolt) (i : Nat) : Nat := leNat (memRd s (storeAt b (256 + 64 * i + 2)) 2)

/-- The entry and bolt a core runs. -/
def coreBolt (s : State) (c : Nat) : Option (Entry × Bolt) :=
  match (coreOf s c).bolt with
  | none => none
  | some (r, q) =>
    match s.entries.find? fun e => decide (e.ring = r) && decide (e.seq = q) with
    | some e => e.bolt.map fun b => (e, b)
    | none => none

/-- Stage selector of a core (R197). -/
def coreStage (s : State) (c : Nat) : Nat := rdF s (coreKey c 0x104) 15 0

/-- Rank of a core in its stage (R197). -/
def coreRank (s : State) (c : Nat) : Nat := rdF s (coreKey c 0x104) 24 16

/-- A shed-point record (R243). -/
structure ShedRec where
  op : Nat
  stage : Nat
  liveCnt : Nat
  liveIdx : Nat
  dist : Nat
  deriving DecidableEq, Repr

/-- A shed-point record read from 16 bytes. -/
def shedOf (bs : List Byte) : ShedRec :=
  { op := fieldLe bs 0 4, stage := fieldLe bs 4 2, liveCnt := fieldLe bs 6 2, liveIdx := fieldLe bs 8 4, dist := fieldLe bs 12 4 }

/-- The shed points of a stage of a stored bolt, in order (R243). -/
def stageSheds (s : State) (b : Bolt) (sel : Nat) : List ShedRec :=
  ((List.range (hdr s b 40 4)).map fun i => shedOf (memRd s (storeAt b (hdr s b 36 4 + 16 * i)) 16)).filter
    fun r => decide (r.stage = sel)

/-- Whether a core has reached the shed point after operation `i`: every operation of its stage up to `i` has completed (R68). -/
def reached (s : State) (c : Nat) (b : Bolt) (i : Nat) : Bool :=
  let sel := coreStage s c
  let k := coreOf s c
  (List.range (min (i + 1) (boltOps s b))).all fun j => decide (descStage s b j ≠ sel) || k.done.contains j

/-- The next shed point of a core: the lowest it has not reached, as an index into its stage's records (R68). -/
def nextShed (s : State) (c : Nat) : Nat :=
  match coreBolt s c with
  | none => 0
  | some (_, b) =>
    let rs := stageSheds s b (coreStage s c)
    ((List.range rs.length).find? fun n => match rs[n]? with
      | some r => !reached s c b r.op
      | none => false).getD (rs.length - 1)

/-- Operation index after which a stopping core stops (R68): the bolt end when its stage has no record. -/
def stopOp (s : State) (c : Nat) (b : Bolt) : Nat :=
  match (stageSheds s b (coreStage s c))[(coreOf s c).stopAt]? with
  | some r => r.op
  | none => boltOps s b

/-- Whether an opcode works on the array (R175). -/
def isArrayOp (ws : List Word32) : Bool := decide (opcode ws = 0x01) || decide (opcode ws = 0x02) || decide (opcode ws = 0x08)

/-- An array operation taken off the array before its commit (R67, R68): its banks are free again, and after an ATTN bank A is next (R55). -/
def offArray (k : Core) (i : Nat) : Core :=
  let mine := fun (p : Nat × Nat × Option Bool) => decide (p.1 = i)
  let held := fun (b : Bool) => k.epiQ.any (fun p => mine p && decide (p.2.2 = some b)) || k.arr.any fun a => decide (a.op = i) && decide (0 < a.pass) && decide (a.bank = b)
  let attn := k.attn.any fun a => decide (a.op = i)
  { k with arr := k.arr.filter fun a => decide (a.op ≠ i)
           epiQ := k.epiQ.filter fun p => !mine p
           bankBusy := (k.bankBusy.1 && !held false, k.bankBusy.2 && !held true)
           nextBank := k.nextBank && !attn
           attn := if attn then none else k.attn }

/-- Array operations beyond the shed point that a core must stop at are abandoned: they are no longer issued and run again from their start (R68). -/
def abandonBeyond (k : Core) (stop : Nat) : Core :=
  let late := fun (x : Slot) => x.issued && !x.committing && isArrayOp x.words && decide (stop < x.idx)
  let k1 := (k.slots.filter late).foldl (fun k x => offArray k x.idx) k
  { k1 with slots := k1.slots.map fun x =>
      if late x then { x with issued := false, got := [], ents := [], waiting := 0, pos := 0, flags := 0, grange := false, fmasked := false } else x }

/-- Live ranges of a shed point: scratchpad byte address and length (R244). -/
def liveRanges (s : State) (b : Bolt) (r : ShedRec) : List (Nat × Nat) :=
  (List.range r.liveCnt).map fun i =>
    let a := storeAt b (hdr s b 44 4 + 8 * (r.liveIdx + i))
    ((leNat (memRd s a 3)) % 2 ^ 18 * 128, leNat (memRd s (a + 4) 4) * 128)

/-- Clock of an operating point in MHz (R381). -/
def opMhz (p : Nat) : Nat := [1800, 1650, 1500, 1350, 1200, 900, 600, 400].getD p 400

/-- Core voltage of an operating point in mV (R381). -/
def opMv (p : Nat) : Nat := [950, 900, 850, 800, 760, 680, 600, 550].getD p 550

/-- Cycles that a core of region `r` runs in one tick of 51.2 ns, in 1/20,000 of a cycle (R381, R388). -/
def tickCycles (s : State) (r : Nat) : Nat :=
  512 * opMhz (rdF s (regionKey r 0x104) 2 0) * (if (regionOf s r).droop then 1 else 2)

/-- Own cycles of a core since its stop request (R250). -/
def ranSince (k : Core) : Nat := k.stopRan / 20000

end Sys2Proof.Machine
end

