-- ==== Sys2Proof/Machine/Flags.lean ====
section
/-! DEFINITION. Exact values, the six floating-point flags and every rounding of 02_numerics (R27, R30-R32, R36, R38, R39, R41, R43): an operation computes exactly and then rounds once, raising its flags. -/

namespace Sys2Proof.Machine

/-- A value in exact form: NaN, ±infinity, or ±m × 2^e. A zero keeps its sign. -/
inductive FVal where
  | nan
  | inf (neg : Bool)
  | fin (neg : Bool) (m : Nat) (e : Int)
  deriving DecidableEq, Repr

/-- A computation that raises flags: INVALID, DIVZERO, OVERFLOW, UNDERFLOW, INEXACT, NAN_IN from bit 0 on (R43). -/
abbrev FM := StateM (BitVec 6)

/-- Flags raised. -/
def raiseFp (f : BitVec 6) : FM Unit := modify (· ||| f)

/-- INVALID. -/
def fInvalid : BitVec 6 := 1
/-- DIVZERO. -/
def fDivZero : BitVec 6 := 2
/-- OVERFLOW. -/
def fOverflow : BitVec 6 := 4
/-- UNDERFLOW. -/
def fUnderflow : BitVec 6 := 8
/-- INEXACT. -/
def fInexact : BitVec 6 := 16
/-- NAN_IN. -/
def fNanIn : BitVec 6 := 32

/-- Positive zero. -/
def fZero : FVal := .fin false 0 0

/-- One. -/
def fOne : FVal := .fin false 1 0

/-- Whether a value is a NaN. -/
def isNan : FVal → Bool
  | .nan => true
  | _ => false

/-- Whether a value is a zero. -/
def isZero : FVal → Bool
  | .fin _ m _ => decide (m = 0)
  | _ => false

/-- Sign bit. -/
def isNeg : FVal → Bool
  | .nan => false
  | .inf s => s
  | .fin s _ _ => s

/-- Sign reversed. -/
def fNeg : FVal → FVal
  | .nan => .nan
  | .inf s => .inf (!s)
  | .fin s m e => .fin (!s) m e

/-- Magnitude. -/
def fAbs : FVal → FVal
  | .nan => .nan
  | .inf _ => .inf false
  | .fin _ m e => .fin false m e

/-- `m × 2^k` for a non-negative `k`. -/
def shl (m : Nat) (k : Int) : Nat := m * 2 ^ k.toNat

/-- A finite value as an integer multiple of 2^e. -/
def scaledInt (s : Bool) (m : Nat) (k : Int) : Int := if s then -(shl m k : Int) else (shl m k : Int)

/-- Value of an integer multiple of 2^e; an exact zero is +0 (R34). -/
def ofScaled (v : Int) (e : Int) : FVal := if v = 0 then fZero else .fin (decide (v < 0)) v.natAbs e

/-- Exact sum of finite values; opposite values give +0, two zeros of one sign keep it. -/
def exactAdd (a b : FVal) : FVal :=
  match a, b with
  | .fin sa ma ea, .fin sb mb eb =>
    if ma = 0 ∧ mb = 0 then .fin (sa && sb) 0 0
    else if ma = 0 then .fin sb mb eb
    else if mb = 0 then .fin sa ma ea
    else ofScaled (scaledInt sa ma (ea - min ea eb) + scaledInt sb mb (eb - min ea eb)) (min ea eb)
  | _, _ => .nan

/-- Exact product of finite values. -/
def exactMul (a b : FVal) : FVal :=
  match a, b with
  | .fin sa ma ea, .fin sb mb eb => .fin (sa != sb) (ma * mb) (ea + eb)
  | _, _ => .nan

/-- Comparison of finite or infinite values: −1, 0, 1; −0 equals +0. -/
def fCmp (a b : FVal) : Int :=
  match a, b with
  | .inf s, .inf t => if s = t then 0 else if s then -1 else 1
  | .inf s, _ => if s then -1 else 1
  | _, .inf t => if t then 1 else -1
  | .fin sa ma ea, .fin sb mb eb =>
    let d := scaledInt sa ma (ea - min ea eb) - scaledInt sb mb (eb - min ea eb)
    if d < 0 then -1 else if d = 0 then 0 else 1
  | _, _ => 0

/-- `a < b` with −0 below +0 (R116, R338). -/
def fLess (a b : FVal) : Bool :=
  let c := fCmp a b
  decide (c < 0) || (decide (c = 0) && isZero a && isZero b && isNeg a && !isNeg b)

-- ## Formats (R25) and rounding (R38, R39, R41)

/-- A floating format: mantissa bits, exponent of the smallest normal, largest finite value `maxM × 2^maxE`, and whether it has infinities. -/
structure FSpec where
  eb : Nat
  mb : Nat
  bias : Int
  maxM : Nat
  maxE : Int
  hasInf : Bool
  deriving DecidableEq, Repr

/-- The floating formats by code (R25); MX codes give their element format. -/
def fspec (code : Nat) : FSpec :=
  match code with
  | 0 => ⟨8, 23, 127, 16777215, 104, true⟩
  | 1 => ⟨8, 7, 127, 255, 120, true⟩
  | 2 => ⟨5, 10, 15, 2047, 5, true⟩
  | 3 => ⟨4, 3, 7, 14, 5, false⟩
  | 4 => ⟨5, 2, 15, 7, 13, true⟩
  | 5 => ⟨4, 3, 7, 14, 5, false⟩
  | 6 => ⟨5, 2, 15, 7, 13, true⟩
  | 7 => ⟨3, 2, 3, 7, 2, false⟩
  | 8 => ⟨2, 3, 1, 15, -1, false⟩
  | 9 => ⟨2, 1, 1, 3, 1, false⟩
  | _ => ⟨8, 23, 127, 16777215, 104, true⟩

/-- Bits of one stored element (R25, R28). -/
def elemBits (code : Nat) : Nat :=
  if code = 0 ∨ code = 0xB then 32
  else if code = 1 ∨ code = 2 then 16
  else if code = 7 ∨ code = 8 then 6
  else if code = 9 then 4 else 8

/-- Whether a format code is an MX format. -/
def isMx (code : Nat) : Bool := decide (5 ≤ code) && decide (code ≤ 9)

/-- Whether a format code is an integer format. -/
def isInt (code : Nat) : Bool := decide (0xA ≤ code) && decide (code ≤ 0xC)

/-- Bytes of `n` packed elements. -/
def rowBytes (code n : Nat) : Nat := cdiv (n * elemBits code) 8

/-- FP32. -/
def fp32 : FSpec := fspec 0

/-- Exponent of the smallest normal. -/
def FSpec.emin (f : FSpec) : Int := 1 - f.bias

/-- Rounding modes (R38); SR carries the 32 random bits of the element (R39). -/
inductive Rnd where
  | rne
  | rtz
  | sr (r : Nat)
  deriving DecidableEq, Repr

/-- A significand and remainder rounded: whether the magnitude moves away from zero. `r` is what is cut off below one unit of `2^shift`, `more` tells of bits beyond. -/
def roundsUp (rm : Rnd) (q r shift : Nat) (more : Bool) : Bool :=
  match rm with
  | .rtz => false
  | .rne =>
    if shift = 0 then false
    else
      let half := 2 ^ (shift - 1)
      decide (half < r) || (decide (r = half) && (more || decide (q % 2 = 1)))
  | .sr x => decide (x < r * 4294967296 / 2 ^ shift)

/-- Magnitude `m × 2^e` (with further bits below when `more`) rounded to a format with unbounded exponent above: significand, its exponent, and whether it is inexact. -/
def roundMag (f : FSpec) (rm : Rnd) (m : Nat) (e : Int) (more : Bool) : Nat × Int × Bool :=
  let u := max ((Nat.log2 m : Int) + e) f.emin - f.mb
  if u ≤ e then (shl m (e - u), u, more)
  else
    let k := (u - e).toNat
    let q := m / 2 ^ k
    let r := m % 2 ^ k
    (q + b2n (roundsUp rm q r k more), u, decide (r ≠ 0) || more)

/-- Whether `m × 2^e` exceeds the largest finite value of a format. -/
def beyondMax (f : FSpec) (m : Nat) (e : Int) : Bool :=
  decide (shl f.maxM (f.maxE - min f.maxE e) < shl m (e - min f.maxE e))

/-- Whether a non-zero `m × 2^e` lies below the smallest normal of a format. -/
def belowNormal (f : FSpec) (m : Nat) (e : Int) : Bool :=
  decide (shl m (e - min e f.emin) < shl 1 (f.emin - min e f.emin))

/-- Controls of one rounding point: mode, SATFINITE, FTZ (R36, R37). -/
structure RCtl where
  rm : Rnd := .rne
  sat : Bool := false
  ftz : Bool := false
  deriving DecidableEq, Repr

/-- An exact finite value rounded to a format, with its flags (R38, R41, R36). -/
def roundFin (f : FSpec) (c : RCtl) (s : Bool) (m : Nat) (e : Int) (more : Bool) : FM FVal := do
  if m = 0 && !more then pure (.fin s 0 0)
  else
    let (q, u, inx) := roundMag f c.rm m e more
    if beyondMax f q u then
      raiseFp (fOverflow ||| fInexact)
      pure (if c.sat || !f.hasInf || decide (c.rm = .rtz) then .fin s f.maxM f.maxE else .inf s)
    else
      if inx then raiseFp fInexact
      if (q = 0 || belowNormal f q u) then
        if c.ftz then
          raiseFp (fUnderflow ||| fInexact)
          pure (.fin s 0 0)
        else
          if inx then raiseFp fUnderflow
          pure (.fin s q u)
      else pure (.fin s q u)

/-- An exact value rounded to a format; NaN and infinities pass (infinities of FP32 arithmetic are not rounded). -/
def roundTo (f : FSpec) (c : RCtl) (x : FVal) : FM FVal :=
  match x with
  | .fin s m e => roundFin f c s m e false
  | y => pure y

-- ## FP32 arithmetic with one rounding (R30, R31, R115)

/-- Addition. -/
def fAdd (c : RCtl) (a b : FVal) : FM FVal :=
  match a, b with
  | .nan, _ => pure .nan
  | _, .nan => pure .nan
  | .inf s, .inf t => if s = t then pure (.inf s) else do raiseFp fInvalid; pure .nan
  | .inf s, _ => pure (.inf s)
  | _, .inf t => pure (.inf t)
  | x, y => roundTo fp32 c (exactAdd x y)

/-- Subtraction. -/
def fSub (c : RCtl) (a b : FVal) : FM FVal := fAdd c a (fNeg b)

/-- The exact product, or NaN with INVALID for 0 × infinity. -/
def mulTerm (a b : FVal) : FM FVal :=
  match a, b with
  | .nan, _ => pure .nan
  | _, .nan => pure .nan
  | .inf s, y => if isZero y then do raiseFp fInvalid; pure .nan else pure (.inf (s != isNeg y))
  | x, .inf t => if isZero x then do raiseFp fInvalid; pure .nan else pure (.inf (isNeg x != t))
  | x, y => pure (exactMul x y)

/-- Multiplication. -/
def fMul (c : RCtl) (a b : FVal) : FM FVal := do roundTo fp32 c (← mulTerm a b)

/-- An exact sum of terms that may be infinite or NaN. -/
def addTerm (a b : FVal) : FM FVal :=
  match a, b with
  | .nan, _ => pure .nan
  | _, .nan => pure .nan
  | .inf s, .inf t => if s = t then pure (.inf s) else do raiseFp fInvalid; pure .nan
  | .inf s, _ => pure (.inf s)
  | _, .inf t => pure (.inf t)
  | x, y => pure (exactAdd x y)

/-- Fused multiply-add: one rounding. A product 0 × infinity raises INVALID whatever the addend, a NaN addend too (R43; DESIGN CHOICE, log entry 44). -/
def fFma (c : RCtl) (a b d : FVal) : FM FVal := do roundTo fp32 c (← addTerm (← mulTerm a b) d)

/-- Integer square root by bits, from `2^k` down. -/
def isqrtFrom : Nat → Nat → Nat → Nat
  | 0, r, _ => r
  | k + 1, r, n => if (r + 2 ^ k) * (r + 2 ^ k) ≤ n then isqrtFrom k (r + 2 ^ k) n else isqrtFrom k r n

/-- Integer square root. -/
def isqrt (n : Nat) : Nat := isqrtFrom (Nat.log2 n / 2 + 1) 0 n

/-- Division, rounded once. A finite non-zero value over zero gives infinity with DIVZERO (R43). -/
def fDiv (c : RCtl) (a b : FVal) : FM FVal :=
  match a, b with
  | .nan, _ => pure .nan
  | _, .nan => pure .nan
  | .inf _, .inf _ => do raiseFp fInvalid; pure .nan
  | .inf s, y => pure (.inf (s != isNeg y))
  | x, .inf t => pure (.fin (isNeg x != t) 0 0)
  | .fin sa ma ea, .fin sb mb eb =>
    if mb = 0 then
      (if ma = 0 then do raiseFp fInvalid; pure .nan else do raiseFp fDivZero; pure (.inf (sa != sb)))
    else if ma = 0 then pure (.fin (sa != sb) 0 0)
    else
      let k := Nat.log2 mb + 64
      roundFin fp32 c (sa != sb) (ma * 2 ^ k / mb) (ea - eb - k) (decide (ma * 2 ^ k % mb ≠ 0))

/-- Square root, rounded once; −0 gives −0, a negative value NaN with INVALID. -/
def fSqrt (c : RCtl) (a : FVal) : FM FVal :=
  match a with
  | .nan => pure .nan
  | .inf s => if s then do raiseFp fInvalid; pure .nan else pure (.inf false)
  | .fin s m e =>
    if m = 0 then pure (.fin s 0 0)
    else if s then do raiseFp fInvalid; pure .nan
    else
      let odd := (e % 2).toNat
      let n := m * 2 ^ odd * 2 ^ 128
      let r := isqrt n
      roundFin fp32 c false r ((e - odd) / 2 - 64) (decide (r * r ≠ n))

/-- Product by a power of two, rounded to nearest even (R32). -/
def scalePow2 (x : FVal) (k : Int) : FM FVal :=
  match x with
  | .fin s m e => roundFin fp32 {} s m (e + k) false
  | y => pure y

/-- The larger value, −0 below +0; a NaN wins (R116). -/
def fMax (a b : FVal) : FVal := if isNan a || isNan b then .nan else if fLess a b then b else a

/-- The smaller value. -/
def fMin (a b : FVal) : FVal := if isNan a || isNan b then .nan else if fLess b a then b else a

/-- Runs a flagged computation from clear flags. -/
def runFM {α : Type} (x : FM α) : α × BitVec 6 := x.run 0

-- ## Stochastic rounding (R39)

/-- The 32 random bits of output element `e` under a seed (R39). -/
def srBits (seed e : Nat) : Nat :=
  let x0 : BitVec 64 := (BitVec.ofNat 64 seed <<< 32) ^^^ BitVec.ofNat 64 e
  let x1 := (x0 ^^^ (x0 >>> 30)) * 0xBF58476D1CE4E5B9
  let x2 := (x1 ^^^ (x1 >>> 27)) * 0x94D049BB133111EB
  ((x2 ^^^ (x2 >>> 31)) >>> 32).toNat

/-- The rounding mode of output element (m, n) of rows of width `w` (R37, R39, R40). -/
def rndOf (rnd seed w m n : Nat) : Rnd :=
  if rnd = 1 then .rtz else if rnd = 2 then .sr (srBits seed (m * w + n)) else .rne

-- ## Conversion (R41, R42)

/-- Conversion of an FP32 stage value to a floating format that is not MX (R41). -/
def convFloat (code : Nat) (c : RCtl) (x : FVal) : FM FVal :=
  let f := fspec code
  match x with
  | .nan => pure .nan
  | .inf s =>
    if f.hasInf && !(c.sat && decide (code ≠ 0)) then pure (.inf s)
    else do raiseFp fOverflow; pure (.fin s f.maxM f.maxE)
  | .fin s m e => roundFin f { c with sat := c.sat && decide (code ≠ 0) } s m e false

/-- Range of an integer format (R25). -/
def intRange (code : Nat) : Int × Int :=
  if code = 0xA then (-128, 127) else if code = 0xC then (0, 255) else (-(2 ^ 31), 2 ^ 31 - 1)

/-- Magnitude of a finite value rounded to an integer, and whether it is inexact. -/
def roundInt (rm : Rnd) (m : Nat) (e : Int) : Nat × Bool :=
  if 0 ≤ e then (shl m e, false)
  else
    let k := (-e).toNat
    let q := m / 2 ^ k
    let r := m % 2 ^ k
    (q + b2n (roundsUp rm q r k false), decide (r ≠ 0))

/-- Conversion to an integer format: rounded, then clamped (R41). -/
def convInt (code : Nat) (rm : Rnd) (x : FVal) : FM Int :=
  let (lo, hi) := intRange code
  match x with
  | .nan => do raiseFp fInvalid; pure 0
  | .inf s => do raiseFp fOverflow; pure (if s then lo else hi)
  | .fin s m e => do
    let (q, inx) := roundInt rm m e
    let v : Int := if s then -(q : Int) else q
    if v < lo then
      raiseFp (fOverflow ||| fInexact); pure lo
    else if hi < v then
      raiseFp (fOverflow ||| fInexact); pure hi
    else
      if inx then raiseFp fInexact
      pure v

/-- Element of an MX block: divided by the shared scale, rounded, saturated with INEXACT only (R42). -/
def convMxElem (code : Nat) (c : RCtl) (shared : Int) (x : FVal) : FM FVal :=
  match x with
  | .fin s m e => do
    let f := fspec code
    if m = 0 then pure (.fin s 0 0)
    else
      let (q, u, _) := roundMag f c.rm m (e - shared) false
      if beyondMax f q u then
        raiseFp fInexact; pure (.fin s f.maxM f.maxE)
      else roundFin f { c with sat := true } s m (e - shared) false
  | y => pure y

/-- Largest power of two of a format's finite range (R42): emax. -/
def mxEmax (code : Nat) : Int := if code = 5 then 8 else if code = 6 then 15 else if code = 7 then 4 else 2

/-- floor(log2) of a finite non-zero magnitude. -/
def floorLog2 : FVal → Int
  | .fin _ m e => (Nat.log2 m : Int) + e
  | _ => 0

/-- Whether a value is an infinity. -/
def isInf : FVal → Bool
  | .inf _ => true
  | _ => false

/-- One MX output block (R41, R42): scale code and elements. An infinity raises OVERFLOW, also in a block that a NaN makes NaN. -/
def convMx (code : Nat) (c : Nat → RCtl) (xs : List FVal) : FM (Nat × List FVal) := do
  if xs.any isInf then raiseFp fOverflow
  if xs.any isNan || xs.any isInf then pure (255, xs.map fun _ => fZero)
  else
    let amax := xs.foldl (fun a x => fMax a (fAbs x)) fZero
    if isZero amax then pure (0, xs)
    else
      let sh := max (-127) (min 127 (floorLog2 amax - mxEmax code))
      let ys ← ((List.range xs.length).zip xs).mapM fun p => convMxElem code (c p.1) sh p.2
      pure ((sh + 127).toNat, ys)

end Sys2Proof.Machine
end

