-- ==== Sys2Proof/Machine/Arrays.lean ====
section
/-! DEFINITION. The scratchpad arrays that an operation reads and writes (R70, R86, R97, R114, R115, R124-R134, R137, R162-R167, R180, R184), used by the loader's alias and quota checks (R90, R91, R111) and by the commit interlocks (R88); and the window records of convolutions and pooling (R101-R104). -/

namespace Sys2Proof.Machine

/-- A scratchpad range: first byte and length. -/
abbrev Rng := Nat × Nat

/-- Whether two ranges share a byte. -/
def rngHit (a b : Rng) : Bool := overlaps a.1 a.2 b.1 b.2

/-- Byte address of an 18-bit scratchpad field at bit 0 of word `w` (R93, R114). -/
def spAt (ws : List Word32) (w : Nat) : Nat := wfld ws w 17 0 * 128

-- ## Window records (R101-R104)

/-- A window record (R103). Axis lists are in order d, h, w. -/
structure WinRec where
  dims : Nat
  transposed : Bool
  cb : Nat
  countPad : Bool
  cb0 : Nat
  cbCnt : Nat
  cbStride : Nat
  posStride : Nat
  inE : List Nat
  outE : List Nat
  ker : List Nat
  str : List Nat
  dil : List Nat
  padLo : List Nat
  padHi : List Nat
  oStart : Nat
  reservedOk : Bool
  deriving DecidableEq, Repr

/-- A window record read from 64 bytes (R103). -/
def winRecOf (b : List Byte) : WinRec :=
  let f := byteAt b 0
  { dims := f % 4, transposed := bitOf f 2, cb := if bitOf f 3 then 32 else 16, countPad := bitOf f 4
    cb0 := fieldLe b 2 2, cbCnt := fieldLe b 4 2, cbStride := fieldLe b 8 4, posStride := fieldLe b 12 4
    inE := [fieldLe b 16 2, fieldLe b 18 2, fieldLe b 20 2], outE := [fieldLe b 22 2, fieldLe b 24 2, fieldLe b 26 2]
    ker := [byteAt b 28, byteAt b 29, byteAt b 30], str := [byteAt b 32, byteAt b 33, byteAt b 34]
    dil := [byteAt b 36, byteAt b 37, byteAt b 38]
    padLo := [byteAt b 40, byteAt b 42, byteAt b 44], padHi := [byteAt b 41, byteAt b 43, byteAt b 45]
    oStart := fieldLe b 48 4
    reservedOk := decide (f < 32) && zeros b 1 2 && zeros b 6 8 && zeros b 31 32 && zeros b 35 36 && zeros b 39 40 &&
      zeros b 46 48 && zeros b 52 64 }

/-- Entry of an axis list. -/
def ax (l : List Nat) (i : Nat) : Nat := l.getD i 0

/-- Product of an axis list. -/
def vol (l : List Nat) : Nat := ax l 0 * ax l 1 * ax l 2

/-- Address of the window record a CONV or POOL of a stored bolt names; none beyond the table (R102, R133). -/
def winIdx (ws : List Word32) : Nat := if opcode ws = 0x02 then wfld ws 12 15 0 else wfld ws 15 15 0

/-- The window record of a descriptor of a stored bolt. -/
def winRec (s : State) (b : Bolt) (ws : List Word32) : WinRec :=
  winRecOf (memRd s (storeAt b (hdr s b 52 4 + 64 * winIdx ws)) 64)

/-- Bytes from the lowest to the highest that R101 can address, from the base on (R111), with strides `cs` and `ps` and `n` bytes at each position; a record without a position or a block addresses none. -/
def convSpan (w : WinRec) (base cs ps n : Nat) : Rng :=
  (base + w.cb0 * cs, if w.cbCnt = 0 ∨ vol w.inE = 0 then 0 else (w.cbCnt - 1) * cs + (vol w.inE - 1) * ps + n)

-- ## MATMUL and CONV (R70, R86, R93, R97)

/-- Whether a descriptor is a CONV. -/
def isConv (ws : List Word32) : Bool := decide (opcode ws = 0x02)

/-- A_PRO. -/
def mPro (ws : List Word32) : Nat := wfld ws 6 1 0
/-- Whether A is gathered (R74). -/
def mGather (ws : List Word32) : Bool := decide (mPro ws = 2)
/-- A_FMT. -/
def mAFmt (ws : List Word32) : Nat := wfld ws 5 7 4
/-- B_FMT. -/
def mBFmt (ws : List Word32) : Nat := wfld ws 5 11 8
/-- RES_FMT. -/
def mResFmt (ws : List Word32) : Nat := wfld ws 5 15 12
/-- OUT_FMT. -/
def mOutFmt (ws : List Word32) : Nat := wfld ws 5 19 16
/-- NUM_CTRL. -/
def mNum (ws : List Word32) : Nat := wfld ws 5 27 20
/-- ARGIDX. -/
def mArgIdx (ws : List Word32) : Bool := decide (wfld ws 5 3 3 = 1)
/-- RES_MODE. -/
def mResMode (ws : List Word32) : Nat := wfld ws 6 4 3
/-- WMODE. -/
def mWMode (ws : List Word32) : Nat := wfld ws 6 7 6
/-- DST. -/
def mDst (ws : List Word32) : Nat := wfld ws 6 9 8
/-- Extents M_VALID, N_VALID, K_VALID and their tile counts (R96). -/
def mM (ws : List Word32) : Nat := wfld ws 8 30 18
/-- N_VALID. -/
def mN (ws : List Word32) : Nat := wfld ws 9 30 18
/-- K_VALID. -/
def mK (ws : List Word32) : Nat := wfld ws 10 30 18
/-- M_TILES. -/
def mMT (ws : List Word32) : Nat := cdiv (mM ws) 128
/-- N_TILES. -/
def mNT (ws : List Word32) : Nat := cdiv (mN ws) 128
/-- K_TILES. -/
def mKT (ws : List Word32) : Nat := cdiv (mK ws) 128
/-- IDX_RANGE. -/
def mRange (ws : List Word32) : Nat := if isConv ws then 0 else wfld ws 12 31 18
/-- AUX_ADDR in bytes. -/
def mAux (ws : List Word32) : Nat := wfld ws 6 31 14 * 128
/-- Rows of the gather source or of stored tiles. -/
def mARows (ws : List Word32) : Nat := if mGather ws then mRange ws else mMT ws * 128

/-- Bytes of one stored output row (R70). -/
def mRow (ws : List Word32) : Nat := rowBytes (mOutFmt ws) (mNT ws * 128)

/-- Rows of the output array (R70, R82). -/
def mOutRows (ws : List Word32) : Nat := if mWMode ws = 1 then mRange ws else mMT ws * 128

/-- Whether AUX_ADDR is used (R93). -/
def mAuxUsed (ws : List Word32) : Bool := isMx (mOutFmt ws) || mArgIdx ws || decide (mWMode ws = 2)

/-- Bytes of one row of the auxiliary array of an MX or ARGIDX output. -/
def mAuxRow (ws : List Word32) : Nat := if isMx (mOutFmt ws) then mNT ws * 4 else if mArgIdx ws then mNT ws * 512 else 0

/-- Arrays a MATMUL or CONV reads, the residual last (R70, R74, R91, R98). -/
def matReads (ws : List Word32) (w : WinRec) : List Rng :=
  let a := spAt ws 8
  let es := elemBits (mAFmt ws) / 8
  let inA := if isConv ws then
      [convSpan w a w.cbStride w.posStride (w.cb * es)] ++
      (if isMx (mAFmt ws) then [convSpan w (spAt ws 10) (w.cbStride / 32) (w.posStride / 32) 1] else [])
    else
      [(a, rowBytes (mAFmt ws) (mARows ws * mKT ws * 128))] ++
      (if isMx (mAFmt ws) then [(spAt ws 10, mARows ws * mKT ws * 4)] else [])
  inA ++ [(spAt ws 9, rowBytes (mBFmt ws) (mKT ws * mNT ws * 16384))] ++
  (if isMx (mBFmt ws) then [(spAt ws 11, mKT ws * 4 * mNT ws * 128)] else []) ++
  (if mGather ws then [(spAt ws 12, 128 + 4 * mM ws)] else []) ++
  (if wfld ws 6 12 12 = 1 then [(wfld ws 11 31 18 * 2048, 2048)] else []) ++
  (if mResMode ws = 0 then [] else
    [(spAt ws 13, rowBytes (mResFmt ws) ((if wfld ws 6 5 5 = 1 then mRange ws else mMT ws * 128) * mNT ws * 128))])

/-- The output array in scratchpad, if any (R70, R87). -/
def matOut (ws : List Word32) : List Rng := if mDst ws = 0 then [(spAt ws 15, mOutRows ws * mRow ws)] else []

/-- The array at AUX_ADDR (R70, R86). -/
def matAux (ws : List Word32) : List Rng :=
  if !mAuxUsed ws then []
  else if mWMode ws = 2 then [(mAux ws, cdiv (mOutRows ws * mRow ws) 512 * 64)]
  else [(mAux ws, mOutRows ws * mAuxRow ws)]

/-- The staging buffer (R70). -/
def matStage (ws : List Word32) : Rng := (spAt ws 14, mMT ws * 128 * (mRow ws + mAuxRow ws))

-- ## Vector operations (R113-R115, R122-R134, R137)

/-- VOP. -/
def vVop (ws : List Word32) : Nat := wfld ws 5 7 0
/-- A_FMT. -/
def vAFmt (ws : List Word32) : Nat := wfld ws 5 11 8
/-- B_FMT. -/
def vBFmt (ws : List Word32) : Nat := wfld ws 5 15 12
/-- OUT_FMT. -/
def vOutFmt (ws : List Word32) : Nat := wfld ws 5 19 16
/-- NUM_CTRL. -/
def vNum (ws : List Word32) : Nat := wfld ws 5 27 20
/-- ROW_LEN. -/
def vLen (ws : List Word32) : Nat := wfld ws 6 16 0
/-- ROWS. -/
def vRows (ws : List Word32) : Nat := wfld ws 6 29 17
/-- OPTS bit by its number in word 12 (R113). -/
def vOpt (ws : List Word32) (i : Nat) : Bool := decide (wfld ws 12 i i = 1)
/-- PARAM. -/
def vParam (ws : List Word32) : Nat := (ws.getD 15 0).toNat

/-- Pitch in bytes of rows of `n` elements of `bits` bits (R114): a pitch of 0 means packed rows. -/
def pitchOf (field n bits : Nat) : Nat := if field = 0 then cdiv (n * bits) 1024 * 128 else field * 128

/-- Range of `rows` rows of `k` elements, at the pitch of rows of `n`. -/
def rowsOf (a field rows n k bits : Nat) : Rng := (a, if rows = 0 then 0 else (rows - 1) * pitchOf field n bits + cdiv (k * bits) 8)

/-- Range of `rows` rows of `n` elements. -/
def rowsRng (a field rows n bits : Nat) : Rng := rowsOf a field rows n n bits

/-- Elements written of an output row: one for REDUCE (R117), triples for NORM_MERGE (R128). The pitch is that of ROW_LEN elements (R114). -/
def vOutLen (ws : List Word32) : Nat := if opcode ws = 0x11 then 1 else vLen ws

/-- Bits of an A or OUT element: a NORM_MERGE element is a 16-byte triple (R127, R128). -/
def vBits (ws : List Word32) (fmt : Nat) : Nat := if opcode ws = 0x14 then 128 else elemBits fmt

/-- Whether a VEC reads B as an array (R113, R116). -/
def vecB (ws : List Word32) : Bool := decide (vVop ws ≤ 5) && !vOpt ws 19

/-- STATS of a NORM: 0 FULL, 1 PARTIAL, 2 APPLY (R113). -/
def nStats (ws : List Word32) : Nat := wfld ws 12 19 18

/-- GROUPS of a NORM, 0 unless VOP is GROUP. -/
def nGroups (ws : List Word32) : Nat := if vVop ws = 2 then wfld ws 12 29 22 + 1 else 0

/-- Triples of a NORM: one per row, or one per group (R127). -/
def nTriples (ws : List Word32) : Nat := if vVop ws = 2 then nGroups ws else vRows ws

/-- Pairs of a ROPE head (R122). -/
def ropePairs (ws : List Word32) : Nat := 32 * 2 ^ wfld ws 12 22 21

/-- The A array of a vector operation. -/
def vecARng (ws : List Word32) (w : WinRec) : List Rng :=
  if opcode ws = 0x16 then
    [convSpan w (spAt ws 8) w.cbStride w.posStride (w.cb * (elemBits (vAFmt ws) / 8))] ++
    (if isMx (vAFmt ws) then [convSpan w (spAt ws 9) (w.cbStride / 32) (w.posStride / 32) 1] else [])
  else [rowsRng (spAt ws 8) (wfld ws 8 31 18) (vRows ws) (vLen ws) (vBits ws (vAFmt ws))]

/-- The B array of VEC, DELTA_SELECT and OPTIM. -/
def vecBRng (ws : List Word32) : Rng :=
  rowsRng (spAt ws 9) (wfld ws 9 31 18) (if opcode ws = 0x10 ∧ vOpt ws 18 then 1 else vRows ws) (vLen ws) (elemBits (vBFmt ws))

/-- The output rows of a vector operation, if it has them. -/
def vecOutRng (ws : List Word32) : List Rng :=
  if opcode ws = 0x13 ∧ nStats ws = 1 then []
  else [rowsOf (spAt ws 10) (wfld ws 10 31 18) (if opcode ws = 0x14 then 1 else vRows ws) (vLen ws) (vOutLen ws) (vBits ws (vOutFmt ws))]

/-- Arrays a vector operation reads. -/
def vecReads (ws : List Word32) (w : WinRec) : List Rng :=
  let n := vRows ws
  let len := vLen ws
  vecARng ws w ++
  (match opcode ws with
   | 0x10 => (if vecB ws then [vecBRng ws] else []) ++ (if vVop ws = 3 then vecOutRng ws else []) ++
     (if vVop ws = 6 && isMx (vAFmt ws) then [(spAt ws 12, n * cdiv len 32)] else [])
   | 0x12 => if wfld ws 12 19 18 = 1 then [(spAt ws 11, n * cdiv len 128 * 16)] else []
   | 0x13 => (if nStats ws = 2 then [(spAt ws 11, 16 * nTriples ws)] else []) ++
     (if vOpt ws 30 then [(spAt ws 9, (ws.getD 14 0).toNat * 8 * len)] ++ (if vOpt ws 21 then [] else [(spAt ws 12, 4 * n)]) else [])
   | 0x15 => (if vOpt ws 20 then [(spAt ws 9, 4 * n)] else []) ++
     (if vOpt ws 18 then
       [(spAt ws 11, wfld ws 9 31 18 * wfld ws 14 7 0 * 8),
        (spAt ws 12, (wfld ws 13 15 0 * wfld ws 14 15 8 + wfld ws 13 31 16 * wfld ws 14 23 16) * 8)]
      else [(spAt ws 11, wfld ws 9 31 18 * ropePairs ws * 8)])
   | 0x17 => [vecBRng ws]
   | 0x18 => [vecBRng ws, (spAt ws 11, 4 * n * len)] ++ (if vVop ws = 0 then [(spAt ws 12, 4 * n * len)] else []) ++ [(spAt ws 15, 32)]
   | _ => [])

/-- Arrays a vector operation writes. -/
def vecWrites (ws : List Word32) : List Rng :=
  let n := vRows ws
  let len := vLen ws
  vecOutRng ws ++
  (match opcode ws with
   | 0x10 => if vVop ws = 6 && isMx (vOutFmt ws) then [(spAt ws 11, n * cdiv len 32)] else []
   | 0x11 => if vVop ws = 4 then [(spAt ws 11, 4 * n)] else []
   | 0x12 => if vOpt ws 20 then [(spAt ws 12, 8 * n)] else []
   | 0x13 => if nStats ws = 1 then [(spAt ws 11, 16 * nTriples ws)] else []
   | 0x17 => [vecBRng ws, (spAt ws 11, 128 + 4 * n)] ++ (if vOpt ws 18 then [(spAt ws 12, 4 * n)] else [])
   | 0x18 => [(spAt ws 11, 4 * n * len)] ++ (if vVop ws = 0 then [(spAt ws 12, 4 * n * len)] else [])
   | _ => [])

-- ## ATTN and KV_WRITE (R155, R161-R165, R167)

/-- HD_ROW (R155). -/
def hdRow (ws : List Word32) : Nat := if wfld ws 5 21 20 = 2 then 256 else 128

/-- Bytes of one position row of KV_FMT. -/
def kvRow (ws : List Word32) : Nat := rowBytes (wfld ws 5 7 4) (hdRow ws)

/-- Bytes of a bobbin (R165). -/
def bobBytes (ws : List Word32) : Nat := 512 * kvRow ws

/-- M_VALID of an ATTN. -/
def aM (ws : List Word32) : Nat := wfld ws 6 11 0

/-- Heads per row (R155). -/
def headsOf (ws : List Word32) : Nat := if wfld ws 5 21 20 = 0 then 2 else 1

/-- LIST_CAP in entries (R162). -/
def listCap (ws : List Word32) : Nat := wfld ws 6 31 18 * 16

/-- PF_DEPTH as declared (R162). -/
def pfDepth (ws : List Word32) : Nat := if wfld ws 5 31 28 = 0 then 8 else wfld ws 5 31 28

/-- Bytes of an ATTN state (R161). -/
def stateBytes (ws : List Word32) : Nat := aM ws * hdRow ws * 4 + aM ws * headsOf ws * 8

/-- STATE_IN. -/
def stIn (ws : List Word32) : Bool := decide (wfld ws 6 16 16 = 1)
/-- STATE_OUT. -/
def stOut (ws : List Word32) : Bool := decide (wfld ws 6 17 17 = 1)

/-- The slot ring of an ATTN (R162). -/
def slotRing (ws : List Word32) : Rng := (spAt ws 11, (pfDepth ws + 1) * bobBytes ws)

/-- Arrays an ATTN reads, the slot ring apart. -/
def attnReads (ws : List Word32) : List Rng :=
  [(spAt ws 8, aM ws * rowBytes (wfld ws 5 3 0) (hdRow ws)), (spAt ws 10, 128 + 4 * listCap ws), (spAt ws 14, 64)] ++
  (if wfld ws 5 24 22 = 4 then [(spAt ws 13, listCap ws * aM ws * 32)] else []) ++
  (if stIn ws then [(spAt ws 15, stateBytes ws)] else [])

/-- Arrays an ATTN writes. -/
def attnWrites (ws : List Word32) : List Rng :=
  if stOut ws then [(spAt ws 15, stateBytes ws)]
  else [(spAt ws 9, aM ws * rowBytes (wfld ws 5 11 8) (hdRow ws))] ++
    (if wfld ws 5 25 25 = 1 then [(spAt ws 12, 8 * aM ws * headsOf ws)] else [])

-- ## SHUTTLE (R180, R184)

/-- SOP. -/
def shSop (ws : List Word32) : Nat := wfld ws 5 2 0
/-- ROWS. -/
def shRows (ws : List Word32) : Nat := wfld ws 7 16 0
/-- ROW_BYTES. -/
def shRowBytes (ws : List Word32) : Nat := wfld ws 8 23 0
/-- Scratchpad row pitch. -/
def shSpPitch (ws : List Word32) : Nat := if wfld ws 9 23 0 = 0 then shRowBytes ws else wfld ws 9 23 0
/-- COMPRESS. -/
def shComp (ws : List Word32) : Bool := decide (wfld ws 5 3 3 = 1)
/-- INDIRECT of a LOAD or STORE. -/
def shInd (ws : List Word32) : Bool := decide (shSop ws ≤ 1) && decide (wfld ws 5 13 13 = 1)
/-- FWD of a RECV. -/
def shFwd (ws : List Word32) : Bool := decide (shSop ws = 3) && decide (wfld ws 5 9 9 = 1)

/-- A 64-bit value of two descriptor words, as a number. -/
def w64n (ws : List Word32) (lo : Nat) : Nat := (ws.getD lo 0).toNat + (ws.getD (lo + 1) 0).toNat * 2 ^ 32

/-- Bytes of one memory row of a SHUTTLE (R181, R184). -/
def shMemRow (ws : List Word32) : Nat := if shComp ws then shRowBytes ws / 512 * 576 else shRowBytes ws

/-- Bytes from the first to the last that a SHUTTLE touches in memory (R182). -/
def shMemSpan (ws : List Word32) : Nat := (shRows ws - 1) * (ws.getD 12 0).toNat + shMemRow ws

/-- The scratchpad block of a SHUTTLE. -/
def shBlock (ws : List Word32) : Rng := (spAt ws 6, if shRows ws = 0 then 0 else (shRows ws - 1) * shSpPitch ws + shRowBytes ws)

/-- Whether a STORE takes ready-made headers (R180). -/
def shHdrs (ws : List Word32) : Bool := decide (shSop ws = 1) && shComp ws && decide (wfld ws 14 17 0 ≠ 0)

/-- Arrays a SHUTTLE reads. A RECV with FWD may send what its block holds (R187). -/
def shReads (ws : List Word32) : List Rng :=
  (if shSop ws = 1 ∨ shSop ws = 2 ∨ (shSop ws = 3 ∧ wfld ws 5 9 9 = 1) then [shBlock ws] else []) ++
  (if shInd ws then [(spAt ws 10, 8)] else []) ++
  (if shHdrs ws then [(spAt ws 14, shRows ws * (shRowBytes ws / 512) * 64)] else [])

/-- Arrays a SHUTTLE writes. -/
def shWrites (ws : List Word32) : List Rng := if shSop ws = 0 ∨ shSop ws = 3 then [shBlock ws] else []

-- ## Every operation

/-- The predecessors a descriptor names (R212). -/
def predsOf (ws : List Word32) : List Nat :=
  [wfld ws 1 15 0, wfld ws 1 31 16, wfld ws 2 15 0, wfld ws 2 31 16].filter (· ≠ 0xFFFF)

/-- Whether an opcode is a vector operation (R213). -/
def isVecOp (o : Nat) : Bool := decide (0x10 ≤ o) && decide (o ≤ 0x18)

/-- Scratchpad arrays an operation reads. -/
def opReads (ws : List Word32) (w : WinRec) : List Rng :=
  let o := opcode ws
  if o = 0x01 ∨ o = 0x02 then matReads ws w
  else if isVecOp o then vecReads ws w
  else if o = 0x08 then attnReads ws
  else if o = 0x09 then [(spAt ws 8, aM ws * kvRow ws), (spAt ws 9, aM ws * kvRow ws), (spAt ws 14, 64)]
  else if o = 0x20 then shReads ws
  else if o = 0x30 then [(spAt ws 6, 64 * wfld ws 7 16 0)]
  else if o = 0x31 then [(wfld ws 5 17 0 * 128, 64)]
  else []

/-- Output arrays of an operation (R88, R91). -/
def opOuts (ws : List Word32) : List Rng :=
  let o := opcode ws
  if o = 0x01 ∨ o = 0x02 then matOut ws ++ matAux ws
  else if isVecOp o then vecWrites ws
  else if o = 0x08 then attnWrites ws
  else if o = 0x20 then shWrites ws
  else if o = 0x32 then [(wfld ws 5 17 0 * 128, 64 * wfld ws 6 8 0)]
  else []

/-- Every array an operation writes: outputs, staging, and an ATTN's slot ring. -/
def opWrites (ws : List Word32) : List Rng :=
  let o := opcode ws
  opOuts ws ++ (if o = 0x01 ∨ o = 0x02 then [matStage ws] else if o = 0x08 then [slotRing ws] else [])

/-- Arrays an operation reads, the members of a CREEL_ADVANCE's pick as its header counts them (R240). -/
def readsNow (s : State) (c : Nat) (ws : List Word32) (w : WinRec) : List Rng :=
  if opcode ws = 0x31 then
    let a := wfld ws 5 17 0 * 128
    [(a, 64 * (1 + min 256 (leNat (memRd s (spAddr c (a + 8)) 4))))]
  else opReads ws w

/-- Whether a matrix operation is still in its epilogue (R57): a tile has reached it, and one is still to come or waits. -/
def inEpilogue (k : Core) (x : Slot) : Bool :=
  k.arr.any fun a => decide (a.op = x.idx) && (k.epiQ.any (fun p => decide (p.1 = x.idx)) || (decide (0 < a.tile) && decide (a.tile < mNT x.words)))

/-- Arrays that an operation in its epilogue reads (R88): residual, index list and bitmaps, and the kept elements of a COMPRESSED output (R86). -/
def epilogueReads (x : Slot) : List Rng :=
  (if mResMode x.words = 0 then [] else (matReads x.words (winRecOf [])).getLast?.toList) ++
  (if mGather x.words then [(spAt x.words 12, 128 + 4 * mM x.words)] else []) ++
  (if wfld x.words 6 12 12 = 1 then [(wfld x.words 11 31 18 * 2048, 2048)] else []) ++
  (if mWMode x.words = 2 then matOut x.words else [])

/-- Whether R88 holds an operation that has not begun its commit: it touches an output still committing, or writes what an operation in its epilogue reads. -/
def heldBack (s : State) (c : Nat) (x : Slot) : Bool :=
  match coreBolt s c with
  | none => false
  | some (_, b) =>
    let k := coreOf s c
    let w := winRec s b x.words
    let others := k.slots.filter fun y => y.issued && decide (y.idx ≠ x.idx)
    let outs := (others.filter Slot.committing).flatMap fun y => opOuts y.words
    let read := (others.filter fun y => !y.committing && inEpilogue k y).flatMap epilogueReads
    !x.committing &&
    ((readsNow s c x.words w ++ opWrites x.words).any (fun r => outs.any (rngHit r)) || (opWrites x.words).any fun r => read.any (rngHit r))

/-- Operand group of R29: 1 8-bit float, 2 MX 8/6-bit, 3 MX 4-bit, 4 16-bit float, 5 integer; 0 none. -/
def fmtGroup (c : Nat) : Nat :=
  if c = 3 ∨ c = 4 then 1 else if 5 ≤ c ∧ c ≤ 8 then 2 else if c = 9 then 3 else if c = 1 ∨ c = 2 then 4
  else if c = 0xA ∨ c = 0xC then 5 else 0

end Sys2Proof.Machine
end

