-- ==== Sys2Proof/Machine/Rings.lean ====
section
/-! DEFINITION. Rings, their descriptors and doorbells, the scanner, fences, completion records, timeouts and events (R198-R209, R217-R225, R446). -/

namespace Sys2Proof.Machine

/-- Records a ring holds: 2^LOG2_SIZE entries, twice that many records for an EVENT ring (R198). -/
def ringSize (g : Ring) : Nat := if g.kind = 2 then 2 * 2 ^ g.log2.toNat else 2 ^ g.log2.toNat

/-- Bytes of one record (R198). -/
def ringUnit (g : Ring) : Nat := if g.kind = 2 then 32 else 64

/-- Records held, modulo 2^32 (R198). -/
def ringHeld (g : Ring) : Nat := (g.wp - g.rp).toNat

/-- Address of record `n` of a ring (R198). -/
def ringSlot (g : Ring) (n : Word32) : Nat := g.base.toNat + ringUnit g * (n.toNat % ringSize g)

/-- First ring of a loom's range (R256). -/
def ringBase (s : State) (l : Nat) : Nat := lvF s l 0x110 17 0

/-- A failed window check on a ring access (R201): the ring stops or holds, one RING_FAULT event, DB_ERR; on the loom's own event ring also a ledger report. -/
def ringFaultAt (s : State) (l r addr : Nat) : State :=
  let g := ringOf s r
  if g.faulted then s else
  let s1 := dbError (setRing s r { g with faulted := true }) l 3 (r - ringBase s l)
  let s2 := produce s1 l 0x0006 0x020 0 (BitVec.ofNat 64 r) (BitVec.ofNat 64 addr)
  if r = lvF s l 0x124 17 0 then report s2 (localRep s2 0x020 0 .other 0x020 0 addr) false else s2

/-- Whether the loom may use `[a, a + n)` now, host segments included (R201, R281). -/
def usable (s : State) (l a n : Nat) (w : Bool) : Bool :=
  allowed s l a n w && (isTap a || (match placeOf s a with
    | .hostWin o => hostOk s o n
    | _ => true))

/-- Whether a ring's memory answers now: the PCIe link is up (R404), the stack is not self-refreshing (R291), a route leads to the device (R311). -/
def reachable (s : State) (a : Nat) : Bool :=
  if isTap a then devValid s && !unroutable s (bitsOf a 55 42) else (match placeOf s a with
    | .hostWin _ => s.boot.pcieUp
    | .dram st _ => !(stackOf s st).selfRefresh
    | _ => true)

/-- Whether WP of a ring is written back (R200): a SUBMIT ring's writeback holds RP. -/
def wpBack (g : Ring) : Bool := decide (g.wbAddr ≠ 0) && decide (g.kind ≠ 0)

/-- Whether a unit may write `n` records to a ring now (R198, R201, R221): the ring is enabled, has space, is not held, its memory answers, and no other unit is writing there. -/
def ringOpen (s : State) (w : Who) (l r n : Nat) : Bool :=
  let g := ringOf s r
  let a := ringSlot g g.wp
  g.enable && decide (ringHeld g + n ≤ ringSize g) && !g.faulted && reachable s a &&
  (!wpBack g || reachable s g.wbAddr.toNat) && !writing s w l a (ringUnit g)

/-- The address whose check fails when a record cannot be written to a ring that is open (R201). -/
def badSlot (s : State) (l r : Nat) : Option Nat :=
  let g := ringOf s r
  if !usable s l (ringSlot g g.wp) (ringUnit g) true then some (ringSlot g g.wp)
  else if wpBack g && !usable s l g.wbAddr.toNat 4 true then some g.wbAddr.toNat
  else none

/-- The address whose check fails when a unit writes the next record of a ring (R201). -/
def pushFault (s : State) (w : Who) (l r : Nat) : Option Nat :=
  if ringOpen s w l r 1 then badSlot s l r else none

/-- The record and the writeback of the pointer `p` for a ring (R198, R221): in this order, each visible before the next; the address whose access failed, if any. -/
def putRecord (s : State) (w : Who) (l r : Nat) (bs : List Byte) : State × Option Nat :=
  let g := ringOf s r
  let a := ringSlot g g.wp
  match loomWrite s w l a bs with
  | (t, some _) => (t, some a)
  | (t, none) =>
    if !wpBack g then (setRing t r { ringOf t r with wp := g.wp + 1 }, none)
    else match loomWrite t w l g.wbAddr.toNat (toLe 4 (g.wp + 1).toNat) with
      | (u, some _) => (u, some g.wbAddr.toNat)
      | (u, none) => (setRing u r { ringOf u r with wp := g.wp + 1 }, none)

/-- A record written to a ring by a unit (R198, R201, R214, R221): WP, the writeback and the interrupt follow in that order. A failed check or access holds the ring. The Boolean tells whether the record was written. -/
def tryPush (s : State) (w : Who) (l r : Nat) (bs : List Byte) : State × Bool :=
  if !ringOpen s w l r 1 then (s, false)
  else match badSlot s l r with
    | some a => (ringFaultAt s l r a, false)
    | none => match putRecord s w l r bs with
      | (t, some a) => (ringFaultAt t l r a, false)
      | (t, none) => (if (ringOf s r).kind = 0 then t else ringIrq t l r, true)

-- ## Descriptors (R200-R203)

/-- The 64 bytes of a descriptor; CPL_RING relative to `base` (R200, R202). -/
def ringBytes (g : Ring) (base : Nat) : List Byte :=
  toLe 8 g.base.toNat ++ toLe 1 g.log2.toNat ++ toLe 1 g.kind.toNat ++ toLe 1 (b2n g.enable + 2 * b2n g.irqEn) ++ toLe 1 0 ++
  toLe 4 g.timeout.toNat ++ toLe 4 g.wp.toNat ++ toLe 4 g.rp.toNat ++ toLe 8 g.wbAddr.toNat ++ toLe 2 g.msix.toNat ++
  toLe 2 g.holdoff.toNat ++ toLe 4 ((g.cplRing.toNat + (2 ^ 18 - base)) % 2 ^ 18) ++ List.replicate 24 0

/-- A descriptor read from 64 bytes; CPL_RING relative to `base`. -/
def ringOfBytes (bs : List Byte) (base : Nat) : Ring :=
  { base := BitVec.ofNat 64 (fieldLe bs 0 8), log2 := BitVec.ofNat 8 (byteAt bs 8), kind := BitVec.ofNat 3 (byteAt bs 9)
    enable := bitOf (byteAt bs 10) 0, irqEn := bitOf (byteAt bs 10) 1, timeout := BitVec.ofNat 24 (fieldLe bs 12 3)
    wp := BitVec.ofNat 32 (fieldLe bs 16 4), rp := BitVec.ofNat 32 (fieldLe bs 20 4), wbAddr := BitVec.ofNat 64 (fieldLe bs 24 8)
    msix := BitVec.ofNat 16 (fieldLe bs 32 2), holdoff := BitVec.ofNat 16 (fieldLe bs 34 2)
    cplRing := BitVec.ofNat 18 (fieldLe bs 36 3 % 2 ^ 18 + base) }

/-- Keys of a configuration window: index, command, first data register (R226, R227). -/
def cfgKeys : Window → Nat × Nat × Nat
  | .pf0 => (0x20140, 0x20144, 0x20180)
  | .loom l => (dbPage l + 0x100, dbPage l + 0x104, dbPage l + 0x140)

/-- Base and count of the rings a window reaches (R202): all through PF0, its own range through a loom's. -/
def cfgRange (s : State) : Window → Nat × Nat
  | .pf0 => (0, 262144)
  | .loom l => (ringBase s l, lvF s l 0x114 18 0)

/-- Bytes held in `n` consecutive data registers. -/
def regBytes (s : State) (k n : Nat) : List Byte := (List.range n).flatMap fun i => toLe 4 (rd s (k + 4 * i)).toNat

/-- Data registers loaded from bytes. -/
def loadRegs (s : State) (k n : Nat) (bs : List Byte) : State :=
  (List.range n).foldl (fun t i => wr t (k + 4 * i) (BitVec.ofNat 32 (fieldLe bs (4 * i) 4))) s

/-- Whether a loom's pages answer: the loom is not DESTROYED (R264, R438). -/
def windowOpen (s : State) : Window → Bool
  | .pf0 => true
  | .loom l => decide (loomSt s l ≠ 0)

/-- Whether an enable waits in a configuration window (R203): CFG_CMD.BUSY. -/
def cfgBusy (s : State) (w : Window) : Bool := fbit (rd s (cfgKeys w).2.1) 31

/-- A write to a busy configuration window, ignored and recorded (R435); a loom's window records its BAR2 offset (log entry 31). -/
def cfgBusyRefuse (s : State) (w : Window) (o : Nat) : State :=
  match w with
  | .pf0 => accRefuse s (0x20000 + o) 2
  | .loom l => accRefuse s (l.val * 0x1000 + o) 2

/-- CFG_READ (R202): OP = 1. -/
def opCfgRead (s : State) (w : Window) : State :=
  if !windowOpen s w then s else
  if cfgBusy s w then cfgBusyRefuse s w ((cfgKeys w).2.1 % 0x1000) else
  let (ki, kc, kd) := cfgKeys w
  let (b, n) := cfgRange s w
  let i := rdF s ki 17 0
  if i < n then loadRegs (wrB s kc 30 false) kd 16 (ringBytes (ringOf s (b + i)) b) else wrB s kc 30 true

/-- Whether a descriptor write is refused (R202). -/
def cfgRefused (s : State) (b i n : Nat) (bs : List Byte) : Bool :=
  let old := ringOf s (b + i)
  let new := ringOfBytes bs b
  let l := ringLoom s (b + i)
  let fn := match l with
    | some x => loomFn s x
    | none => 0
  let cpl := ringOf s new.cplRing.toNat
  !decide (i < n) || decide (4 < byteAt bs 9) || decide (byteAt bs 8 < 4) || decide (16 < byteAt bs 8) ||
  decide ((if fn = 0 then 2047 else 63) < new.msix.toNat) ||
  (decide (new.kind = 0) && new.enable &&
    !(cpl.enable && decide (cpl.kind = 1) && l.isSome && decide (ringLoom s new.cplRing.toNat = l))) ||
  (old.enable && (decide (new.base ≠ old.base) || decide (new.log2 ≠ old.log2) || decide (new.kind ≠ old.kind) ||
    decide (new.wbAddr ≠ old.wbAddr) || decide (new.msix ≠ old.msix) || decide (new.cplRing ≠ old.cplRing)))

/-- Whether a ring still finishes an entry of an earlier enable (R203). -/
def ringBusy (s : State) (r : Nat) : Bool := s.entries.any fun e => decide (e.ring = r)

/-- Writes under way to a ring's memory forgotten with the ring's disable: the records they hold wait for the next enable (R201, R203). -/
def dropRing (s : State) (g : Ring) : State :=
  let hit := fun (wr : Bool) (a n : Nat) => wr && overlaps a n g.base.toNat (ringUnit g * ringSize g)
  { s with router := { s.router with
      replies := s.router.replies.filter fun r => !hit r.write r.addr r.len
      out := s.router.out.filter fun o => match o.origin with
        | .unit _ _ a n wr => !hit wr a n
        | _ => true } }

/-- A descriptor write carried out (R202, R203): an enable waits, BUSY, while an earlier disable finishes its running entry; a disable clears a RING_FAULT stop. -/
def cfgStore (s : State) (w : Window) : State :=
  let (ki, kc, kd) := cfgKeys w
  let (b, n) := cfgRange s w
  let i := rdF s ki 17 0
  let bs := regBytes s kd 16
  if cfgRefused s b i n bs then wrB (wrB s kc 31 false) kc 30 true
  else
    let old := ringOf s (b + i)
    let new := ringOfBytes bs b
    if new.enable && !old.enable && decide (old.kind = 0) && ringBusy s (b + i) then wrB (wrB s kc 30 false) kc 31 true
    else
      let up := new.enable && !old.enable
      let s1 := if old.enable && !new.enable then dropRing s old else s
      setRing (wrB (wrB s1 kc 30 false) kc 31 false) (b + i) { new with
        wp := if up then new.wp else old.wp, rp := if up then new.rp else old.rp
        faulted := old.faulted && new.enable && old.enable, lost := old.lost
        holdSince := old.holdSince, owed := old.owed }

/-- CFG_WRITE (R202, R203): OP = 2. -/
def opCfgWrite (s : State) (w : Window) : State :=
  if !windowOpen s w then s
  else if cfgBusy s w then cfgBusyRefuse s w ((cfgKeys w).2.1 % 0x1000)
  else cfgStore s w

/-- Enables that wait in PF0's window or a loom's, tried again once an entry is gone (R203, R24). -/
def cfgResume (s : State) (l : LoomId) : State :=
  let go := fun t w => if cfgBusy t w then cfgStore t w else t
  go (go s .pf0) (.loom l)

/-- CFG_READ (R202). -/
def execCfgRead (w : Window) (s : State) : Out :=
  effect (fun s => match w with
    | .pf0 => onPage 0x20000 0x144 (fun s => opCfgRead s .pf0) s
    | .loom l => opCfgRead s (.loom l)) s

/-- CFG_WRITE (R202). -/
def execCfgWrite (w : Window) (s : State) : Out :=
  effect (fun s => match w with
    | .pf0 => onPage 0x20000 0x144 (fun s => opCfgWrite s .pf0) s
    | .loom l => opCfgWrite s (.loom l)) s

-- ## Doorbells (R204, R205)

/-- Whether a doorbell of a function reaches loom `l`'s page (R272, R274, R402, R393, R438). -/
def doorOpen (s : State) (fn l : Nat) : Bool :=
  ready s && !s.power.s5 && s.boot.pcieUp && decide (loomSt s l ≠ 0) && (decide (fn = 0) || (decide (loomFn s l = fn) && !fbit (rd s (loomKey l 0x108)) 8))

/-- A doorbell write (R204, R205). -/
def doorbell (s : State) (l : Nat) (v : Word64) (whole wpBell : Bool) : State :=
  if !whole then dbError s l 1 0
  else
    let i := v.toNat % 2 ^ 18
    let new : Word32 := BitVec.ofNat 32 (v.toNat / 2 ^ 32)
    let r := ringBase s l + i
    let g := ringOf s r
    let bad := dbError s l 0 i
    if !decide (i < lvF s l 0x114 18 0) || !g.enable || (wpBell != decide (g.kind = 0)) then bad
    else if wpBell then
      if new = g.wp then s
      else if (new - g.rp).toNat ≤ ringSize g ∧ (g.wp - g.rp).toNat < (new - g.rp).toNat then setRing s r { g with wp := new }
      else bad
    else if 0 < (new - g.rp).toNat ∧ (new - g.rp).toNat ≤ ringHeld g then setRing s r { g with rp := new }
    else bad

/-- DB_WP (R204, R205). -/
def execDbWp (fn : FnId) (l : LoomId) (v : Word64) (whole : Bool) (s : State) : Out :=
  effect (fun s => if doorOpen s fn l then doorbell s l v whole true else s) s

/-- DB_RP (R204, R205). -/
def execDbRp (fn : FnId) (l : LoomId) (v : Word64) (whole : Bool) (s : State) : Out :=
  effect (fun s => if doorOpen s fn l then doorbell s l v whole false else s) s

-- ## Entries

/-- The entries of a ring, oldest first. -/
def ringEntries (s : State) (r : Nat) : List Entry := s.entries.filter fun e => decide (e.ring = r)

/-- The oldest entry of a ring that has not ended. -/
def headEntry (s : State) (r : Nat) : Option Entry := (ringEntries s r).find? fun e => decide (e.phase ≠ .ended)

/-- Changes one entry. -/
def updEntry (s : State) (r : Nat) (q : Word32) (f : Entry → Entry) : State :=
  { s with entries := s.entries.map fun e => if e.ring = r ∧ e.seq = q then f e else e }

/-- Entry of a ring and pointer value. -/
def findEntry (s : State) (r : Nat) (q : Word32) : Option Entry :=
  s.entries.find? fun e => decide (e.ring = r) && decide (e.seq = q)

/-- KIND of an entry (R208). -/
def entKind (e : Entry) : Nat := byteAt e.bytes 0

/-- Whether an entry asks for a completion record (R208, R234): a BOLT and any failure always do. -/
def wantsRecord (e : Entry) (status : Nat) : Bool :=
  decide (entKind e = 1) || decide (status ≠ 0) || (bitOf (byteAt e.bytes 1) 0 && decide (entKind e ≠ 0))

/-- An entry gone; an enable that waited for it goes on (R203). -/
def dropEntry (s : State) (e : Entry) : State :=
  cfgResume { s with entries := s.entries.filter fun x => !(decide (x.ring = e.ring) && decide (x.seq = e.seq)) } (Fin.ofNat 32 e.loom)

/-- BOLT_DONE, when the entry asks for it (R208, R224). -/
def doneEvent (s : State) (e : Entry) (status : Nat) : State :=
  if bitOf (byteAt e.bytes 1) 1 then produce s e.loom 0x0001 0x020 0 e.id (BitVec.ofNat 64 status) else s

/-- An entry ends (R219-R221): its record waits in end order, or it is gone when it asks for none. -/
def endEntry (s : State) (e : Entry) (status : Nat) : State :=
  if wantsRecord e status then
    let s1 := updEntry s e.ring e.seq fun x => { x with phase := .ended, status := status, endTime := s.time, endSeq := s.endSeq }
    { s1 with endSeq := s.endSeq + 1 }
  else doneEvent (dropEntry s e) e status

-- ## The scanner (R206-R208)

/-- Whether an admission of the ring waits for quota, or a record of it waits (R207, R221, R232): the scanner fetches nothing further from it. -/
def ringBlocked (s : State) (r : Nat) : Bool :=
  (ringEntries s r).any fun e => decide (e.phase = .ended) || decide (entKind e = 2)

/-- The scanner as the unit that reads ring `r`. -/
def scanWho (r : Nat) : Who := ⟨0x020, 0, r⟩

/-- Whether the scanner waits for an answer about ring `r`. -/
def scanWaits (s : State) (r : Nat) : Bool :=
  s.router.out.any fun o => match o.origin with
    | .unit w _ _ _ _ => decide (w = scanWho r)
    | _ => false

/-- Rings of a loom that hold entries the scanner may take now (R201, R203, R206, R261, R262, R293, R418). -/
def scanRings (s : State) (l : Nat) : List Nat :=
  if loomSt s l ≠ 2 ∨ blockClosed s .scanner then [] else
  (s.rings.foldl (fun t p =>
    let g := p.2
    if within p.1 1 (ringBase s l) (lvF s l 0x114 18 0) && g.enable && decide (g.kind = 0) && !g.faulted && !g.lost &&
       decide (g.wp ≠ g.rp) && reachable s (ringSlot g g.rp) && affordable s l (ringSlot g g.rp) &&
       (decide (g.wbAddr = 0) || (reachable s g.wbAddr.toNat && affordable s l g.wbAddr.toNat)) && !scanWaits s p.1 && !ringBlocked s p.1 then insNat p.1 t else t) [])

/-- Looms of a class that hold entries. -/
def scanLooms (s : State) (c : Nat) : List Nat :=
  (List.range 32).filter fun l => decide (lvF s l 0x10C 10 8 = c) && !(scanRings s l).isEmpty

/-- Next of a sorted list after `last`, cyclically. -/
def nextAfter (ls : List Nat) (last : Option Nat) : Option Nat :=
  match last with
  | none => ls.head?
  | some x => match ls.find? fun y => decide (x < y) with
    | some y => some y
    | none => ls.head?

/-- A class's share of a round (R206): its weight, or 1 for weight 0 when every other class holds no entry. -/
def classShare (s : State) (c : Nat) : Nat :=
  let w := rdF s (0x20100 + 4 * c) 7 0
  if w ≠ 0 then w
  else if (List.range 8).all fun d => decide (d = c) || (scanLooms s d).isEmpty then 1 else 0

/-- The class, loom and ring served next and the entries left of the class's share, looking at most `fuel` classes on (R206). -/
def scanPick (s : State) : Nat → Nat → Nat → Option (Nat × Nat × Nat × Nat)
  | 0, _, _ => none
  | fuel + 1, c, left =>
    match (if left = 0 then none else nextAfter (scanLooms s c) (tfind s.scan.loom c)) with
    | some l => match nextAfter (scanRings s l) (tfind s.scan.ring l) with
      | some r => some (c, l, r, left - 1)
      | none => none
    | none =>
      let c' := if c = 0 then 7 else c - 1
      scanPick s fuel c' (classShare s c')

/-- Whether reserved bytes of an entry are non-zero or its KIND is reserved (R208, R232, R233). -/
def badEntry (bs : List Byte) : Bool :=
  decide (4 < byteAt bs 0) || decide (3 < byteAt bs 1) || !zeros bs 2 8 ||
  (match byteAt bs 0 with
   | 0 => !zeros bs 8 64
   | 1 => !zeros bs 20 24 || !zeros bs 32 64
   | 2 => !zeros bs 16 64
   | 3 => !zeros bs 16 64
   | 4 => decide (1 < byteAt bs 12) || !zeros bs 13 16 || !zeros bs 32 64
   | _ => true)

/-- BOLT_ID that an entry's record carries (R208, R234). -/
def entryId (bs : List Byte) : Word64 :=
  BitVec.ofNat 64 (if byteAt bs 0 = 3 then fieldLe bs 8 8 else if byteAt bs 0 = 2 then 0 else fieldLe bs 24 8)

/-- The scanner's copy of the entry at RP, RP moved and written back (R206); the address whose access failed, if any. -/
def takeEntry (s : State) (l r : Nat) : State × Except Nat (List Byte) :=
  let g := ringOf s r
  let a := ringSlot g g.rp
  if !usable s l a 64 false then (s, .error a)
  else match loomRead s (scanWho r) l a 64 with
    | (s1, .error _) => (s1, .error a)
    | (s1, .ok bs) => (setRing s1 r { ringOf s1 r with rp := g.rp + 1 }, .ok bs)

/-- RP written back (R206); a failed check or access stops the ring (R201). -/
def writeRp (s : State) (l r : Nat) : State :=
  let g := ringOf s r
  if g.wbAddr = 0 then s
  else if !usable s l g.wbAddr.toNat 4 true then ringFaultAt s l r g.wbAddr.toNat
  else match loomWrite s (scanWho r) l g.wbAddr.toNat (toLe 4 g.rp.toNat) with
    | (t, none) => t
    | (t, some _) => ringFaultAt t l r g.wbAddr.toNat

/-- One entry fetched from ring `r` of loom `l` (R201, R206, R208, R234). -/
def fetchEntry (s : State) (l r : Nat) : State :=
  let g := ringOf s r
  match takeEntry s l r with
  | (s1, .error a) => ringFaultAt s1 l r a
  | (s1, .ok bs) =>
    let s2 := writeRp s1 l r
    let s3 := { s2 with endSeq := s.endSeq + 1 }
    let e : Entry := { ring := r, seq := g.rp, loom := l, bytes := bs, fetchTime := s.time, start := s.time, id := entryId bs, fetchSeq := s.endSeq }
    if badEntry bs then
      let e1 := if byteAt bs 0 = 2 ∨ byteAt bs 0 = 3 then { e with opsDone := 0xFFFFFFFF } else e
      endEntry { dbError s3 l 2 (r - ringBase s l) with entries := s3.entries ++ [e1] } e1 8
    else if byteAt bs 0 = 0 then s3
    else { s3 with entries := s3.entries ++ [{ e with limit := if byteAt bs 0 = 2 then g.timeout.toNat else 0 }] }

/-- What the scanner serves next: class, loom, ring and the entries left of the class's share (R206). -/
def scanChoice (s : State) : Option (Nat × Nat × Nat × Nat) :=
  scanPick s 17 s.scan.cls
    (if s.scan.left = 0 ∧ (scanLooms s s.scan.cls).isEmpty = false ∧ s.scan.loom = [] then classShare s s.scan.cls else s.scan.left)

/-- RING_ENTRY_FETCH (R206). -/
def execRingEntryFetch (s : State) : Out :=
  effect (asking fun s =>
    match scanChoice s with
    | none => s
    | some (c, l, r, n) =>
      fetchEntry { s with scan := { cls := c, left := n, loom := tput s.scan.loom c l, ring := tput s.scan.ring l r } } l r) s

/-- RING_FAULT (R201): the next access of a ring fails its window check. -/
def execRingFault (r : RingId) (s : State) : Out :=
  effect (awake <| posting fun s =>
    match ringLoom s r with
    | none => s
    | some l =>
      let g := ringOf s r
      if !g.enable then s
      else if g.kind = 0 then (if decide (g.wp ≠ g.rp) && !usable s l (ringSlot g g.rp) 64 false then ringFaultAt s l r (ringSlot g g.rp) else s)
      else match pushFault s ⟨0x020, 0, r⟩ l r with
        | some a => ringFaultAt s l r a
        | none => s) s

-- ## Fences (R209)

/-- Whether a bolt of the loom that started before entry `e` was fetched has not completed (R209). -/
def boltsBefore (s : State) (f : Entry) : Bool :=
  s.entries.any fun e => decide (e.loom = f.loom) && decide (e.phase = .running) && (e.bolt.any fun b => decide (b.startSeq < f.fetchSeq))

/-- Whether earlier entries of the ring have completed (R207, R209). -/
def firstOfRing (s : State) (e : Entry) : Bool :=
  match headEntry s e.ring with
  | some h => decide (h.seq = e.seq)
  | none => false

/-- Steps 2 and 3 of a fence (R209): once its knot is reached it signals and ends. -/
def fenceFinish (s : State) (e : Entry) : State :=
  let wk := fieldLe e.bytes 8 2
  let sk := fieldLe e.bytes 10 2
  if wk = 0xFFFF ∨ fieldLe e.bytes 16 8 ≤ (knotOf s wk).toNat then
    endEntry (if sk = 0xFFFF then s else applyKnot (drainKnots s) sk false 1) e 0
  else s

/-- FENCE (R209): step 1, and the rest when its knot is already reached. -/
def execFence (r : RingId) (s : State) : Out :=
  effect (awake fun s =>
    match headEntry s r with
    | none => s
    | some e =>
      if entKind e ≠ 4 ∨ e.phase ≠ .fetched then s
      else if bitOf (byteAt e.bytes 12) 0 && boltsBefore s e then s
      else
        let wk := fieldLe e.bytes 8 2
        let sk := fieldLe e.bytes 10 2
        if !(decide (wk = 0xFFFF) || knotInLoom s e.loom wk) || !(decide (sk = 0xFFFF) || knotInLoom s e.loom sk) then
          endEntry (dbError s e.loom 2 (e.ring - ringBase s e.loom)) e 8
        else
          let lim := (ringOf s e.ring).timeout.toNat
          let e1 := { e with phase := .fenceWait, start := s.time, limit := lim }
          fenceFinish (updEntry s e.ring e.seq fun _ => e1) e1) s

/-- FENCE_KNOT_MET (R209). -/
def execFenceKnotMet (r : RingId) (s : State) : Out :=
  effect (awake fun s =>
    match headEntry s r with
    | some e => if e.phase = .fenceWait then fenceFinish s e else s
    | none => s) s

-- ## Completion records (R219-R221)

/-- The 64 bytes of a completion record (R219). -/
def recordBytes (e : Entry) (seq : Word32) : List Byte :=
  toLe 8 e.id.toNat ++ toLe 1 e.status ++ toLe 1 (if e.status = 1 then e.reject else 0) ++ toLe 2 0 ++ toLe 4 e.ring ++
  toLe 4 e.opsDone.toNat ++ toLe 4 e.firstFail.toNat ++ toLe 4 e.flags.toNat ++ toLe 4 e.seq.toNat ++
  toLe 8 e.start.toNat ++ toLe 8 e.endTime.toNat ++ toLe 2 e.failCore ++ toLe 2 0 ++ toLe 4 seq.toNat ++ toLe 8 0

/-- The entry whose record a completion ring takes next: the earliest end (R221). -/
def nextRecord (s : State) (cpl : Nat) : Option Entry :=
  (s.entries.filter fun e => decide (e.phase = .ended) && decide ((ringOf s e.ring).cplRing.toNat = cpl)).foldl
    (fun b e => match b with
      | none => some e
      | some x => if e.endSeq < x.endSeq then some e else some x) none

/-- Whether the creel's cache prefers to hold an entry (R228): READY, IN_PICK or PARKED. -/
def creelPreferred (s : State) (i : Nat) : Bool := (tfind s.creel i).any fun e => decide (2 ≤ e.state) && decide (e.state ≤ 4)

/-- The cache after the least useful of its entries has left when it holds more than 8,192: the least recently used among those it does not prefer, else of all (log entry 53). -/
def creelTrim (s : State) (is : List Nat) : List Nat :=
  if is.length ≤ 8192 then is
  else match is.reverse.find? fun i => !creelPreferred s i with
    | some i => is.filter (· ≠ i)
    | none => is.dropLast

/-- A creel entry held in the cache, as the last one used. -/
def creelHold (s : State) (i : Nat) : State := { s with creelCache := creelTrim s (i :: s.creelCache.filter (· ≠ i)) }

/-- A creel entry used: one that the cache does not hold is a miss (R228). -/
def creelTouch (s : State) (i : Nat) : State := creelHold (if s.creelCache.contains i then s else addCnt s 0x22108 1) i

/-- Creel entry changed. -/
def setCreel (s : State) (i : Nat) (e : CreelEnt) : State :=
  let s1 := creelTouch s i
  { s1 with creel := tput s1.creel i e }

/-- Number of the loom's entries that are not FREE (R228). -/
def creelUsed (s : State) (l : Nat) : Nat := (s.creel.filter fun p => decide (p.2.loom = l)).length

/-- Whether a loom holds its full creel quota (R232). -/
def creelFull (s : State) (l : Nat) : Bool := decide (lvF s l 0x120 18 0 ≤ creelUsed s l)

/-- An output bolt's record is written: its creel entry holds one fewer (R230, R240). -/
def outDone (s : State) (e : Entry) : State :=
  match s.creel.find? fun p => decide (p.2.reqTag = e.id) && decide (p.2.loom = e.loom) && decide (p.2.outSubmit = e.ring) && decide (0 < p.2.outs) with
  | some (i, c) => setCreel s i { c with outs := c.outs - 1 }
  | none => s

/-- The next record of a completion ring written (R215, R221, R208, R224): the record, SEQ and writeback, then the interrupt; the bolt's store space is released and BOLT_DONE follows when asked. -/
def writeNext (s : State) (cpl : Nat) : State :=
  match nextRecord s cpl with
  | none => s
  | some e =>
    let (s1, ok) := tryPush s ⟨0x020, 0, cpl⟩ e.loom cpl (recordBytes e (ringOf s cpl).wp)
    if !ok then s1
    else
      let s2 := dropEntry s1 e
      let s3 := if entKind e = 1 then outDone s2 e else s2
      doneEvent s3 e e.status

/-- COMPLETION_RECORD_WRITE (R221). -/
def execCompletionRecordWrite (cpl : RingId) (s : State) : Out := effect (asking fun s => writeNext s cpl) s

-- ## Stopping bolts (R218, R220)

/-- A core asked to stop at its next shed point (R68): what it has on the array beyond that point is abandoned. -/
def askStop (s : State) (c : Nat) : State :=
  let k := coreOf s c
  if k.stopReq then s
  else
    let s1 := setCore s c { k with stopReq := true, stopSince := s.time, stopRan := 0, stopAt := nextShed s c }
    match coreBolt s c with
    | some (_, b) => setCore s1 c (abandonBeyond (coreOf s1 c) (stopOp s1 c b))
    | none => s1

/-- A core stopped at once: it keeps only operations that have begun their commit (R220, R417). -/
def stopNow (s : State) (c : Nat) : State :=
  setCore s c { haltCore (coreOf s c) with stopSince := s.time, stoppedAt := s.time }

/-- Whether a core has stopped and its begun commits have completed (R68, R89). -/
def coreStopped (s : State) (c : Nat) : Bool :=
  let k := coreOf s c
  k.stopped && k.slots.all fun x => !x.committing

/-- A running bolt asked to stop, with the first cause kept and the grace period counted from now (R218, R220). -/
def stopBolt (s : State) (e : Entry) (b : Bolt) (why : StopWhy) : State :=
  let s1 := updEntry s e.ring e.seq fun x => { x with bolt := some { b with stop := if b.stop = .none ∨ b.stop = .halt ∨ b.stop = .park then why else b.stop, graceAt := s.time } }
  (boltCores b).foldl askStop s1

/-- The park of a bolt of loom `l`, by its ring and pointer value. -/
def parkFor (s : State) (l r : Nat) (q : Word32) : Option Park :=
  (loomOf s l).parks.find? fun p => decide (p.ring = r) && decide (p.seq = q)

/-- The latest stop among cores. -/
def lastStop (s : State) (cs : List Nat) : Word64 :=
  cs.foldl (fun t c => if t.toNat < (coreOf s c).stoppedAt.toNat then (coreOf s c).stoppedAt else t) 0

/-- Time up to which a bolt's TIMEOUT has counted (R247, R252): the cores' stop, in a park that is no recovery park. -/
def clockEnd (s : State) (e : Entry) (b : Bolt) : Word64 :=
  if b.stop = .park ∧ (boltCores b).all (coreStopped s) ∧ (parkFor s e.loom e.ring e.seq).all (fun p => decide (p.why ≠ .recovery))
  then lastStop s (boltCores b) else s.time

/-- Microseconds of a bolt's TIMEOUT already counted (R217, R247). -/
def boltClock (s : State) (e : Entry) (b : Bolt) : Nat := b.clockUs + (if b.clockOn then ticksToUs (clockEnd s e b) b.clockAt else 0)

/-- Whether every core of a bolt has completed every operation of its stage, and nothing else remains (R217). -/
def boltDone (s : State) (b : Bolt) : Bool :=
  let n := boltOps s b
  ((boltCores b).all fun c => let k := coreOf s c; decide (n ≤ k.fetchAt) && k.slots.isEmpty && k.fail.isNone) &&
  (List.range n).all fun i => b.stages.all fun g =>
    decide (descStage s b i ≠ g.sel) || g.cores.all fun c => (coreOf s c).done.contains i

/-- RING_TIMEOUT (R209, R218, R232): an admission times out only while it waits for quota. -/
def execRingTimeout (r : RingId) (s : State) : Out :=
  effect (awake <| posting fun s =>
    match headEntry s r with
    | none => s
    | some e =>
      if e.limit = 0 then s
      else match e.phase, e.bolt with
        | .fenceWait, _ =>
          if elapsedUs s.time e.start e.limit then
            produce (endEntry s e 2) e.loom 0x0002 0x020 0 e.id (BitVec.ofNat 64 e.ring)
          else s
        | .fetched, _ =>
          if entKind e = 2 ∧ creelFull s e.loom ∧ elapsedUs s.time e.fetchTime e.limit then
            endEntry (updEntry s e.ring e.seq fun x => { x with firstFail := 0x0A, opsDone := 0xFFFFFFFF }) e 2
          else s
        | .running, some b =>
          if (b.stop = .none ∨ b.stop = .halt ∨ b.stop = .park) ∧ e.limit ≤ boltClock s e b ∧ !boltDone s b ∧ !b.parked then
            stopBolt (updEntry s e.ring e.seq fun x => { x with status := 2 }) { e with status := 2 } b .timeout
          else s
        | _, _ => s) s

/-- TIMEOUT_GRACE_END (R218, R220, R262): 10 ms, or 195,313 ticks, after the stop every core that has not stopped gets the idle-then-reset. -/
def execTimeoutGraceEnd (r : RingId) (s : State) : Out :=
  effect (awake fun s =>
    match headEntry s r with
    | some e =>
      match e.bolt with
      | some b =>
        if e.phase = .running ∧ (b.stop = .timeout ∨ b.stop = .failure ∨ b.stop = .quiesce) ∧ 195313 ≤ (s.time - b.graceAt).toNat then
          ((boltCores b).filter fun c => !coreStopped s c).foldl (fun t c => ownReset t (.core (Fin.ofNat 384 c))) s
        else s
      | none => s
    | none => s) s

/-- OPERATION_FAILURE (R220): the failing core stops at once, the others at their next shed points; STATUS and FIRST_FAIL come from the earliest failure. -/
def execOperationFailure (c : CoreId) (s : State) : Out :=
  effect (fun s =>
    let k := coreOf s c
    match k.fail, k.bolt with
    | some (idx, status, _, _), some (r, q) =>
      let s0 := setCore s c { k with fail := none }
      match findEntry s0 r q with
      | some e =>
        match e.bolt with
        | some b =>
          let first := decide (e.status = 0)
          let s1 := if first then updEntry s0 r q fun x => { x with status := status, firstFail := BitVec.ofNat 32 idx, failCore := c.val } else s0
          let s2 := stopNow s1 c
          match findEntry s2 r q with
          | some e2 => if b.stop = .none ∨ b.stop = .halt ∨ b.stop = .park then stopBolt s2 e2 b .failure else s2
          | none => s2
        | none => s0
      | none => s0
    | _, _ => s) s

-- ## Events (R223, R446)

/-- EVENT_STAGE (R223, R280): the oldest produced event of a loom enters its staging area of 1,024 records. -/
def execEventStage (l : LoomId) (s : State) : Out :=
  effect (awake fun s =>
    match tget [] s.produced l with
    | [] => s
    | e :: r =>
      let g := tget [] s.staged l
      if g.length < 1024 then { s with produced := tput s.produced l r, staged := tput s.staged l (g ++ [e]) } else s) s

/-- EVENT_POST (R223): the oldest staged record is written into the loom's event ring once it has space. -/
def execEventPost (l : LoomId) (s : State) : Out :=
  effect (asking fun s =>
    match tget [] s.staged l with
    | [] => s
    | e :: r =>
      let (s1, ok) := tryPush s ⟨0x014, l, 0⟩ l (lvF s l 0x124 17 0) (eventBytes e)
      if ok then addCnt { s1 with staged := tput s1.staged l r } 0x10180 1 else s1) s

/-- The TEST event of a loom (R446): a GO naming a DESTROYED loom, or one whose TEST event is not yet staged, is ignored. -/
def opEvcTest (s : State) (l : Nat) : State :=
  if (tget [] s.produced l).any fun e => decide (e.type = 0x00F0) then s
  else produce s l 0x00F0 0x014 0 ((rd s 0x1018C).setWidth 64) 0

/-- EVC_TEST_GO (R446). -/
def execEvcTestGo (l : LoomId) (s : State) : Out := effect (onPage 0x10000 0x188 fun s => opEvcTest s l) s

/-- MSIX_HOLDOFF_END (R225): a record written during the holdoff raises the vector, and a new holdoff starts. -/
def execMsixHoldoffEnd (r : RingId) (s : State) : Out :=
  effect (fun s =>
    let g := ringOf s r
    match g.holdSince, ringLoom s r with
    | some t, some l =>
      if !elapsedUs s.time t g.holdoff.toNat then s
      else if g.owed then raiseMsix (setRing s r { g with holdSince := some s.time, owed := false }) (loomFn s l) g.msix.toNat
      else setRing s r { g with holdSince := none }
    | _, _ => s) s

end Sys2Proof.Machine
end

