-- ==== Sys2Proof/Machine/CoreOps.lean ====
section
/-! DEFINITION. What every operation of a core shares: finding the issued operation, its loom, completing it (R193), failing it (R182, R220), its commit (R92, R118), and its flags (R44, R45). -/

namespace Sys2Proof.Machine

/-- The operation of a core issued first among those whose descriptor satisfies `p`, that wait for nothing remote and that R88 does not hold; none once THERMTRIP_N has stopped the clocks (R387). -/
def issuedOp (s : State) (c : Nat) (p : List Word32 → Bool) : Option Slot :=
  if s.board.thermTrip then none else
  (coreOf s c).slots.find? fun x => x.issued && decide (x.waiting = 0) && p x.words && !heldBack s c x

/-- Changes the slot of operation `i`. -/
def updSlot (s : State) (c i : Nat) (f : Slot → Slot) : State :=
  let k := coreOf s c
  setCore s c { k with slots := k.slots.map fun x => if x.idx = i then f x else x }

/-- Changes the bolt a core runs. -/
def updBolt (s : State) (c : Nat) (f : Bolt → Bolt) : State :=
  match (coreOf s c).bolt with
  | none => s
  | some (r, q) => updEntry s r q fun e => { e with bolt := e.bolt.map f }

/-- An operation begins its commit (R89, R118): without RESTARTABLE no repeat may re-run it (R92). -/
def beginCommit (s : State) (c : Nat) (x : Slot) : State :=
  let s1 := updSlot s c x.idx fun y => { y with committing := true }
  if wfld x.words 0 10 10 = 1 then s1 else updBolt s1 c fun b => { b with noRepeat := true }

/-- An operation completes (R174, R193): its slot is free, and its knot is signalled once by 1. -/
def opComplete (s : State) (c : Nat) (x : Slot) : State :=
  let k := coreOf s c
  let s1 := setCore s c { k with
    slots := k.slots.filter fun y => decide (y.idx ≠ x.idx)
    done := k.done ++ [x.idx]
    stoppedAt := if k.stopped then s.time else k.stoppedAt
    profDone := k.profDone + (if wfld x.words 0 11 11 = 1 then 1 else 0) }
  let s2 := dropOpOuts s1 c x.idx
  let sk := wfld x.words 3 31 16
  if sk = 0xFFFF then s2 else queueKnot s2 sk false 1

/-- An operation that commits and completes in one piece. -/
def opFinish (s : State) (c : Nat) (x : Slot) : State := opComplete (beginCommit s c x) c x

/-- The loom whose bolt a core runs. -/
def coreLoom (s : State) (c : Nat) : Nat :=
  match coreBolt s c with
  | some (e, _) => e.loom
  | none => 0

/-- An operation aborts (R182, R220): its slot is free, nothing is signalled, and the core holds the failure until it is stopped. The lower operation wins among failures found together. -/
def opAbort (s : State) (c : Nat) (x : Slot) (status : Nat) (i0 i1 : Word64) : State :=
  let k := coreOf s c
  let f := match k.fail with
    | some (i, st, a, b) => if i < x.idx then some (i, st, a, b) else some (x.idx, status, i0, i1)
    | none => some (x.idx, status, i0, i1)
  let k1 := offArray k x.idx
  dropOpOuts (setCore s c { k1 with slots := k.slots.filter fun y => decide (y.idx ≠ x.idx), fail := f }) c x.idx

/-- An operation aborts on a failed access, with the event its cause calls for (R182, R224, R463). -/
def opAccessErr (s : State) (c : Nat) (x : Slot) (e : AccErr) : State :=
  let l := coreLoom s c
  let s1 := opAbort s c x e.status (BitVec.ofNat 64 e.addr) (BitVec.ofNat 64 (e.code.getD 0))
  if e.status = 3 then postAccessFault s1 l e.addr x.idx c 0x040 c else postFetchError s1 l e 0x040 c

/-- Floating-point flags of an operation (R44, R45): sticky in the core, and in its bolt's record. Order: INVALID, DIVZERO, OVERFLOW, UNDERFLOW, INEXACT, NAN_IN. -/
def addFlags (s : State) (c : Nat) (f : BitVec 6) : State :=
  if f = 0 then s else
  let s1 := orReg s (coreKey c 0x180) (f.setWidth 32)
  match (coreOf s1 c).bolt with
  | none => s1
  | some (r, q) => updEntry s1 r q fun e => { e with flags := e.flags ||| f.setWidth 10 }

/-- A further flag bit of the completion record (R219). -/
def addFlagBit (s : State) (c i : Nat) : State :=
  match (coreOf s c).bolt with
  | none => s
  | some (r, q) => updEntry s r q fun e => { e with flags := e.flags ||| BitVec.ofNat 10 (2 ^ i) }

/-- `n` bytes of a core's scratchpad. -/
def spRd (s : State) (c off n : Nat) : List Byte := memRd s (spAddr c off) n

/-- Scratchpad bytes written. -/
def spWr (s : State) (c off : Nat) (bs : List Byte) : State := memWr s (spAddr c off) bs

/-- Whether a descriptor has an opcode. -/
def isOp (o : Nat) (ws : List Word32) : Bool := decide (opcode ws = o)

/-- NOP (R213): completes on issue. -/
def execNop (c : CoreId) (s : State) : Out :=
  effect (fun s => match issuedOp s c (isOp 0x00) with
    | some x => opComplete s c x
    | none => s) s

/-- A 64-bit value of two descriptor words. -/
def w64 (ws : List Word32) (lo : Nat) : Word64 := BitVec.ofNat 64 ((ws.getD lo 0).toNat + (ws.getD (lo + 1) 0).toNat * 2 ^ 32)

/-- Whether a KNOT descriptor has a KOP (R192). -/
def isKnot (k : Nat) (ws : List Word32) : Bool := decide (opcode ws = 0x28) && decide (wfld ws 5 1 0 = k)

-- ## Stream ports (R186, R197)

/-- Key of CORE_PORT_n. -/
def portKey (c d : Nat) : Nat := coreKey c (0x120 + 4 * d)

/-- The port of the neighbour that faces port `d`. -/
def facing (d : Nat) : Nat := (d + 2) % 4

/-- Received units of a port. -/
def rxOf (s : State) (c d : Nat) : List (List Byte) := tget [] (coreOf s c).rx d

/-- Credits a sender holds (R186). -/
def txCredits (s : State) (c d : Nat) : Nat := rdF s (portKey c d) 5 0

/-- Received units of a port set, with RX_USED (R197). -/
def setRx (s : State) (c d : Nat) (us : List (List Byte)) : State :=
  let k := coreOf s c
  wrF (setCore s c { k with rx := tput k.rx d us }) (portKey c d) 13 8 us.length

/-- Whether the last received unit of a port is still being filled. -/
def isOpenRx (s : State) (c d : Nat) : Bool := (coreOf s c).rxOpen.contains d

/-- The last received unit of a port marked as still being filled, or closed. -/
def markRx (s : State) (c d : Nat) (open_ : Bool) : State :=
  let k := coreOf s c
  let ds := k.rxOpen.filter (· ≠ d)
  setCore s c { k with rxOpen := if open_ then d :: ds else ds }

/-- Units whose bytes have all been taken leave the port; their credits are owed to the sender (R186). -/
def dropEmpty (s : State) (c d : Nat) : State :=
  let us := rxOf s c d
  let n := us.length
  let keep := ((List.range n).zip us).filter fun p => !p.2.isEmpty || (decide (p.1 + 1 = n) && isOpenRx s c d)
  let k := coreOf s c
  let s1 := setCore s c { k with owe := tput k.owe d (tget 0 k.owe d + (n - keep.length)) }
  if keep.length = n then s else setRx s1 c d (keep.map Prod.snd)

/-- Bytes taken from the front of a port's units. -/
def takeUnits : Nat → List (List Byte) → List (List Byte)
  | _, [] => []
  | n, u :: r => u.drop n :: takeUnits (n - u.length) r

/-- `n` received bytes consumed. -/
def consumeRx (s : State) (c d n : Nat) : State := dropEmpty (setRx s c d (takeUnits n (rxOf s c d))) c d

/-- Bytes of one unit put into the neighbour's buffer: into the open unit, or against a credit into a fresh one; `more` leaves the unit open. The neighbour wakes (R186, R379). -/
def pushUnit (s : State) (c d : Nat) (fresh : Bool) (bs : List Byte) (more : Bool) : State :=
  match neighbour c d with
  | none => s
  | some n =>
    let f := facing d
    let us := rxOf s n f
    let s1 := if fresh then wrF (setRx s n f (us ++ [bs])) (portKey c d) 5 0 (txCredits s c d - 1)
      else setRx s n f (us.dropLast ++ [us.getLastD [] ++ bs])
    let s2 := markRx s1 n f more
    let s3 := if rd s2 (coreKey n 0x38) = 1 then wr s2 (coreKey n 0x38) 0 else s2
    if more then s3 else dropEmpty s3 n f

/-- Bytes of a producing transfer sent from stream position `pos` on, unit by unit (R186); `last` closes the transfer. The caller has made sure of the credits. -/
def sendBytes (c d : Nat) : Nat → State → Nat → List Byte → Bool → State
  | 0, s, _, _, _ => s
  | f + 1, s, pos, bs, last =>
    if bs.isEmpty then s
    else
      let room := 2048 - pos % 2048
      let u := bs.take room
      let r := bs.drop room
      let closed := decide (u.length = room) || (last && r.isEmpty)
      sendBytes c d f (pushUnit s c d (decide (pos % 2048 = 0)) u (!closed)) (pos + u.length) r last

/-- Bytes a producing transfer at stream position `pos` may send now. -/
def sendRoom (s : State) (c d pos : Nat) : Nat := txCredits s c d * 2048 + (if pos % 2048 = 0 then 0 else 2048 - pos % 2048)

/-- A port field resolved on a core (R187): 0-3 directions, 4 CHAIN_IN, 5 CHAIN_OUT; none for NONE. -/
def portDir (s : State) (c p : Nat) : Option Nat :=
  let d := if p = 4 then rdF s (coreKey c 0x108) 2 0 else if p = 5 then rdF s (coreKey c 0x108) 6 4 else p
  if d < 4 then some d else none

end Sys2Proof.Machine
end

