-- ==== Sys2Proof/Machine/Creel.lean ====
section
/-! DEFINITION. The creel, picks and pre-emption's pick (R228-R242, R246, R253-R255). -/

namespace Sys2Proof.Machine

/-- Step kind of a request (R149): true for DELTA. -/
def stepDelta (refresh : Nat) (ref : Word64) (step : Nat) : Bool :=
  !(decide (refresh ≤ 1) || decide (ref = 0) || decide (step % refresh = 0))

/-- The entry an admission image describes (R229). -/
def creelOfImage (s : State) (l : Nat) (b : List Byte) : CreelEnt :=
  { reqTag := BitVec.ofNat 64 (fieldLe b 0 8), loom := l, state := 1, guide := bitOf (byteAt b 10) 5
    prio := bitsOf (byteAt b 11) 2 0, cls := bitsOf (byteAt b 11) 5 4, batchKey := BitVec.ofNat 32 (fieldLe b 12 4)
    step := fieldLe b 16 4, stepCount := fieldLe b 20 4, refresh := fieldLe b 24 4, chunk := fieldLe b 28 4
    chunkCount := fieldLe b 32 4, rows := fieldLe b 36 4, schedPtr := BitVec.ofNat 64 (fieldLe b 40 8)
    latentPtr := BitVec.ofNat 64 (fieldLe b 48 8), condPtr := BitVec.ofNat 64 (fieldLe b 56 8)
    bobbinPtr := BitVec.ofNat 64 (fieldLe b 64 8), deltaRefPtr := BitVec.ofNat 64 (fieldLe b 72 8)
    outBoltAddr := BitVec.ofNat 64 (fieldLe b 80 8), outBoltBytes := BitVec.ofNat 32 (fieldLe b 88 4)
    outSubmit := fieldLe b 92 3 % 2 ^ 18, outRing := fieldLe b 96 3 % 2 ^ 18, codecCh := byteAt b 100
    outParam := BitVec.ofNat 64 (fieldLe b 104 8), deadline := BitVec.ofNat 64 (fieldLe b 112 8), admitSeq := s.admitSeq
    condKnot := fieldLe b 128 2, condValue := BitVec.ofNat 64 (fieldLe b 136 8), admitTime := s.time }

/-- Whether a reserved field of an admission image is non-zero (R229); fields the part writes are ignored. -/
def imageReserved (b : List Byte) : Bool :=
  decide (bitsOf (byteAt b 10) 7 6 ≠ 0) || bitOf (byteAt b 11) 3 || decide (bitsOf (byteAt b 11) 7 6 ≠ 0) ||
  decide (2 ^ 18 ≤ fieldLe b 92 4) || decide (2 ^ 18 ≤ fieldLe b 96 4) || decide (bitsOf (byteAt b 100) 6 3 ≠ 0) ||
  !zeros b 101 104 || !zeros b 130 136 || !zeros b 168 256

/-- The 256 bytes of an entry (R229). -/
def creelBytes (e : CreelEnt) : List Byte :=
  toLe 8 e.reqTag.toNat ++ toLe 2 e.loom ++ toLe 1 (e.state + 16 * b2n e.cancelPend + 32 * b2n e.guide) ++
  toLe 1 (e.prio + 16 * e.cls) ++ toLe 4 e.batchKey.toNat ++ toLe 4 e.step ++ toLe 4 e.stepCount ++ toLe 4 e.refresh ++
  toLe 4 e.chunk ++ toLe 4 e.chunkCount ++ toLe 4 e.rows ++ toLe 8 e.schedPtr.toNat ++ toLe 8 e.latentPtr.toNat ++
  toLe 8 e.condPtr.toNat ++ toLe 8 e.bobbinPtr.toNat ++ toLe 8 e.deltaRefPtr.toNat ++ toLe 8 e.outBoltAddr.toNat ++
  toLe 4 e.outBoltBytes.toNat ++ toLe 4 e.outSubmit ++ toLe 4 e.outRing ++ toLe 1 e.codecCh ++ toLe 3 0 ++
  toLe 8 e.outParam.toNat ++ toLe 8 e.deadline.toNat ++ toLe 8 e.admitSeq ++ toLe 2 e.condKnot ++ toLe 6 0 ++
  toLe 8 e.condValue.toNat ++ toLe 8 e.admitTime.toNat ++ toLe 8 e.doneTime.toNat ++ toLe 4 e.picks ++ toLe 4 e.parks ++
  List.replicate 88 0

/-- The loaded key record for a batch key: the lower index wins (R20, R235), with its index. -/
def keyFor (s : State) (l : Nat) (k : Word32) : Option (Nat × KeyRec) :=
  let ks := (loomOf s l).keys
  ((List.range ks.length).zip ks).find? fun p => decide (p.2.key = k)

/-- Step kinds a request will take (R149): FULL always (its first or refreshed step), DELTA when some step is not FULL. -/
def takesDelta (e : CreelEnt) : Bool :=
  decide (1 < e.refresh) && decide (e.deltaRefPtr ≠ 0) &&
  (decide (1 < e.chunkCount - e.chunk) || decide (e.step % e.refresh ≠ 0) || decide (e.step + 1 < e.stepCount))

/-- Whether the request takes a FULL step (R149). -/
def takesFull (e : CreelEnt) : Bool :=
  decide (e.refresh ≤ 1) || decide (e.deltaRefPtr = 0) || decide (1 < e.chunkCount - e.chunk) ||
  decide (roundUp e.step e.refresh < e.stepCount)

/-- Ring of a pick setting (R254): offset in the loom page. -/
def pickRing (s : State) (l off : Nat) : Nat := rdF s (loomKey l off) 17 0

/-- The first failing check of an admission (R232), 0 when none fails. -/
def admitCheck (s : State) (l : Nat) (b : List Byte) : Nat :=
  let e := creelOfImage s l b
  let inLoom := fun r => within r 1 (ringBase s l) (lvF s l 0x114 18 0)
  let sub := ringOf s e.outSubmit
  if imageReserved b || decide (e.cls = 3) || decide (e.stepCount = 0) || decide (65536 < e.stepCount) ||
     decide (e.chunkCount = 0) || decide (e.rows = 0) || decide (16777216 < e.rows) ||
     decide (e.stepCount ≤ e.step) || decide (e.chunkCount ≤ e.chunk) then 2
  else match keyFor s l e.batchKey with
    | none => 3
    | some (_, k) =>
      if (takesFull e && decide (k.fullAddr = 0)) || (takesDelta e && decide (k.deltaAddr = 0)) then 3
      else if k.budget < e.rows * (1 + b2n e.guide) then 4
      else if s.creel.any fun p => decide (p.2.loom = l) && decide (p.2.reqTag = e.reqTag) then 5
      else if !(inLoom e.outSubmit && sub.enable && decide (sub.kind = 0)) ||
              decide (e.outSubmit = pickRing s l 0x494) || decide (e.outSubmit = pickRing s l 0x49C) ||
              !(inLoom e.outRing && decide ((ringOf s e.outRing).kind = 4)) ||
              !(bitOf e.codecCh 7 || bitOf (lvF s l 0x128 15 0) (8 + e.codecCh % 8)) ||
              !(decide (e.condKnot = 0xFFFF) || knotInLoom s l e.condKnot) then 6
      else 0

/-- Lowest FREE creel index (R228). -/
def creelFree (s : State) : Option Nat :=
  (List.range (s.creel.length + 1)).find? fun i => (tfind s.creel i).isNone

/-- A creel entry of a ring ends with a result code and a creel index (R234). -/
def endCreel (s : State) (e : Entry) (status code idx : Nat) : State :=
  let e1 := { e with firstFail := BitVec.ofNat 32 code, opsDone := BitVec.ofNat 32 idx }
  let s1 := updEntry s e.ring e.seq fun x => { x with firstFail := e1.firstFail, opsDone := e1.opsDone, id := e.id }
  endEntry s1 e1 status

/-- A new creel entry: the cache holds it at once. -/
def newCreel (s : State) (i : Nat) (e : CreelEnt) : State := { creelHold s i with creel := tput s.creel i e }

/-- CREEL_ADMIT (R232, R228, R230): image read and checked; while the quota is full the admission waits, its record's BOLT_ID already the image's REQ_TAG (R234). -/
def execCreelAdmit (r : RingId) (s : State) : Out :=
  effect (asking fun s =>
    match headEntry s r with
    | none => s
    | some e =>
      if entKind e ≠ 2 ∨ e.phase ≠ .fetched ∨ blockClosed s .creel then s
      else match loomReadAcross s ⟨0x022, 0, r⟩ e.loom (fieldLe e.bytes 8 8) 256 with
        | (s1, .error _) => endCreel s1 e 8 1 0xFFFFFFFF
        | (s1, .ok b) =>
          let e1 := { e with id := BitVec.ofNat 64 (fieldLe b 0 8) }
          let code := admitCheck s1 e.loom b
          if code ≠ 0 then endCreel s1 e1 8 code 0xFFFFFFFF
          else if creelFull s1 e.loom then updEntry s1 e.ring e.seq fun _ => e1
          else match creelFree s1 with
            | none => updEntry s1 e.ring e.seq fun _ => e1
            | some i =>
              if 262144 ≤ i then updEntry s1 e.ring e.seq (fun _ => e1) else
              let s2 := newCreel s1 i (creelOfImage s1 e.loom b)
              endCreel (addCnt { s2 with admitSeq := s2.admitSeq + 1 } 0x2210C 1) e1 0 0 i) s

/-- Posts a request's event: INFO0 the tag, INFO1 as given (R253). -/
def reqEvent (s : State) (e : CreelEnt) (typ info1 : Nat) : State :=
  produce s e.loom typ 0x022 0 e.reqTag (BitVec.ofNat 64 info1)

/-- An entry becomes CANCELLED, with its event (R230, R253). -/
def cancelEntry (s : State) (i : Nat) (e : CreelEnt) : State :=
  reqEvent (setCreel s i { e with state := 7, cancelPend := false }) e 0x22 i

/-- CREEL_CANCEL (R233). -/
def execCreelCancel (r : RingId) (s : State) : Out :=
  effect (awake <| posting fun s =>
    match headEntry s r with
    | none => s
    | some e =>
      if entKind e ≠ 3 ∨ e.phase ≠ .fetched then s
      else match s.creel.find? fun p => decide (p.2.loom = e.loom) && decide (p.2.reqTag.toNat = fieldLe e.bytes 8 8) with
        | none => endCreel s e 8 7 0xFFFFFFFF
        | some (i, c) =>
          if c.state = 1 ∨ c.state = 2 then endCreel (cancelEntry s i c) e 0 0 i
          else if c.state = 3 ∨ c.state = 4 then endCreel (setCreel s i { c with cancelPend := true }) e 0 9 i
          else if c.state = 5 then endCreel s e 0 8 i
          else endCreel s e 8 7 0xFFFFFFFF) s

/-- COND_RELEASE (R230): an ADMITTED entry whose knot condition holds becomes READY. -/
def execCondRelease (i : CreelId) (s : State) : Out :=
  effect (awake fun s =>
    match tfind s.creel i with
    | none => s
    | some e =>
      if e.state = 1 ∧ (e.condKnot = 0xFFFF ∨ e.condValue.toNat ≤ (knotOf s e.condKnot).toNat) then setCreel s i { e with state := 2 } else s) s

/-- A creel entry freed. -/
def freeCreel (s : State) (i : Nat) : State := { s with creel := tdel s.creel i, creelCache := s.creelCache.filter (· ≠ i) }

/-- ENTRY_FREE (R230): a DONE entry once its last output bolt's record is written; a FAILED or CANCELLED one once its event is queued. -/
def execEntryFree (i : CreelId) (s : State) : Out :=
  effect (awake fun s =>
    match tfind s.creel i with
    | none => s
    | some e =>
      let queued := !((tget [] s.produced e.loom).any fun v =>
        (decide (v.type = 0x21) || decide (v.type = 0x22)) && decide (v.info0 = e.reqTag))
      if (e.state = 5 ∧ e.outs = 0) ∨ ((e.state = 6 ∨ e.state = 7) ∧ queued) then freeCreel s i else s) s

/-- Keys of a creel read window (R255, R273). -/
def creelKeys : Window → Nat × Nat × Nat
  | .pf0 => (0x22100, 0x22104, 0x22200)
  | .loom l => (stPage l + 0x100, stPage l + 0x104, stPage l + 0x200)

/-- The read of a creel entry into the data registers (R255, R273): a loom's window reads its own entries only. -/
def opCreelRead (s : State) (w : Window) : State :=
  if !windowOpen s w then s else
  let (ki, kc, kd) := creelKeys w
  let i := rdF s ki 17 0
  match w, tfind s.creel i with
  | .pf0, some e => loadRegs (wrB (creelTouch s i) kc 30 false) kd 64 (creelBytes e)
  | .pf0, none => loadRegs (wrB s kc 30 false) kd 64 []
  | .loom l, some e => if e.loom = l.val then loadRegs (wrB (creelTouch s i) kc 30 false) kd 64 (creelBytes e) else wrB s kc 30 true
  | .loom _, none => wrB s kc 30 true

/-- CREEL_READ (R255). -/
def execCreelRead (w : Window) (s : State) : Out :=
  effect (fun s => match w with
    | .pf0 => onPage 0x22000 0x104 (fun s => opCreelRead s .pf0) s
    | .loom l => opCreelRead s (.loom l)) s

-- ## Picks (R235-R239, R246)

/-- Whether candidate `a` comes before `b` (R237). -/
def candBefore (a b : Nat × CreelEnt) : Bool :=
  if a.2.prio ≠ b.2.prio then decide (b.2.prio < a.2.prio)
  else if a.2.deadline ≠ b.2.deadline then
    (if a.2.deadline = 0 then false else if b.2.deadline = 0 then true else decide (a.2.deadline.toNat < b.2.deadline.toNat))
  else if a.2.admitSeq ≠ b.2.admitSeq then decide (a.2.admitSeq < b.2.admitSeq)
  else decide (a.1 < b.1)

/-- Insertion in candidate order. -/
def candInsert (x : Nat × CreelEnt) : List (Nat × CreelEnt) → List (Nat × CreelEnt)
  | [] => [x]
  | y :: r => if candBefore x y then x :: y :: r else y :: candInsert x r

/-- Candidates of a loom in order (R236, R237). -/
def candidates (s : State) (l : Nat) : List (Nat × CreelEnt) :=
  ((s.creel.filter fun p => decide (p.2.loom = l) && decide (p.2.state = 2) && !p.2.cancelPend)).foldr candInsert []

/-- Rows of a member (R237). -/
def memberRows (e : CreelEnt) : Nat := e.rows * (1 + b2n e.guide)

/-- The walk of R237: members of the group whose rows fit, in order, until the limit. -/
def walkPick (key : Word32) (delta : Bool) : Nat → Nat → List (Nat × CreelEnt) → List (Nat × CreelEnt)
  | _, _, [] => []
  | budget, limit, p :: r =>
    if limit = 0 then []
    else if p.2.batchKey = key ∧ stepDelta p.2.refresh p.2.deltaRefPtr p.2.step = delta ∧ memberRows p.2 ≤ budget then
      p :: walkPick key delta (budget - memberRows p.2) (limit - 1) r
    else walkPick key delta budget limit r

/-- The header entry of a pick (R238). -/
def pickHeader (seq count rows : Nat) (key : Word32) (delta urgent : Bool) (keyIdx : Nat) (t : Word64) : List Byte :=
  toLe 8 seq ++ toLe 4 count ++ toLe 4 rows ++ toLe 4 key.toNat ++ toLe 1 (b2n delta + 2 * b2n urgent) ++ toLe 1 0 ++
  toLe 2 keyIdx ++ toLe 8 t.toNat ++ List.replicate 32 0

/-- A member entry of a pick (R238). -/
def pickMember (i : Nat) (e : CreelEnt) (row0 : Nat) (delta : Bool) : List Byte :=
  toLe 4 i ++ toLe 4 e.step ++ toLe 4 e.chunk ++ toLe 4 row0 ++ toLe 4 (memberRows e) ++
  toLe 1 (b2n e.guide + 2 * b2n delta + 4 * b2n (decide (e.step + 1 = e.stepCount)) + 8 * e.cls + 32 * e.prio) ++ toLe 3 0 ++
  toLe 8 e.schedPtr.toNat ++ toLe 8 e.latentPtr.toNat ++ toLe 8 e.condPtr.toNat ++ toLe 8 e.bobbinPtr.toNat ++ toLe 8 e.deltaRefPtr.toNat

/-- Member entries with consecutive rows (R238). -/
def pickMembers (delta : Bool) : Nat → List (Nat × CreelEnt) → List (List Byte)
  | _, [] => []
  | row, p :: r => pickMember p.1 p.2 row delta :: pickMembers delta (row + memberRows p.2) r

/-- A BOLT entry (R208). -/
def boltEntryBytes (addr : Word64) (bytes : Nat) (id : Word64) (notify : Bool) : List Byte :=
  toLe 1 1 ++ toLe 1 (b2n notify) ++ toLe 6 0 ++ toLe 8 addr.toNat ++ toLe 4 bytes ++ toLe 4 0 ++ toLe 8 id.toNat ++ List.replicate 32 0

/-- The pick builder of a loom as a unit. -/
def buildWho (l : Nat) : Who := ⟨0x023, 0, l⟩

/-- The pick that candidates make, and its members (R237, R238): none while its rings are disabled, and when no candidate fits. -/
def planPick (s : State) (l : Nat) (cs : List (Nat × CreelEnt)) (urgent : Bool) : Option (Build × List (Nat × CreelEnt)) :=
  match cs with
  | [] => none
  | (_, h) :: _ =>
    let sub := pickRing s l (if urgent then 0x49C else 0x494)
    let pr := pickRing s l (if urgent then 0x4A0 else 0x498)
    let delta := stepDelta h.refresh h.deltaRefPtr h.step
    match keyFor s l h.batchKey with
    | none => none
    | some (ki, k) =>
      let lim := min (min k.limit (rdF s (loomKey l 0x480) 18 10)) (ringSize (ringOf s pr) - 1)
      let ms := walkPick h.batchKey delta k.budget lim cs
      if ms.isEmpty || !(ringOf s pr).enable || !(ringOf s sub).enable then none
      else
        let n := (loomOf s l).pickSeq
        let rows := ms.foldl (fun a p => a + memberRows p.2) 0
        let a := if delta then k.deltaAddr else k.fullAddr
        let z := if delta then k.deltaBytes else k.fullBytes
        some ({ pick := { seq := n, urgent := urgent, delta := delta, members := ms.map Prod.fst, submit := sub, ring := pr
                          hi := ms.foldl (fun m p => max m p.2.prio) 0 }
                todo := pickHeader n ms.length rows h.batchKey delta urgent ki s.time :: pickMembers delta 0 ms
                post := boltEntryBytes a z (BitVec.ofNat 64 n) false }, ms)

/-- A pick begun (R237): its members are IN_PICK and it is outstanding; an urgent one shows in LOOM_PICK_STAT (R254). -/
def beginPick (s : State) (l : Nat) (b : Build) (ms : List (Nat × CreelEnt)) : State :=
  let s1 := ms.foldl (fun t p => setCreel t p.1 { p.2 with state := 3, picks := p.2.picks + 1 }) s
  let x := loomOf s1 l
  let s2 := setLoom s1 l { x with pickSeq := x.pickSeq + 1, picks := x.picks ++ [b.pick], lastBuild := some s.time, build := some b }
  if b.pick.urgent then wrB s2 (loomKey l 0x4A8) 2 true else s2

/-- Entries written to a ring while it has space, and those that are left. -/
def putEntries (w : Who) (l r : Nat) : List (List Byte) → State → State × List (List Byte)
  | [], s => (s, [])
  | b :: bs, s =>
    match tryPush s w l r b with
    | (t, true) => putEntries w l r bs t
    | (t, false) => (t, b :: bs)

/-- The pick in hand written to its ring as space comes; once it is whole its BOLT entry is posted (R238). -/
def writePick (s : State) (l : Nat) : State :=
  match (loomOf s l).build with
  | none => s
  | some b =>
    match putEntries (buildWho l) l b.pick.ring b.todo s with
    | (t, []) => match tryPush t (buildWho l) l b.pick.submit b.post with
      | (u, true) => setLoom u l { loomOf u l with build := none }
      | (u, false) => setLoom u l { loomOf u l with build := some { b with todo := [] } }
    | (t, r) => setLoom t l { loomOf t l with build := some { b with todo := r } }

/-- AHEAD in force: 0 at shedding level S1 and above (R236, R390). -/
def aheadNow (s : State) (l : Nat) : Nat := if 1 ≤ shedLevel s then 0 else rdF s (loomKey l 0x480) 1 1

/-- Whether the builder may build (R236, R261, R262, R390). -/
def mayBuild (s : State) (l : Nat) : Bool :=
  let x := loomOf s l
  decide (loomSt s l = 2) && !x.paused && fbit (rd s (loomKey l 0x480)) 0 &&
  decide ((x.picks.filter fun p => !p.urgent).length < aheadNow s l + 1) &&
  (match x.lastBuild with
   | none => true
   | some t => elapsedUs s.time t (rdF s (loomKey l 0x484) 31 16))

/-- A pick built from candidates, or none (R237, R238). -/
def buildPick (s : State) (l : Nat) (cs : List (Nat × CreelEnt)) (urgent : Bool) : Option State :=
  (planPick s l cs urgent).map fun p => writePick (beginPick s l p.1 p.2) l

/-- PICK_BUILD (R236-R238): the pick in hand goes on, or a new one is built. -/
def execPickBuild (l : LoomId) (s : State) : Out :=
  effect (asking fun s =>
    if (loomOf s l).build.isSome then (if loomSt s l = 2 ∨ loomSt s l = 3 then writePick s l else s)
    else if blockClosed s .pick then s
    else if mayBuild s l then (buildPick s l (candidates s l) false).getD s else s) s

/-- The outstanding pick of a running, unparked step bolt of a loom, with its entry (R246). -/
def runningStep (s : State) (l : Nat) : Option (Pick × Entry) :=
  ((loomOf s l).picks.filter fun p => !p.urgent).findSome? fun p =>
    (s.entries.find? fun e => decide (e.ring = p.submit) && decide (e.id.toNat = p.seq) && decide (e.phase = .running) &&
      e.bolt.any fun b => !b.parked).map fun e => (p, e)

/-- Candidates that may pre-empt a pick (R246). -/
def urgentCands (s : State) (l : Nat) (p : Pick) : List (Nat × CreelEnt) :=
  (candidates s l).filter fun c => decide (rdF s (loomKey l 0x480) 5 3 ≤ c.2.prio) && decide (p.hi < c.2.prio)

/-- PARK_STATE of a loom: 2 with a bolt parked, 1 with a park under way (R254). -/
def syncPark (s : State) (l : Nat) : State :=
  wrF s (loomKey l 0x4A8) 1 0 ((loomOf s l).parks.foldl (fun m p => max m p.st) 0)

/-- The park of a bolt changed, or dropped. -/
def updPark (s : State) (l r : Nat) (q : Word32) (f : Park → Option Park) : State :=
  let x := loomOf s l
  syncPark (setLoom s l { x with parks := x.parks.filterMap fun p => if p.ring = r ∧ p.seq = q then f p else some p }) l

/-- A park begins (R247, R251, R252): every core of the bolt is asked to stop. -/
def beginPark (s : State) (l : Nat) (e : Entry) (b : Bolt) (why : ParkWhy) (asker : Nat) : State :=
  let x := loomOf s l
  let s1 := syncPark (setLoom s l { x with parks := x.parks ++ [{ ring := e.ring, seq := e.seq, why := why, since := s.time, asker := asker }] }) l
  let s2 := updEntry s1 e.ring e.seq fun y => { y with bolt := some { b with stop := .park } }
  (boltCores b).foldl askStop s2

/-- A bolt asked to park (R246, R251): a park of it under way for another reason serves, and becomes no recovery park. A bolt that stops to end does not park. -/
def askPark (s : State) (l : Nat) (e : Entry) (why : ParkWhy) : State :=
  match e.bolt, parkFor s l e.ring e.seq with
  | some _, some _ => updPark s l e.ring e.seq fun p => some (if p.why = .recovery then { p with why := why } else p)
  | some b, none => if b.stop = .none ∨ b.stop = .halt then beginPark s l e b why 0 else s
  | none, _ => s

/-- PREEMPT_RAISE (R246): the urgent pick is built, and parking begins; an urgent pick in hand goes on. -/
def execPreemptRaise (l : LoomId) (s : State) : Out :=
  effect (asking fun s =>
    let x := loomOf s l
    if x.build.isSome then (if loomSt s l = 2 ∨ loomSt s l = 3 then writePick s l else s)
    else if blockClosed s .pick || !(decide (loomSt s l = 2) && !x.paused && fbit (rd s (loomKey l 0x480)) 2) || x.picks.any fun p => p.urgent then s
    else match runningStep s l with
      | none => s
      | some (p, e) => match buildPick s l (urgentCands s l p) true with
        | none => s
        | some s1 => askPark (setLoom s1 l { loomOf s1 l with urgents := 1 }) l e .urgent) s

/-- The pick of a ring whose header holds a PICK_SEQ: its first entry and its COUNT, from entry `i` of those held on (R238, R239). -/
def findPick (w : Who) (l r seq : Nat) : Nat → State → Nat → State × Except AccErr (Option (Nat × Nat))
  | 0, s, _ => (s, .ok none)
  | f + 1, s, i =>
    let g := ringOf s r
    if ringHeld g ≤ i then (s, .ok none)
    else match loomRead s w l (ringSlot g (g.rp + BitVec.ofNat 32 i)) 64 with
      | (t, .error e) => (t, .error e)
      | (t, .ok b) => if fieldLe b 0 8 = seq then (t, .ok (some (i, fieldLe b 8 4))) else findPick w l r seq f t (i + fieldLe b 8 4 + 1)

/-- Consecutive records of a ring, joined. -/
def ringRead (w : Who) (l r : Nat) : Nat → State → Nat → List Byte → State × Except AccErr (List Byte)
  | 0, s, _, acc => (s, .ok acc)
  | n + 1, s, i, acc =>
    let g := ringOf s r
    match loomRead s w l (ringSlot g (g.rp + BitVec.ofNat 32 i)) 64 with
    | (t, .error e) => (t, .error e)
    | (t, .ok b) => ringRead w l r n t (i + 1) (acc ++ b)

/-- The pick ring paired with a submitting ring (R254). -/
def pairedPick (s : State) (l sub : Nat) : Option Nat :=
  if sub = pickRing s l 0x494 then some (pickRing s l 0x498)
  else if sub = pickRing s l 0x49C then some (pickRing s l 0x4A0) else none

/-- The first `cap` entries of a bolt's pick, or 64 zero bytes when it has none (R239). -/
def pickCopy (s : State) (w : Who) (e : Entry) (cap : Nat) : State × Except AccErr (List Byte) :=
  match pairedPick s e.loom e.ring with
  | none => (s, .ok (List.replicate 64 0))
  | some pr =>
    match findPick w e.loom pr e.id.toNat (ringHeld (ringOf s pr)) s 0 with
    | (t, .error x) => (t, .error x)
    | (t, .ok none) => (t, .ok (List.replicate 64 0))
    | (t, .ok (some (i, n))) => ringRead w e.loom pr (min cap (n + 1)) t i []

/-- PICK_GET (R239). -/
def execPickGet (c : CoreId) (s : State) : Out :=
  effect (asking fun s =>
    match issuedOp s c (isOp 0x32), coreBolt s c with
    | some x, some (e, _) =>
      match pickCopy s (coreWho c x.idx) e (wfld x.words 6 8 0) with
      | (t, .error er) => opAccessErr t c x er
      | (t, .ok bs) => opFinish (spWr t c (wfld x.words 5 17 0 * 128) bs) c x
    | _, _ => s) s

-- ## Advancing (R240, R241)

/-- The hand-off record (R241). -/
def handoffBytes (i : Nat) (e : CreelEnt) : List Byte :=
  toLe 8 e.reqTag.toNat ++ toLe 4 i ++ toLe 4 e.chunk ++ toLe 8 e.latentPtr.toNat ++ toLe 8 e.condPtr.toNat ++ toLe 4 e.outRing ++
  toLe 1 e.codecCh ++ toLe 1 (b2n (decide (e.chunk + 1 = e.chunkCount))) ++ List.replicate 26 0

/-- A finished chunk whose hand-off record is written and whose output bolt is posted (R240). -/
def chunkDone (s : State) (i : Nat) (e : CreelEnt) : State :=
  if e.chunk + 1 < e.chunkCount then
    setCreel s i { e with chunk := e.chunk + 1, step := 0, state := 2, outs := e.outs + 1 }
  else reqEvent (setCreel s i { e with step := e.step + 1, state := 5, doneTime := s.time, outs := e.outs + 1 }) e 0x20 i

/-- A member whose hand-off record cannot be written (R241): the event of the access names the operation that made it. -/
def handoffFault (s : State) (c : Nat) (x : Slot) (i : Nat) (e : CreelEnt) (er : AccErr) : State :=
  let s1 := setCreel s i { e with step := e.step + 1, state := 6 }
  let s2 := if er.status = 3 then postAccessFault s1 e.loom er.addr x.idx c 0x040 c else postFetchError s1 e.loom er 0x040 c
  reqEvent s2 e 0x21 (3 + i * 2 ^ 32)

/-- The end of a member's chunk (R240, R241): its hand-off record, then its output bolt's entry. False while the output ring cannot take the entry. -/
def endChunk (s : State) (c : Nat) (x : Slot) (i : Nat) (e : CreelEnt) : State × Bool :=
  let w := coreWho c x.idx
  if !ringOpen s w e.loom e.outSubmit 1 then (s, false)
  else match badSlot s e.loom e.outSubmit with
    | some a => (ringFaultAt s e.loom e.outSubmit a, false)
    | none => match loomWrite s w e.loom e.outParam.toNat (handoffBytes i e) with
      | (t, some er) => (handoffFault t c x i e er, true)
      | (t, none) => match tryPush t w e.loom e.outSubmit (boltEntryBytes e.outBoltAddr e.outBoltBytes.toNat e.reqTag true) with
        | (u, true) => (chunkDone u i e, true)
        | (u, false) => (u, false)

/-- One member advanced (R240): false while it waits. -/
def advanceOne (s : State) (c : Nat) (x : Slot) (i : Nat) (e : CreelEnt) : State × Bool :=
  if e.cancelPend then (cancelEntry s i { e with step := e.step + 1 }, true)
  else if e.step + 1 < e.stepCount then (setCreel s i { e with step := e.step + 1, state := 2 }, true)
  else endChunk s c x i e

/-- The creel entry of a member that stands as its pick copy names it (R240). -/
def stillMember (s : State) (l : Nat) (b : List Byte) : Option (Nat × CreelEnt) :=
  match tfind s.creel (fieldLe b 0 4) with
  | some e => if e.state = 3 ∧ e.loom = l ∧ e.step = fieldLe b 4 4 then some (fieldLe b 0 4, e) else none
  | none => none

/-- Members of a pick copy in scratchpad, from `pos` on (R240): stops where one waits, and tells where. A member whose accesses are not served does so at its own turn, once those before it are advanced. -/
def advanceFrom (c base l : Nat) (x : Slot) : Nat → State → Nat → State × Nat × Bool
  | 0, s, pos => (s, pos, true)
  | n + 1, s, pos =>
    match stillMember s l (spRd s c (base + 64 * (pos + 1)) 64) with
    | none => advanceFrom c base l x n s (pos + 1)
    | some (i, e) =>
      match advanceOne s c x i e with
      | (t, ok) =>
        if t.trip.need.isSome && decide (x.pos < pos) then (s, pos, false)
        else if ok then advanceFrom c base l x n t (pos + 1) else (t, pos, false)

/-- An operation that goes on from part `pos`: from its first part done it commits (R240, R214). -/
def partDone (s : State) (c : Nat) (x : Slot) (pos : Nat) (all : Bool) : State :=
  if all then opFinish s c x
  else if pos = x.pos then s
  else beginCommit (updSlot s c x.idx fun y => { y with pos := pos }) c { x with pos := pos }

/-- CREEL_ADVANCE (R240): every member handled in order; while a ring lacks credit it waits and goes on where it stood. -/
def execCreelAdvance (c : CoreId) (s : State) : Out :=
  effect (asking fun s =>
    match issuedOp s c (isOp 0x31), coreBolt s c with
    | some x, some (e, _) =>
      let base := wfld x.words 5 17 0 * 128
      let n := min (fieldLe (spRd s c base 12) 8 4) 256
      let r := advanceFrom c base e.loom x (n - x.pos) s x.pos
      partDone r.1 c x r.2.1 r.2.2
    | _, _ => s) s

end Sys2Proof.Machine
end

