-- ==== Sys2Proof/Machine/Operands.lean ====
section
/-! DEFINITION. Stored elements (R25, R27, R28): how the bits of an element, a packed row and an MX block spell values, and back; and the operand forms of a core's scratchpad. -/

namespace Sys2Proof.Machine

/-- Element `i` of packed bytes, as bits: element 0 in the low bits (R28). -/
def elemAt (bits : Nat) (bs : List Byte) (i : Nat) : Nat :=
  fieldLe bs (i * bits / 8) 5 / 2 ^ (i * bits % 8) % 2 ^ bits

/-- Packs element bits into bytes, element 0 in the low bits (R28). -/
def packElems (bits : Nat) (xs : List Nat) : List Byte :=
  if bits % 8 = 0 then xs.flatMap (toLe (bits / 8))
  else packGroups (xs.length + 1) xs
where
  /-- Groups of four elements: three bytes for 6 bits, two for 4. -/
  packGroups : Nat → List Nat → List Byte
    | 0, _ => []
    | n + 1, ys =>
      if ys.isEmpty then []
      else toLe (bits / 2) (((ys.take 4).foldr (fun v a => v + 2 ^ bits * a) 0)) ++ packGroups n (ys.drop 4)

/-- Value of a floating element's bits (R25). -/
def decFloat (code w : Nat) : FVal :=
  let f := fspec code
  let s := bitOf w (f.eb + f.mb)
  let ex := w / 2 ^ f.mb % 2 ^ f.eb
  let mt := w % 2 ^ f.mb
  if (code = 3 ∨ code = 5) ∧ ex = 15 ∧ mt = 7 then .nan
  else if f.hasInf ∧ ex = 2 ^ f.eb - 1 then (if mt = 0 then .inf s else .nan)
  else if ex = 0 then .fin s mt (1 - f.bias - f.mb)
  else .fin s (mt + 2 ^ f.mb) ((ex : Int) - f.bias - f.mb)

/-- Canonical NaN of a format (R27). -/
def nanBits (code : Nat) : Nat :=
  if code = 0 then 0x7FC00000 else if code = 1 then 0x7FC0 else if code = 2 then 0x7E00
  else if code = 3 then 0x7F else if code = 4 then 0x7E else 0

/-- Bits of a representable value in a floating format (R25, R27). -/
def encFloat (code : Nat) (x : FVal) : Nat :=
  let f := fspec code
  let sg := fun (s : Bool) => b2n s * 2 ^ (f.eb + f.mb)
  match x with
  | .nan => nanBits code
  | .inf s => sg s + (2 ^ f.eb - 1) * 2 ^ f.mb
  | .fin s m e =>
    if m = 0 then sg s
    else
      let l : Int := (Nat.log2 m : Int) + e
      if l < f.emin then
        let k := e - (f.emin - f.mb)
        sg s + (if 0 ≤ k then shl m k else m / 2 ^ (-k).toNat)
      else
        let k := e - (l - f.mb)
        sg s + (l + f.bias).toNat * 2 ^ f.mb + ((if 0 ≤ k then shl m k else m / 2 ^ (-k).toNat) - 2 ^ f.mb)

/-- Signed value of `n`-bit two's complement. -/
def signed (n w : Nat) : Int := if 2 ^ (n - 1) ≤ w then (w : Int) - (2 ^ n : Nat) else w

/-- Integer of an integer element's bits (R25). -/
def decInt (code w : Nat) : Int := if code = 0xA then signed 8 w else if code = 0xB then signed 32 w else w

/-- Bits of an integer in an integer format. -/
def encInt (code : Nat) (v : Int) : Nat := (v % (2 ^ elemBits code : Nat)).toNat

/-- Value of an integer. -/
def ofInt (v : Int) : FVal := ofScaled v 0

/-- Whether an element's encoding is subnormal (R36). -/
def subElem (code w : Nat) : Bool :=
  let f := fspec code
  !isInt code && decide (w / 2 ^ f.mb % 2 ^ f.eb = 0) && decide (w % 2 ^ f.mb ≠ 0)

/-- Value of an element's bits in any format, before any block scale. -/
def decElem (code w : Nat) : FVal := if isInt code then ofInt (decInt code w) else decFloat code w

/-- Value of an element with its block's scale code (R28, R30): 2^(e − 127), or NaN for 0xFF. -/
def withScale (x : FVal) (sc : Nat) : FVal :=
  if sc = 255 then .nan
  else match x with
    | .fin s m e => .fin s m (e + (sc : Int) - 127)
    | y => y

/-- NAN_IN when an input is NaN (R43). -/
def noteNan (x : FVal) : FM FVal := do
  if isNan x then raiseFp fNanIn
  pure x

/-- DAZ: a subnormal input becomes a zero of its sign (R36). -/
def dazElem (daz : Bool) (code w : Nat) : FVal :=
  if daz && subElem code w then .fin (isNeg (decElem code w)) 0 0 else decElem code w

/-- Element `i` of a stored row as an exact value, with DAZ, its block scale where the format is MX, and NAN_IN (R36, R43). -/
def loadElem (code : Nat) (daz : Bool) (bs scales : List Byte) (i : Nat) : FM FVal :=
  let v := dazElem daz code (elemAt (elemBits code) bs i)
  noteNan (if isMx code then withScale v (byteAt scales (i / 32)) else v)

/-- Bits of a delivered element in a format that is not MX (R41). -/
def storeElem (code : Nat) (c : RCtl) (x : FVal) : FM Nat :=
  if isInt code then do pure (encInt code (← convInt code c.rm x))
  else do pure (encFloat code (← convFloat code c x))

/-- Cuts a list into pieces of `n`. -/
def pieces {α : Type} (n : Nat) : Nat → List α → List (List α)
  | 0, _ => []
  | k + 1, xs => if xs.isEmpty then [] else xs.take n :: pieces n k (xs.drop n)

/-- A row delivered in a format (R41, R42): element bytes, and scale bytes when it is MX. -/
def storeRow (code : Nat) (c : Nat → RCtl) (xs : List FVal) : FM (List Byte × List Byte) := do
  if isMx code then
    let bl := pieces 32 (xs.length + 1) xs
    let rs ← ((List.range bl.length).zip bl).mapM fun p => convMx code (fun i => c (32 * p.1 + i)) p.2
    pure (packElems (elemBits code) (rs.flatMap fun r => r.2.map (encFloat code)), rs.map fun r => BitVec.ofNat 8 r.1)
  else
    let ws ← ((List.range xs.length).zip xs).mapM fun p => storeElem code (c p.1) p.2
    pure (packElems (elemBits code) ws, [])

/-- FP32 bits as a value. -/
def ofF32 (w : Word32) : FVal := decFloat 0 w.toNat

/-- A value as FP32 bits. -/
def toF32 (x : FVal) : Word32 := BitVec.ofNat 32 (encFloat 0 x)

/-- FP32 values of a byte string. -/
def f32s (bs : List Byte) : List FVal := (bytesToWords (bs.length / 4) bs).map ofF32

/-- Bytes of FP32 values. -/
def f32Bytes (xs : List FVal) : List Byte := wordsToBytes (xs.map toF32)

-- ## NUM_CTRL (R37)

/-- RND of a numeric-control byte. -/
def ncRnd (b : Nat) : Nat := b % 4

/-- SATFINITE. -/
def ncSat (b : Nat) : Bool := bitOf b 2

/-- DAZ. -/
def ncDaz (b : Nat) : Bool := bitOf b 3

/-- FTZ. -/
def ncFtz (b : Nat) : Bool := bitOf b 4

/-- Rounding controls of output element (m, n) of rows of width `w` (R37, R39, R40). -/
def outCtl (nc seed w m n : Nat) : RCtl := { rm := rndOf (ncRnd nc) seed w m n, sat := ncSat nc, ftz := ncFtz nc }

end Sys2Proof.Machine
end

