-- ==== Sys2Proof/Machine/Collect.lean ====
section
/-! DEFINITION. The collective engine (R333-R346): groups, starting a collective, folding in rank order, moving data under grants, permutes, aborts and completion. One unit of work at a time; a command lets a collective do all the work it can. -/

namespace Sys2Proof.Machine

-- ## Failing (R344, R346)

/-- A collective aborts with a completion status, and COLL_ERROR when it has a cause (R344, R346). -/
def collFailWith (s : State) (r : CollRun) (status cause dev : Nat) : State :=
  let s1 := collKill s r
  let s2 := if cause = 0 then s1 else produce s1 r.loom 0x0060 0x061 0 (r.tag.setWidth 64) (BitVec.ofNat 64 (cause + dev * 2 ^ 32))
  match (coreOf s2 r.core).slots.find? fun x => decide (x.idx = r.idx) with
  | some x => opAbort s2 r.core x status (r.tag.setWidth 64) (BitVec.ofNat 64 cause)
  | none => s2

/-- A collective aborts with FETCH_ERROR and a cause (R344). -/
def collFail (s : State) (r : CollRun) (cause dev : Nat) : State := collFailWith s r 4 cause dev

/-- A collective aborts on an access outside the loom's windows, or on a failed one (R344, R182). -/
def collAccErr (s : State) (r : CollRun) (e : AccErr) : State :=
  let s1 := collFailWith s r e.status 0 0
  if e.status = 3 then postAccessFault s1 r.loom e.addr r.idx r.core 0x040 r.core else postFetchError s1 r.loom e 0x040 r.core

-- ## Geometry (R333, R337-R340)

/-- Whether an opcode reduces. -/
def reduces (op : Nat) : Bool := decide (op = 0x40) || decide (op = 0x41) || decide (op = 0x46)

/-- Elements that are folded. -/
def foldLen (r : CollRun) : Nat := if r.opcode = 0x41 then collTotal r else r.opn.nElem

/-- Largest power of two that divides `n`, looking at `f` bits. -/
def lowBit : Nat → Nat → Nat
  | 0, _ => 1
  | f + 1, n => if n % 2 = 1 ∨ n = 0 then 1 else 2 * lowBit f (n / 2)

/-- Ranks whose partials a rank folds, in order (R338, R340). -/
def collChildren (r : CollRun) (i : Nat) : List Nat :=
  let n := r.members.length
  if r.opn.algo = 0 then (if i = 0 then [] else [i - 1])
  else ((List.range 14).map fun k => 2 ^ k).filterMap fun st => if i % (2 * st) = 0 ∧ i + st < n then some (i + st) else none

/-- The rank that takes a rank's partial, if any (R338, R340). -/
def collParent (r : CollRun) (i : Nat) : Option Nat :=
  if r.opn.algo = 0 then (if i + 1 < r.members.length then some (i + 1) else none)
  else if i = 0 then none else some (i - lowBit 14 i)

/-- Elements of one chunk: 4 KiB of FP32 partials (log entry 22). -/
def chunkElems : Nat := 1024

/-- Chunks of a fold. -/
def foldChunks (r : CollRun) : Nat := cdiv (foldLen r) chunkElems

/-- Elements of chunk `c` of a fold. -/
def chunkLen (r : CollRun) (c : Nat) : Nat := min chunkElems (foldLen r - c * chunkElems)

/-- A 4 KiB move of a PERMUTE: source rank, source address, destination rank, destination address at their members (R342, R343). -/
def permChunks (r : CollRun) : List (Nat × Nat × Nat × Nat) :=
  r.moves.flatMap fun m => (List.range (m.2.2.2.2 / 4096)).map fun i => (m.1, r.src + m.2.2.1 + 4096 * i, m.2.1, r.dst + m.2.2.2.1 + 4096 * i)

/-- Chunks that rank `i` will receive from rank `p` (R337, R340). -/
def expected (r : CollRun) (p : Nat) : Nat :=
  let es := collElem r
  if p = r.rank then 0
  else if reduces r.opcode then
    (if (collChildren r r.rank).contains p then foldChunks r else 0) + (if collParent r r.rank = some p then foldChunks r else 0)
  else if r.opcode = 0x42 then cdiv (collCount r p * es) 4096
  else if r.opcode = 0x43 then cdiv (collCount r r.rank * es) 4096
  else if r.opcode = 0x44 then (if p = r.opn.root then cdiv (r.opn.nElem * es) 4096 else 0)
  else 0

/-- Bytes this member sends rank `p` without a fold, at their SRC offset (R337). -/
def sendRange (r : CollRun) (p : Nat) : Nat × Nat :=
  let es := collElem r
  if p = r.rank then (0, 0)
  else if r.opcode = 0x42 then (0, collCount r r.rank * es)
  else if r.opcode = 0x43 then (collOff r p * es, collCount r p * es)
  else if r.opcode = 0x44 then (if r.rank = r.opn.root then (0, r.opn.nElem * es) else (0, 0))
  else (0, 0)

/-- DST offset and length of the block that rank `p` sends (R337). An ALL_TO_ALL block from `p` lies at p × COUNT_r. -/
def recvRange (r : CollRun) (p : Nat) : Nat × Nat :=
  let es := collElem r
  if r.opcode = 0x42 then (collOff r p * es, collCount r p * es)
  else if r.opcode = 0x43 then (p * collCount r r.rank * es, collCount r r.rank * es)
  else (0, r.opn.nElem * es)

-- ## The run record

/-- The run of an operation. -/
def runAt (s : State) (core idx : Nat) : Option CollRun :=
  s.coll.runs.find? fun r => decide (r.core = core) && decide (r.idx = idx)

/-- A run replaced. -/
def setRun (s : State) (r : CollRun) : State :=
  { s with coll := { s.coll with runs := s.coll.runs.map fun x => if x.core = r.core ∧ x.idx = r.idx then r else x } }

/-- The key of a collective's messages from this member (R339, R341). -/
def runKey (r : CollRun) : CollKey :=
  { fromDev := BitVec.ofNat 14 r.dev, loom := Fin.ofNat 32 r.loom, group := r.group, tag := r.tag }

/-- Rank of a device in a run's group. -/
def rankOf (r : CollRun) (d : Nat) : Option Nat := (List.range r.members.length).find? fun i => (r.members[i]?).any fun m => decide (m.1 = d)

/-- Ranks other than one's own. -/
def partnerRanks (r : CollRun) : List Nat := (List.range r.members.length).filter (· ≠ r.rank)

/-- A chunk sent to a rank, which has granted it (R339). -/
def sendChunk (s : State) (r : CollRun) (p chunk : Nat) (fl : BitVec 6) (result : Bool) (bs : List Byte) : Option State :=
  match r.members[p]? with
  | none => none
  | some (d, l, _, _) =>
    let m : TapMsg := { op := .reduceForward, srcDev := BitVec.ofNat 14 r.dev, dstDev := BitVec.ofNat 14 d, len := bs.length, data := bs
                        extra := BitVec.ofNat 64 (r.tag.toNat + chunk * 2 ^ 32) }
    if !maySend s m || !bucketOpen s r.loom then none
    else match sendReq s r.loom m (.coll r.group r.tag) with
      | (t, some _) => some (collFail t r 6 d)
      | (t, none) =>
        let r1 := { r with grants := tput r.grants p (tget 0 r.grants p - 1), sentChunks := r.sentChunks ++ [(p, chunk)] }
        let u := setRun t r1
        some { u with coll := { u.coll with sentData := u.coll.sentData ++ [(d, { runKey r with loom := Fin.ofNat 32 l }, { chunk := chunk, flags := fl, result := result, data := bs })] } }

/-- The engine as the unit that makes a collective's accesses. -/
def collWho (r : CollRun) : Who := ⟨0x061, 0, r.core * 65536 + r.idx⟩

/-- Bytes written into DST; none when the write failed and the collective with it. -/
def writeDst (s : State) (r : CollRun) (off : Nat) (bs : List Byte) : State × Bool :=
  if bs.isEmpty then (s, true)
  else match loomWrite s (collWho r) r.loom (r.dst + off) bs with
    | (t, none) => (t, true)
    | (t, some e) => (collAccErr t r e, false)

-- ## Folding (R338)

/-- Values of this member's SRC chunk (R338): upconverted exactly, with NAN_IN. -/
def ownValues (r : CollRun) (bs : List Byte) : FM (List FVal) :=
  let code := if r.opn.rfmt then 1 else 0
  (List.range (bs.length / collElem r)).mapM fun i => loadElem code false bs [] i

/-- combine of R338: `a` is the left operand. -/
def combine (rop : Nat) (a b : FVal) : FM FVal :=
  if rop = 0 then fAdd {} a b else if rop = 1 then pure (fMax a b) else pure (fMin a b)

/-- Element-wise combination of two chunks. -/
def combineAll (rop : Nat) (xs ys : List FVal) : FM (List FVal) := (xs.zip ys).mapM fun p => combine rop p.1 p.2

/-- The final conversion of a fold (R338). -/
def finishFold (r : CollRun) (xs : List FVal) : FM (List Byte) := do
  if r.opn.rfmt then pure (packElems 16 (← xs.mapM fun x => storeElem 1 {} x)) else pure (f32Bytes xs)

/-- A run's own SRC bytes of chunk `c`. -/
def ownChunk (s : State) (r : CollRun) (c : Nat) : State × Except AccErr (List Byte) :=
  loomRead s (collWho r) r.loom (r.src + c * chunkElems * collElem r) (chunkLen r c * collElem r)

/-- A chunk's fold so far. -/
def accOf (r : CollRun) (c : Nat) : Option (Nat × BitVec 6 × List Byte) :=
  (r.acc.find? fun a => decide (a.1 = c)).map fun a => a.2

/-- A partial folded with what the member has of the chunk (R338, R340): CHAIN adds its own value on the right, TREE takes children in level order on the right of its own. -/
def foldPart (s : State) (r : CollRun) (k : Nat) (part : Nat × Nat × BitVec 6 × List Byte) : Option State :=
  let (p, c, fl, bs) := part
  let have0 := accOf r c
  if (have0.map fun a => a.1).getD 0 ≠ k then none
  else
    let go := fun (t : State) (left : FM (List FVal)) (right : FM (List FVal)) (fl0 : BitVec 6) =>
      let (v, f) := runFM (do combineAll r.opn.rop.toNat (← left) (← right))
      some (setRun t { r with
        acc := (r.acc.filter fun a => decide (a.1 ≠ c)) ++ [(c, k + 1, fl ||| fl0 ||| f, f32Bytes v)]
        parts := r.parts.filter fun x => !(decide (x.1 = p) && decide (x.2.1 = c)), freed := r.freed + 1 })
    match have0 with
    | some (_, f0, b0) => go s (pure (f32s b0)) (pure (f32s bs)) f0
    | none =>
      match ownChunk s r c with
      | (t, .error e) => some (collAccErr t r e)
      | (t, .ok ob) =>
        if r.opn.algo = 0 then go t (pure (f32s bs)) (ownValues r ob) 0 else go t (ownValues r ob) (pure (f32s bs)) 0

/-- Part of a result chunk that lies in this member's DST (R337): its DST offset and bytes. -/
def resultPart (r : CollRun) (c : Nat) (bs : List Byte) : Nat × List Byte :=
  let es := collElem r
  let a := c * chunkElems
  if r.opcode = 0x41 then
    let lo := max a (collOff r r.rank)
    let hi := min (a + bs.length / es) (collOff r r.rank + collCount r r.rank)
    ((lo - collOff r r.rank) * es, slice bs ((lo - a) * es) ((hi - lo) * es))
  else if r.opcode = 0x46 ∧ r.rank ≠ r.opn.root then (0, [])
  else (a * es, bs)

/-- A result chunk taken (R340): written where it belongs, kept for the children. -/
def takeResult (s : State) (r : CollRun) (c : Nat) (fl : BitVec 6) (bs : List Byte) : State :=
  let (o, d) := resultPart r c bs
  let (t, ok) := writeDst s r o d
  if !ok then t
  else
    setRun t { r with
      doneChunks := r.doneChunks ++ [c], flags := r.flags ||| fl
      results := if (collChildren r r.rank).isEmpty then r.results else r.results ++ [(c, fl, bs)] }

/-- The finished fold of chunk `c` at this member: its partial with flags, when every child has been folded; a member without children starts from its own values. -/
def folded (s : State) (r : CollRun) (c : Nat) : Option (State × Except AccErr (BitVec 6 × List Byte)) :=
  let n := (collChildren r r.rank).length
  match accOf r c with
  | some (k, fl, bs) => if k = n then some (s, .ok (fl, bs)) else none
  | none =>
    if n ≠ 0 then none
    else match ownChunk s r c with
      | (t, .error e) => some (t, .error e)
      | (t, .ok ob) => let (v, f) := runFM (ownValues r ob); some (t, .ok (f, f32Bytes v))

/-- The fold's work (R338, R340): a partial folded, a result taken, a partial sent up or the result formed, a result sent down. -/
def foldStep (s : State) (r : CollRun) : Option State :=
  let ch := collChildren r r.rank
  let part := r.parts.findSome? fun x => ((List.range ch.length).find? fun k => decide (ch[k]? = some x.1)).bind fun k => foldPart s r k x
  match part with
  | some t => some t
  | none =>
    match r.parts.find? fun x => decide (collParent r r.rank = some x.1) with
    | some (p, c, fl, bs) =>
      some (takeResult s { r with parts := r.parts.filter fun x => !(decide (x.1 = p) && decide (x.2.1 = c)), freed := r.freed + 1 } c fl bs)
    | none =>
      let up := match collParent r r.rank with
        | some p =>
          if tget 0 r.grants p = 0 then none
          else
            ((List.range (foldChunks r)).find? fun c => !(r.sentChunks.contains (p, c))).bind fun c =>
              (folded s r c).bind fun x => match x with
                | (t, .error e) => some (collAccErr t r e)
                | (t, .ok (fl, bs)) => sendChunk t { r with acc := r.acc.filter fun a => decide (a.1 ≠ c) } p c fl false bs
        | none =>
          ((List.range (foldChunks r)).find? fun c => !(r.doneChunks.contains c)).bind fun c =>
            (folded s r c).bind fun x => match x with
              | (t, .error e) => some (collAccErr t r e)
              | (t, .ok (fl, bs)) =>
                let (out, f) := runFM (finishFold r (f32s bs))
                some (takeResult t { r with acc := r.acc.filter fun a => decide (a.1 ≠ c) } c (fl ||| f) out)
      match up with
      | some t => some t
      | none =>
        r.results.findSome? fun x =>
          let todo := ch.filter fun p => !(r.sentChunks.contains (p, x.1))
          match todo with
          | [] => some (setRun s { r with results := r.results.filter fun y => decide (y.1 ≠ x.1) })
          | _ => (todo.find? fun p => decide (0 < tget 0 r.grants p)).bind fun p => sendChunk s r p x.1 x.2.1 true x.2.2

-- ## Moving blocks (R337, R339)

/-- The work of a collective that only moves: a received chunk copied into DST, or the next chunk sent to a partner that has granted it. -/
def moveStep (s : State) (r : CollRun) : Option State :=
  match r.parts with
  | (p, c, _, bs) :: rest =>
    let (o, n) := recvRange r p
    let (t, ok) := writeDst s { r with parts := rest } (o + 4096 * c) (bs.take (n - 4096 * c))
    if !ok then some t
    else some (setRun t { r with parts := rest, freed := r.freed + 1, doneChunks := r.doneChunks ++ [p * 2 ^ 32 + c] })
  | [] =>
    (partnerRanks r).findSome? fun p =>
      let (o, n) := sendRange r p
      if tget 0 r.grants p = 0 then none
      else ((List.range (cdiv n 4096)).find? fun c => !(r.sentChunks.contains (p, c))).bind fun c =>
        match loomRead s (collWho r) r.loom (r.src + o + 4096 * c) (min 4096 (n - 4096 * c)) with
        | (t, .error e) => some (collAccErr t r e)
        | (t, .ok bs) => sendChunk t r p c 0 false bs

/-- A member's own block placed in DST (R337). -/
def ownBlock (s : State) (r : CollRun) : State × Bool :=
  let es := collElem r
  let (so, n) := if r.opcode = 0x42 then (0, collCount r r.rank * es)
    else if r.opcode = 0x43 then (collOff r r.rank * es, collCount r r.rank * es)
    else if r.opcode = 0x44 ∧ r.rank = r.opn.root ∧ r.src ≠ r.dst then (0, r.opn.nElem * es) else (0, 0)
  let (d, _) := recvRange r r.rank
  if n = 0 then (s, true)
  else match loomRead s (collWho r) r.loom (r.src + so) n with
    | (t, .error e) => (collAccErr t r e, false)
    | (t, .ok bs) => writeDst t r (if r.opcode = 0x44 then 0 else d) bs

-- ## PERMUTE (R342, R343)

/-- Whether chunk move `j` waits for chunk move `i`: its destination overlaps the other's source at one member. -/
def permBlocks (cs : List (Nat × Nat × Nat × Nat)) (j i : Nat) : Bool :=
  match cs[j]?, cs[i]? with
  | some b, some a => decide (i ≠ j) && decide (b.2.2.1 = a.1) && overlaps b.2.2.2 4096 a.2.1 4096
  | _, _ => false

/-- Chunk moves reachable from `j` along waits among the moves of `live`. -/
def permReach (cs : List (Nat × Nat × Nat × Nat)) (live : List Nat) : Nat → List Nat → List Nat
  | 0, seen => seen
  | n + 1, seen =>
    let next := live.filter fun i => !seen.contains i && seen.any fun j => permBlocks cs j i
    if next.isEmpty then seen else permReach cs live n (seen ++ next)

/-- Whether chunk move `j` lies on a cycle of waits. -/
def onCycle (cs : List (Nat × Nat × Nat × Nat)) (live : List Nat) (j : Nat) : Bool :=
  (live.filter fun i => permBlocks cs j i).any fun i => (permReach cs live live.length [i]).contains j

/-- The chunk moves whose source is copied to break every cycle: each cycle's first in list order (R343). -/
def permBreakers (cs : List (Nat × Nat × Nat × Nat)) : Nat → List Nat → List Nat
  | 0, _ => []
  | n + 1, live =>
    match live.find? (onCycle cs live) with
    | none => []
    | some j => j :: permBreakers cs n (live.filter (· ≠ j))

/-- Whether a chunk that was sent has not been received yet: its message is outstanding. -/
def chunkOut (s : State) (r : CollRun) (i : Nat) : Bool :=
  s.router.out.any fun o => decide (o.origin = .coll r.group r.tag) && decide (o.msg.extra.toNat / 2 ^ 32 = i)

/-- Whether a chunk move's source bytes have left their place: sent and received, moved or copied (R343). -/
def permGone (s : State) (r : CollRun) (cs : List (Nat × Nat × Nat × Nat)) (i : Nat) : Bool :=
  match cs[i]? with
  | some a => (r.sentChunks.any (fun x => decide (x.2 = i)) && !chunkOut s r i) || (decide (a.2.2.1 = r.rank) && r.doneChunks.contains i) || r.copies.any fun x => decide (x.1 = i)
  | none => true

/-- Whether the destination of chunk move `j` at this member is free (R343). -/
def permFree (s : State) (r : CollRun) (cs : List (Nat × Nat × Nat × Nat)) (j : Nat) : Bool :=
  (List.range cs.length).all fun i => !permBlocks cs j i || permGone s r cs i

/-- Source bytes of chunk move `j` at this member: its copy, or memory. -/
def permBytes (s : State) (r : CollRun) (j a : Nat) : State × Except AccErr (List Byte) :=
  match r.copies.find? fun x => decide (x.1 = j) with
  | some (_, bs) => (s, .ok bs)
  | none => loomRead s (collWho r) r.loom a 4096

/-- Address of staging unit `u` of this member (R333, R339). -/
def stageAt (r : CollRun) (u : Nat) : Nat := ((r.members[r.rank]?).map fun m => m.2.2.2).getD 0 + 4096 * u

/-- Staging units of a member. -/
def stageUnits (r : CollRun) : Nat := r.stageBytes / 4096

/-- Bytes put into a unit of the member's staging area; false when the write failed and the collective with it. -/
def stagePut (s : State) (r : CollRun) (u : Nat) (bs : List Byte) : State × Bool :=
  match loomWrite s (collWho r) r.loom (stageAt r u) bs with
  | (t, none) => (t, true)
  | (t, some e) => (collAccErr t r e, false)

/-- The work of a PERMUTE (R343): a cycle copy, a received chunk written, a pull served, a local move, a pull asked for. -/
def permStep (s : State) (r : CollRun) : Option State :=
  let cs := permChunks r
  let mine := fun (i : Nat) => (cs[i]?).any fun a => decide (a.1 = r.rank)
  let copy := if r.copies.length < r.stageBytes / 8192 then r.breakers.find? fun i => mine i && !permGone s r cs i else none
  match copy with
  | some i =>
    match loomRead s (collWho r) r.loom ((cs[i]?).map (fun a => a.2.1) |>.getD 0) 4096 with
    | (t, .error e) => some (collAccErr t r e)
    | (t, .ok bs) => match stagePut t r (stageUnits r - 1 - r.copies.length) bs with
      | (u, false) => some u
      | (u, true) => some (setRun u { r with copies := r.copies ++ [(i, bs)], breakers := r.breakers.filter (· ≠ i) })
  | none =>
    match r.parts with
    | (_, c, _, bs) :: rest =>
      let (t, ok) := writeDst s { r with parts := rest } (((cs[c]?).map (fun a => a.2.2.2) |>.getD 0) - r.dst) bs
      if !ok then some t else some (setRun t { r with parts := rest, freed := r.freed + 1, doneChunks := r.doneChunks ++ [c] })
    | [] =>
      let serve := r.pulls.findSome? fun j => (cs[j]?).bind fun a =>
        if tget 0 r.grants a.2.2.1 = 0 then none
        else match permBytes s r j a.2.1 with
          | (t, .error e) => some (collAccErr t r e)
          | (t, .ok bs) => sendChunk t { r with pulls := r.pulls.filter (· ≠ j), copies := r.copies.filter fun x => decide (x.1 ≠ j) } a.2.2.1 j 0 false bs
      match serve with
      | some t => some t
      | none =>
        let loc := (List.range cs.length).findSome? fun j => (cs[j]?).bind fun a =>
          if a.1 ≠ r.rank ∨ a.2.2.1 ≠ r.rank ∨ r.doneChunks.contains j ∨ !permFree s r cs j then none
          else match permBytes s r j a.2.1 with
            | (t, .error e) => some (collAccErr t r e)
            | (t, .ok bs) =>
              let (u, ok) := writeDst t r (a.2.2.2 - r.dst) bs
              if !ok then some u
              else some (setRun u { r with doneChunks := r.doneChunks ++ [j], copies := r.copies.filter fun x => decide (x.1 ≠ j) })
        match loc with
        | some t => some t
        | none =>
          if r.stageBytes / 4096 ≤ r.pulled.length - r.freed + r.copies.length then none
          else (List.range cs.length).findSome? fun j => (cs[j]?).bind fun a =>
            if a.1 = r.rank ∨ a.2.2.1 ≠ r.rank ∨ r.pulled.contains j ∨ !permFree s r cs j then none
            else (r.members[a.1]?).map fun m =>
              let t := setRun s { r with pulled := r.pulled ++ [j] }
              { t with coll := { t.coll with sentGrant := t.coll.sentGrant ++ [(m.1, runKey r, 1, some j)] } }

-- ## Grants and completion (R339, R345)

/-- Staging units granted to the next partner in increasing rank that still owes data (R339). -/
def grantStep (s : State) (r : CollRun) : Option State :=
  let free := r.stageBytes / 4096 - ((r.given.map Prod.snd).sum - r.freed)
  if free = 0 then none
  else ((partnerRanks r).find? fun p => decide (tget 0 r.given p < expected r p)).bind fun p =>
    (r.members[p]?).map fun m =>
      let n := min free (expected r p - tget 0 r.given p)
      let t := setRun s { r with given := tput r.given p (tget 0 r.given p + n) }
      { t with coll := { t.coll with sentGrant := t.coll.sentGrant ++ [(m.1, runKey r, n, none)] } }

/-- Whether a collective has everything it writes, and has sent everything it must (R337, R345). -/
def collDone (s : State) (r : CollRun) : Bool :=
  r.parts.isEmpty && r.results.isEmpty &&
  !(s.router.out.any fun o => decide (o.origin = .coll r.group r.tag)) &&
  (if r.opcode = 0x47 then (partnerRanks r).all fun p => r.opened.contains p
   else if reduces r.opcode then (List.range (foldChunks r)).all fun c => r.doneChunks.contains c
   else if r.opcode = 0x45 then
     let cs := permChunks r
     (List.range cs.length).all fun j => (cs[j]?).any fun a =>
       (decide (a.2.2.1 ≠ r.rank) || r.doneChunks.contains j) && (decide (a.1 ≠ r.rank) || permGone s r cs j)
   else (partnerRanks r).all fun p =>
     (List.range (expected r p)).all (fun c => r.doneChunks.contains (p * 2 ^ 32 + c)) &&
     (List.range (cdiv (sendRange r p).2 4096)).all fun c => r.sentChunks.contains (p, c))

/-- Whether a member has an abort record of a TAG (R346). -/
def tagAborted (s : State) (g t : Word32) : Bool := s.coll.aborts.any fun a => decide (a.1 = g) && a.2.contains t

/-- The OPENs of a starting collective go out (R341). -/
def sendOpens (s : State) (r : CollRun) : State :=
  { s with coll := { s.coll with
      sentOpen := s.coll.sentOpen ++ (partnerRanks r).filterMap fun p => (r.members[p]?).map fun m => (m.1, m.2.1, runKey r, r.opn) } }

/-- A held OPEN of the group compared with the starting collective (R341). -/
def matchHeld (s : State) (r : CollRun) : State :=
  let held := s.coll.opens.filter fun h => decide (h.1.group = r.group) && decide (h.1.loom.val = r.loom)
  let s1 := { s with coll := { s.coll with opens := s.coll.opens.filter fun h => !(decide (h.1.group = r.group) && decide (h.1.loom.val = r.loom)) } }
  match held.find? fun h => decide (h.1.tag ≠ r.tag) || decide (h.2 ≠ r.opn) with
  | some h => collFail s1 r 3 h.1.fromDev.toNat
  | none => setRun s1 { r with opened := r.opened ++ held.filterMap fun h => rankOf r h.1.fromDev.toNat }

/-- A collective that is first of its group starts (R341, R346). -/
def collBegin (s : State) (r0 : CollRun) : State :=
  let r := { r0 with waiting := false }
  let s1 := setRun s r
  if tagAborted s1 r.group r.tag then collFail s1 r 4 0
  else
    let (s2, ok) := if reduces r.opcode || decide (r.opcode = 0x45) || decide (r.opcode = 0x47) then (s1, true) else ownBlock s1 r
    if !ok then s2 else matchHeld (sendOpens s2 r) r

/-- The next waiting collective of a group. -/
def nextOfGroup (s : State) (g : Word32) (l : Nat) : Option CollRun :=
  if s.coll.runs.any fun r => decide (r.group = g) && decide (r.loom = l) && !r.waiting then none
  else s.coll.runs.find? fun r => decide (r.group = g) && decide (r.loom = l)

/-- Whether a member writes a result of its collective (R337). -/
def writesResult (r : CollRun) : Bool :=
  if r.opcode = 0x41 then decide (collCount r r.rank ≠ 0) else if r.opcode = 0x46 then decide (r.rank = r.opn.root) else true

/-- A completed collective (R345): counted, the flags of its fold reported where it writes a result (R338), its operation complete. -/
def collEnd (s : State) (r : CollRun) : State :=
  let s1 := addCnt { s with coll := { s.coll with runs := s.coll.runs.filter fun x => !(decide (x.core = r.core) && decide (x.idx = r.idx)) } } (tapKey 0x284) 1
  let s2 := if writesResult r then addFlags s1 r.core r.flags else s1
  match (coreOf s2 r.core).slots.find? fun x => decide (x.idx = r.idx) with
  | some x => opComplete s2 r.core x
  | none => s2

/-- One unit of a collective's work, or none. -/
def collStep (s : State) (r : CollRun) : Option State :=
  if r.waiting then none
  else
    let w := if reduces r.opcode then foldStep s r else if r.opcode = 0x45 then permStep s r
      else if r.opcode = 0x47 then none else moveStep s r
    match w with
    | some t => some t
    | none => match grantStep s r with
      | some t => some t
      | none => if collDone s r then some (collEnd s r) else none

/-- Work of a run until it can do no more, or the next unit waits for its accesses. -/
def collLoop : Nat → State → Nat → Nat → State
  | 0, s, _, _ => s
  | n + 1, s, c, i =>
    match runAt s c i with
    | none => s
    | some r => match collStep s r with
      | none => s
      | some t => match workUnit s t with
        | (u, true) => collLoop n u c i
        | (u, false) => u

/-- Most units of work a run can have: each chunk is received, folded, sent and finished once per member. -/
def collFuel (r : CollRun) : Nat :=
  16 + (8 + r.members.length) * (foldChunks r + (permChunks r).length + 1 + ((partnerRanks r).map fun p => expected r p + cdiv (sendRange r p).2 4096).sum)

/-- A run does all the work it can. -/
def collGo (s : State) (c i : Nat) : State :=
  match runAt s c i with
  | some r => collLoop (collFuel r) s c i
  | none => s

/-- A waiting collective that is first of its group, if any. -/
def wakeable (s : State) : Option CollRun :=
  s.coll.runs.find? fun r => r.waiting && (nextOfGroup s r.group r.loom).any fun x => decide (x.core = r.core) && decide (x.idx = r.idx)

/-- Every waiting collective whose group is free starts (R341), until one waits for its accesses. -/
def collWake : Nat → State → State
  | 0, s => s
  | n + 1, s =>
    match wakeable s with
    | none => s
    | some r => match workUnit s (collBegin s r) with
      | (u, true) => collWake n u
      | (u, false) => u

/-- The engine's runs do all the work they can, and those that waited for a group start. -/
def collDrive (s : State) : State :=
  let s1 := collWake 64 (fresh s)
  collWake 64 (s1.coll.runs.foldl (fun t r => collGo t r.core r.idx) s1)

/-- A command of the collective engine: its effect, then the engine's work; at S5 the engine's clock is off (R393). -/
def collEffect (f : State → State) (s : State) : Out := effect (awake <| posting fun s => collDrive (asking f s)) s

-- ## Issue (R333-R344)

/-- The group block read at issue (R333). -/
def groupMembers (n : Nat) (bs : List Byte) : List (Nat × Nat × Nat × Nat) :=
  (List.range n).map fun i => (fieldLe bs (16 * i) 2 % 2 ^ 14, byteAt bs (16 * i + 2) % 32, fieldLe bs (16 * i + 4) 4, fieldLe bs (16 * i + 8) 8)

/-- The move list of a PERMUTE (R342). -/
def permMoves (n : Nat) (bs : List Byte) : List (Nat × Nat × Nat × Nat × Nat) :=
  (List.range n).map fun i => (fieldLe bs (32 * i) 2, fieldLe bs (32 * i + 2) 2, fieldLe bs (32 * i + 8) 8, fieldLe bs (32 * i + 16) 8, fieldLe bs (32 * i + 24) 4)

/-- Whether any two ranges of a list overlap. -/
def anyOverlap : List (Nat × Nat) → Bool
  | [] => false
  | (a, n) :: r => r.any (fun x => overlaps a n x.1 x.2) || anyOverlap r

/-- Cause PERMUTE (R342): a misaligned move, a rank beyond the group, or overlapping sources or destinations on one member. -/
def permBad (n : Nat) (ms : List (Nat × Nat × Nat × Nat × Nat)) : Bool :=
  (ms.any fun m => decide (n ≤ m.1) || decide (n ≤ m.2.1) || decide (m.2.2.1 % 4096 ≠ 0) || decide (m.2.2.2.1 % 4096 ≠ 0) || decide (m.2.2.2.2 % 4096 ≠ 0)) ||
  ((List.range n).any fun p =>
    anyOverlap ((ms.filter fun m => decide (m.1 = p)).map fun m => (m.2.2.1, m.2.2.2.2)) ||
    anyOverlap ((ms.filter fun m => decide (m.2.1 = p)).map fun m => (m.2.2.2.1, m.2.2.2.2)))

/-- Cause ALIAS (R337, R344): an overlap other than the in-place uses allowed. -/
def collAlias (r : CollRun) : Bool :=
  let (a, b) := collSpans r
  let es := collElem r
  let ok := if r.opcode = 0x42 then decide (r.src = r.dst + collOff r r.rank * es)
    else if r.opcode = 0x41 then decide (r.dst = r.src + collOff r r.rank * es)
    else if r.opcode = 0x43 then false else decide (r.src = r.dst)
  overlaps r.src a r.dst b && !ok

/-- Cause GROUP (R344). -/
def groupBad (r : CollRun) (n : Nat) : Bool :=
  decide (n = 0) || decide (16384 < n) || decide (r.stageBytes % 4096 ≠ 0) || decide (r.stageBytes < 16384) || decide (n ≤ r.rank) ||
  !((r.members[r.rank]?).any fun m => decide (m.1 = r.dev) && decide (m.2.1 = r.loom)) ||
  !noRepeats (r.members.map fun m => m.1) || (decide (r.opcode = 0x44 ∨ r.opcode = 0x46) && decide (n ≤ r.opn.root))

/-- The run a descriptor and its group block describe (R333, R335). -/
def makeRun (s : State) (c : Nat) (x : Slot) (hd ms mv : List Byte) : CollRun :=
  let ws := x.words
  let n := fieldLe hd 4 4
  let mem := groupMembers n ms
  { core := c, idx := x.idx, loom := coreLoom s c, dev := ownDev s, group := BitVec.ofNat 32 (fieldLe hd 0 4), tag := ws.getD 7 0
    opcode := opcode ws
    opn := { opcode := BitVec.ofNat 8 (opcode ws), members := n, total := (mem.map fun m => m.2.2.1).sum, nElem := (ws.getD 14 0).toNat
             algo := BitVec.ofNat 2 (wfld ws 5 1 0), rop := BitVec.ofNat 2 (wfld ws 5 3 2), rfmt := decide (wfld ws 5 4 4 = 1)
             elem := BitVec.ofNat 2 (wfld ws 5 6 5), root := wfld ws 6 13 0 }
    rank := wfld ws 5 21 8, stageBytes := fieldLe hd 8 4, members := mem
    src := (w64 ws 10).toNat, dst := (w64 ws 12).toNat
    moves := if opcode ws = 0x45 then permMoves (ws.getD 14 0).toNat mv else [] }

/-- A run that passes its issue checks enters the engine; the others abort (R334, R341, R342, R344, R345). -/
def collEnter (s : State) (r0 : CollRun) (n : Nat) : State :=
  let r := { r0 with waiting := true
                     breakers := if r0.opcode = 0x45 then permBreakers (permChunks r0) (permChunks r0).length (List.range (permChunks r0).length) else [] }
  let s1 := { s with coll := { s.coll with runs := s.coll.runs ++ [r] } }
  if groupBad r n then collFail s1 r 1 0
  else if collAlias r then collFail s1 r 2 0
  else if r.opcode = 0x45 ∧ permBad n r.moves then collFail s1 r 5 0
  else s1

/-- The lowest-indexed issued operation that has not begun its commit. -/
def issuedFresh (s : State) (c : Nat) (p : List Word32 → Bool) : Option Slot :=
  if s.board.thermTrip then none else
  ((coreOf s c).slots.filter fun x => x.issued && !x.committing && decide (x.waiting = 0) && p x.words).foldl
    (fun b x => match b with
      | none => some x
      | some y => if x.idx < y.idx then some x else some y) none

/-- A collective issued by a core (R333-R336, R345): the group block is read once, its commit begins, and the engine takes it while fewer than 64 run. -/
def collIssue (s : State) (c : Nat) (p : List Word32 → Bool) : State :=
  match issuedFresh s c p with
  | none => s
  | some x =>
    if 64 ≤ s.coll.runs.length then s
    else
      let l := coreLoom s c
      let ga := (w64 x.words 8).toNat
      match loomRead s (coreWho c x.idx) l ga 64 with
      | (t, .error e) => opAccessErr t c x e
      | (t, .ok hd) =>
        let n := fieldLe hd 4 4
        match loomRead t (coreWho c x.idx) l (ga + 64) (16 * (min n 16384)) with
        | (t, .error e) => opAccessErr t c x e
        | (t, .ok ms) =>
          let mn := if opcode x.words = 0x45 then (x.words.getD 14 0).toNat else 0
          match (if mn = 0 then (t, Except.ok []) else loomRead t (coreWho c x.idx) l (ga + 64 + 16 * n) (32 * mn)) with
          | (t, .error e) => opAccessErr t c x e
          | (t, .ok mv) => collEnter (beginCommit t c x) (makeRun t c x hd ms mv) n

/-- ALL_REDUCE, and REDUCE (opcode 0x46), which has no row of its own (R334, R337; log entry 22). -/
def execAllReduce (c : CoreId) (s : State) : Out := collEffect (fun s => collIssue s c fun ws => isOp 0x40 ws || isOp 0x46 ws) s

/-- REDUCE_SCATTER (R337). -/
def execReduceScatter (c : CoreId) (s : State) : Out := collEffect (fun s => collIssue s c (isOp 0x41)) s

/-- ALL_GATHER (R337). -/
def execAllGather (c : CoreId) (s : State) : Out := collEffect (fun s => collIssue s c (isOp 0x42)) s

/-- ALL_TO_ALL (R337). -/
def execAllToAll (c : CoreId) (s : State) : Out := collEffect (fun s => collIssue s c (isOp 0x43)) s

/-- BROADCAST (R337). -/
def execBroadcast (c : CoreId) (s : State) : Out := collEffect (fun s => collIssue s c (isOp 0x44)) s

/-- PERMUTE (R342, R343). -/
def execPermute (c : CoreId) (s : State) : Out := collEffect (fun s => collIssue s c (isOp 0x45)) s

/-- BARRIER (R337). -/
def execBarrier (c : CoreId) (s : State) : Out := collEffect (fun s => collIssue s c (isOp 0x47)) s

-- ## Messages (R339, R341, R346)

/-- The running collective of a message's group at a loom of this part. -/
def runOf (s : State) (k : CollKey) : Option CollRun :=
  s.coll.runs.find? fun r => decide (r.group = k.group) && decide (r.loom = k.loom.val) && !r.waiting

/-- An OPEN held: one per partner of a member of the group (R341). -/
def holdOpen (hs : List (CollKey × CollOpen)) (k : CollKey) (o : CollOpen) : List (CollKey × CollOpen) :=
  (hs.filter fun h => decide (h.1.fromDev ≠ k.fromDev) || decide (h.1.group ≠ k.group) || decide (h.1.loom ≠ k.loom)) ++ [(k, o)]

/-- COLL_OPEN (R341, R346): an aborted TAG is answered with ABORT; a running collective is compared; else the OPEN is held, one per partner. -/
def execCollOpen (k : CollKey) (o : CollOpen) (s : State) : Out :=
  collEffect (fun s =>
    if tagAborted s k.group k.tag then
      { s with coll := { s.coll with sentAbort := s.coll.sentAbort ++ [(k.fromDev.toNat, { k with fromDev := BitVec.ofNat 14 (ownDev s) })] } }
    else match runOf s k with
      | some r =>
        match rankOf r k.fromDev.toNat with
        | none => s
        | some p =>
          if r.opened.contains p then
            { s with coll := { s.coll with opens := holdOpen s.coll.opens k o } }
          else if k.tag ≠ r.tag ∨ o ≠ r.opn then collFail s r 3 k.fromDev.toNat
          else setRun s { r with opened := r.opened ++ [p] }
      | none =>
        { s with coll := { s.coll with opens := holdOpen s.coll.opens k o } }) s

/-- COLL_ABORT (R346): the abort is recorded, and the member that runs the TAG aborts with ABORTED. -/
def execCollAbort (k : CollKey) (s : State) : Out :=
  collEffect (fun s =>
    let s1 := recordAbort s k.group k.tag
    match s1.coll.runs.find? fun r => decide (r.group = k.group) && decide (r.tag = k.tag) && decide (r.loom = k.loom.val) with
    | some r => collFail s1 r 4 k.fromDev.toNat
    | none => s1) s

/-- STAGING_GRANT (R339, R343): a partner may be sent that many more units; a PERMUTE's grant names the chunk it pulls. -/
def execStagingGrant (k : CollKey) (units : Nat) (pull : Option Nat) (s : State) : Out :=
  collEffect (fun s =>
    match runOf s k with
    | none => s
    | some r =>
      if r.tag ≠ k.tag then s
      else match rankOf r k.fromDev.toNat with
        | none => s
        | some p => setRun s { r with grants := tput r.grants p (tget 0 r.grants p + units), pulls := r.pulls ++ pull.toList }) s

end Sys2Proof.Machine
end

