-- ==== Sys2Proof/Machine/Home.lean ====
section
/-! DEFINITION. The home of the coherent region (R325, R327-R329): the directory, requests served line by line, snoops and their answers, evictions and back-invalidations; and the ATOMIC operations (R313). -/

namespace Sys2Proof.Machine

-- ## Refusals (R317)

/-- The looms an addressed byte belongs to, lowest index first. -/
def byteOwners (s : State) (a : Nat) : List Nat :=
  (liveLooms s).filter fun l => localAllowed s l a 1 false || localAllowed s l a 1 true

/-- A request refused with NO_GRANT (R317): counted and recorded; one ACCESS_FAULT goes to the byte's loom, and the ledger coalesces repeats. -/
def refuseReq (s : State) (m : TapMsg) : State :=
  let s1 := wr (addCnt s (tapKey 0x120) 1) (tapKey 0x128) (BitVec.ofNat 32 (m.srcDev.toNat + m.srcLoom.val * 2 ^ 16))
  let r : FaultRep := { dev := m.srcDev, type := 0, inst := 0, cls := .other, fromDev := none
                        reporterType := 0x061, reporterInst := 0, info1 := 0 }
  let s2 := match byteOwners s1 m.addr.toNat with
    | l :: more =>
      let s3 := noteHits s1 l (1 + more.length)
      if (ledgerMatch s3 r).isNone then
        produce s3 l 0x0003 0x061 0 (m.addr.setWidth 64) (BitVec.ofNat 64 (m.srcDev.toNat + m.srcLoom.val * 2 ^ 16 + 2 ^ 63))
      else s3
    | [] => s1
  answerKept (report s2 r false) m 1 []

-- ## ATOMIC (R313)

/-- Result of an ATOMIC (R313), on `n` bits. -/
def atomicNew (op : AtomicOp) (n old arg cmp : Nat) : Nat :=
  let sg := fun v => if 2 ^ (n - 1) ≤ v then (v : Int) - (2 ^ n : Nat) else (v : Int)
  match op with
  | .add => (old + arg) % 2 ^ n
  | .and => old &&& arg
  | .or => old ||| arg
  | .xor => old ^^^ arg
  | .minS => if sg arg < sg old then arg else old
  | .minU => min old arg
  | .maxS => if sg old < sg arg then arg else old
  | .maxU => max old arg
  | .swap => arg
  | .cas => if old = cmp % 2 ^ n then arg else old

/-- An ATOMIC applied to memory as one access (R284, R313): the old value is answered. -/
def applyAtomic (s : State) (m : TapMsg) (l : Nat) : State :=
  let w : Who := ⟨0x061, 0, 0⟩
  match localRead s w (some l) m.addr.toNat m.len with
  | (s1, .error _) => answerKept s1 m 3 []
  | (s1, .ok old) =>
    let v := atomicNew m.aop (8 * m.len) (leNat old) (leNat (m.data.take m.len)) m.extra.toNat
    answerKept (localWrite s1 w (some l) m.addr.toNat (toLe m.len v)).1 m 0 old

-- ## The directory (R327, R329)

/-- Directory entry of a line. -/
def setDir (s : State) (line : Nat) (e : DirEnt) : State := { s with coh := { s.coh with dir := tput s.coh.dir line e } }

/-- Directory entry freed. -/
def freeDir (s : State) (line : Nat) : State := { s with coh := { s.coh with dir := tdel s.coh.dir line } }

/-- Valid COHERENT export windows that cover a line. -/
def cohExports (s : State) (line : Nat) : List Exp :=
  (liveLooms s).flatMap fun l => (expsFrom (lv s l)).filter fun w => w.valid && w.coherent && within (line * 128) 128 w.base w.size

/-- The span recorded when an entry switches to group mode (R329). -/
def dirSpan (s : State) (line : Nat) : Nat × Nat :=
  (cohExports s line).foldl (fun p w => (min p.1 w.devLo, max p.2 w.devHi)) (16383, 0)

/-- A holder added to an entry (R329): a fifth switches it to group mode. -/
def addHolder (s : State) (line : Nat) (e : DirEnt) (r : Nat) : DirEnt :=
  match e.group with
  | some (lo, hi, gs) => { e with group := some (lo, hi, insNat (groupOf lo hi r) gs) }
  | none =>
    let hs := if e.holders.contains r then e.holders else e.holders ++ [r]
    if hs.length ≤ 4 then { e with holders := hs }
    else
      let (lo, hi) := dirSpan s line
      { e with holders := [], group := some (lo, hi, hs.foldl (fun g d => insNat (groupOf lo hi d) g) []) }

/-- A holder removed from an entry; group mode keeps its marks until the entry is freed (R329). -/
def dropHolder (e : DirEnt) (r : Nat) : DirEnt := { e with holders := e.holders.filter (· ≠ r) }

/-- Whether no device can hold the line. -/
def dirEmpty (e : DirEnt) : Bool := e.group.isNone && e.holders.isEmpty

/-- The entry kept, or freed when nothing holds the line. -/
def putDir (s : State) (line : Nat) (e : DirEnt) : State := if dirEmpty e then freeDir s line else setDir s line e

/-- Whether a device can be recorded in an entry: group mode holds only devices of its span (R329). -/
def inSpan (e : DirEnt) (r : Nat) : Bool :=
  match e.group with
  | some (lo, hi, _) => decide (lo ≤ r) && decide (r ≤ hi)
  | none => true

/-- Whether a line's set of the directory is full (R329): 16 ways. -/
def dirFull (s : State) (line : Nat) : Bool :=
  decide (16 ≤ (s.coh.dir.filter fun p => decide (Config.dirSet p.1 = Config.dirSet line)).length)

/-- The entry a request for a line must first back-invalidate (R329): its own when the requester lies outside the span, else the earliest of a full set. -/
def dirVictim (s : State) (line r : Nat) : Option Nat :=
  match tfind s.coh.dir line with
  | some e => if inSpan e r then none else some line
  | none =>
    if !dirFull s line then none
    else (((s.coh.dir.filter fun p => decide (Config.dirSet p.1 = Config.dirSet line)).foldl (fun b p => match b with
      | none => some p
      | some q => if p.2.age < q.2.age then some p else some q) (none : Option (Nat × DirEnt))).map Prod.fst)

/-- A request put behind the others for its line (R328). -/
def queueCoh (s : State) (m : TapMsg) : State := { s with coh := { s.coh with queue := s.coh.queue ++ [m] } }

-- ## Grants (R327)

/-- Traffic of the home's memory charged to the loom whose export grants a request (R294); it waits for nothing, since the coherence channel always drains (R327; log entry 50). -/
def chargeCoh (s : State) (l : Option Nat) (a n : Nat) : State :=
  match l, placeOf s a with
  | some i, .dram st _ => chargeNow s i st (denseCost a n + partCost a n)
  | _, _ => s

/-- The loom whose coherent export grants a request. -/
def cohLoom (s : State) (m : TapMsg) (rt : Right) (n : Nat) : Option Nat :=
  (expFor s m.srcDev.toNat m.srcLoom.val m.addr.toNat n rt true).1.map Prod.fst

/-- A grant sent and kept (R322, R327). -/
def sendGrant (s : State) (m : TapMsg) (own : Bool) (d : List Byte) : State :=
  let line := homeLineOf m
  sendKept (dropGrants s m.srcDev.toNat line)
    { homeMsg s (if own then .grantM else .grantS) m.srcDev.toNat line with data := d, len := d.length, tag := m.tag, srcLoom := m.srcLoom } (.grant line)

/-- A fresh directory entry. -/
def newEnt (s : State) (owned : Bool) (hs : List Nat) : DirEnt := { owned := owned, holders := hs, age := s.coh.tick }

/-- An ATOMIC to a coherent export applied once no device holds the line (R327). -/
def cohAtomic (s : State) (m : TapMsg) : State :=
  match cohLoom s m .atomic m.len with
  | none => refuseReq s m
  | some l =>
    let a := m.addr.toNat
    match (blocksOf a m.len).find? (badBlock s) with
    | some b => answerKept (ueFound s b 0x061 0) m 3 []
    | none =>
      let old := localRd s a m.len
      let v := atomicNew m.aop (8 * m.len) (leNat old) (leNat (m.data.take m.len)) m.extra.toNat
      answerKept (localWr (chargeCoh s (some l) a m.len) a (toLe m.len v)) m 0 old

/-- The grant of a served request and the directory after it (R327). `keepers` are the sharers that remain. A grant that would carry an uncorrectable block is answered POISON instead (R286, R315). -/
def grantReq (s : State) (m : TapMsg) (keepers : List Nat) (wasSharer : Bool) : State :=
  let line := homeLineOf m
  let r := m.srcDev.toNat
  let a := line * 128
  let s1 := { s with coh := { s.coh with tick := s.coh.tick + 1 } }
  let own := decide (m.op = .readOwn)
  let withData := !(own && (m.noData || wasSharer))
  let kept := match tfind s1.coh.dir line with
    | some e => if e.group.isSome then { e with owned := false } else { e with owned := false, holders := keepers }
    | none => newEnt s false keepers
  if m.op = .atomic then cohAtomic (freeDir s1 line) m
  else match (if withData then (blocksOf a 128).find? (badBlock s1) else none) with
    | some b => answerKept (ueFound (putDir s1 line (if own then { kept with holders := [], group := none } else kept)) b 0x061 0) m 3 []
    | none =>
      let s2 := if withData then chargeCoh s1 (cohLoom s1 m (if own then .write else .read) 128) a 128 else s1
      let s3 := sendGrant s2 m own (if withData then localRd s2 a 128 else [])
      if own then setDir s3 line (newEnt s true [r]) else setDir s3 line (addHolder s1 line kept r)

/-- Devices a request must snoop first, and with which kind (R327). -/
def snoopNeeds (s : State) (m : TapMsg) : List Nat × Bool :=
  let r := m.srcDev.toNat
  match tfind s.coh.dir (homeLineOf m) with
  | none => ([], false)
  | some e =>
    match m.op with
    | .readShared => if e.owned then (dirTargets e, false) else ([], false)
    | .readOwn => if e.owned then (dirTargets e, true) else ((dirTargets e).filter (· ≠ r), true)
    | _ => (dirTargets e, true)

/-- A coherent request served when its line is free and the directory has room (R327-R329); none when it must wait. -/
def startLine (s : State) (m : TapMsg) : Option State :=
  let line := homeLineOf m
  let r := m.srcDev.toNat
  if lineBusy s line || (decide (m.op ≠ .atomic) && (dirVictim s line r).isSome) then none
  else
    let (ds, inv) := snoopNeeds s m
    let sharer := match tfind s.coh.dir line with
      | some e => !e.owned && e.group.isNone && e.holders.contains r
      | none => false
    let keepers := match tfind s.coh.dir line with
      | some e => e.holders
      | none => []
    if ds.isEmpty then some (grantReq s m keepers sharer)
    else some (track (sendSnoops s line inv ds) { line := line, req := some m, waits := ds, inv := inv, keep := keepers })

/-- Every waiting request tried once, in arrival order; none overtakes another for its line (R328). -/
def runQueue (s : State) : State :=
  s.coh.queue.foldl (fun t m =>
    if lineQueued t (homeLineOf m) then queueCoh t m
    else match startLine t m with
      | some u => u
      | none => queueCoh t m) { s with coh := { s.coh with queue := [] } }

/-- A granted coherent request: served, or queued behind its line (R327, R328). -/
def serveCoh (m : TapMsg) (s : State) (_ : Nat) : State :=
  if lineQueued s (homeLineOf m) then queueCoh s m
  else match startLine s m with
    | some t => t
    | none => queueCoh s m

-- ## Snoops answered (R327, R328)

/-- The directory after an access of the home's own units, or a back-invalidation (R327, R329): freed after INV; after SHARE the remaining sharers. -/
def ownDone (s : State) (t : Tracker) : State :=
  if t.inv then freeDir s t.line
  else match tfind s.coh.dir t.line with
    | some e => putDir s t.line { e with owned := false, holders := t.keep }
    | none => s

/-- A tracker whose snoops are all answered (R327): its line is free, its request granted, and waiting requests tried again. -/
def finishTrack (s : State) (t : Tracker) : State :=
  let s1 := { s with coh := { s.coh with busy := s.coh.busy.filter fun x => decide (x.line ≠ t.line) } }
  let owned := (tfind s.coh.dir t.line).any DirEnt.owned
  runQueue (match t.req with
    | some m => grantReq s1 m t.keep (!owned && t.keep.contains m.srcDev.toNat)
    | none => ownDone s1 t)

/-- The whole line written with a holder's data (R286, R327). -/
def writeLine (s : State) (line : Nat) (d : List Byte) : State := if d.isEmpty then s else localWr s (line * 128) (slice d 0 128)

/-- A tracker with one snoop fewer to wait for; `stays` tells whether that holder keeps the line, `d` its data (R327, R328). -/
def trackDone (s : State) (line dev : Nat) (stays : Bool) (d : List Byte) : State :=
  match s.coh.busy.find? fun t => decide (t.line = line) && t.waits.contains dev with
  | none => s
  | some t =>
    let s1 := writeLine s line d
    let t1 := { t with waits := t.waits.filter (· ≠ dev), keep := if stays then t.keep else t.keep.filter (· ≠ dev)
                       data := if d.isEmpty then t.data else some d }
    let s2 := { s1 with coh := { s1.coh with busy := s1.coh.busy.map fun x => if x.line = line then t1 else x } }
    if t1.waits.isEmpty then finishTrack s2 t1 else s2

/-- The SNOOPs of a line to a device that an EVICT has satisfied (R328): they stay kept for a RESEND only. -/
def restSnoops (s : State) (line dev : Nat) : State :=
  { s with router := { s.router with out := s.router.out.map fun o =>
      if (o.origin = .snoop line) ∧ o.msg.dstDev.toNat = dev then { o with origin := .grant line } else o } }

/-- EVICT applied on arrival (R327, R328): data to memory when M, the holder removed, EVICT_ACK sent; a snoop that waits for the evictor is satisfied. -/
def applyEvict (m : TapMsg) (s : State) (l : Nat) : State :=
  let line := homeLineOf m
  let h := m.srcDev.toNat
  let s0 := restSnoops (dropGrants s h line) line h
  let s1 := match tfind s0.coh.dir line with
    | some e =>
      putDir (if e.owned && !m.data.isEmpty then writeLine (chargeCoh s0 (some l) (line * 128) 128) line m.data else s0) line (dropHolder e h)
    | none => s0
  let s2 := sendAny s1 { rspTo s1 m 0 [] with op := .evictAck }
  let s3 := trackDone s2 line h false []
  if lineBusy s2 line then s3 else runQueue s3

/-- Back-invalidation of one entry (R329): INV to every holder, unless the line is already being served. -/
def backInvalidate (s : State) (line : Nat) : State :=
  match tfind s.coh.dir line with
  | none => s
  | some e =>
    if lineBusy s line then s
    else if (dirTargets e).isEmpty then runQueue (freeDir s line)
    else track (sendSnoops s line true (dirTargets e)) { line := line, req := none, waits := dirTargets e, inv := true, keep := [] }

end Sys2Proof.Machine
end

