-- ==== Sys2Proof/Machine/Router.lean ====
section
/-! DEFINITION. The Tapestry router (R309-R323): requests that arrive, transit, responses, resends and timeouts. -/

namespace Sys2Proof.Machine

-- ## Responses (R315, R322, R323)

/-- A request forgotten. -/
def dropOut (s : State) (tag : BitVec 16) : State :=
  { s with router := { s.router with out := s.router.out.filter fun o => decide (o.msg.tag ≠ tag) || isGrant o } }

/-- Tapestry address of a request's local address. -/
def tapAddr (m : TapMsg) : Nat := tapAt m.dstDev.toNat m.addr.toNat

/-- A COPY request's destination taken apart: device and local address. -/
def copyDst (m : TapMsg) : Nat × Nat := (bitsOf m.extra.toNat 55 42, bitsOf m.extra.toNat 41 0)

/-- The next write of a COPY whose source loom `l` exports, from byte `off` on, in pieces that cross no 4 KiB page (R313); its answer when nothing is left. The write carries the requester's device and loom, and passes the bucket of loom `l` (R320; log entry 52). -/
def copyNext (s : State) (m : TapMsg) (l off : Nat) : State :=
  let (d, a) := copyDst m
  let n := min (m.len - off) (4096 - (a + off) % 4096)
  if m.len ≤ off then answerKept s m 0 []
  else match localRead s ⟨0x061, 0, 0⟩ (some l) (m.addr.toNat + off) n with
    | (t, .error e) => answerKept t m (if e.status = 3 then 2 else 3) []
    | (t, .ok bs) =>
      let w : TapMsg := { op := .write, srcDev := m.srcDev, dstDev := BitVec.ofNat 14 d, srcLoom := m.srcLoom, len := n
                          addr := BitVec.ofNat 42 (a + off), data := bs, tag := t.router.nextTag }
      if unroutable t d then answerKept t m 4 []
      else if !maySend t w || !bucketOpen t l then needs t .hold
      else
        let u := sendKept t w (.copyPart m (off + n) l)
        takeBucket { u with router := { u.router with nextTag := t.router.nextTag + 1 } } l (32 + n)

/-- A coherence request that failed (R315): an eviction's line is given up, another leaves its failure for the access that wants the line. -/
def failLine (s : State) (line st : Nat) (code : Option Nat) : State :=
  match tfind s.coh.lines line with
  | none => s
  | some x =>
    if x.evicting then dropLine s line
    else keepLine s line { x with want := none, put := none, fail := some (st, code) }

/-- A request completes with a status (R313, R315): what its origin does. -/
def completeReq (s0 : State) (o : OutReq) (st : Nat) (bs : List Byte) (code : Option Nat) : State :=
  let s := dropOut s0 o.msg.tag
  match o.origin with
  | .unit w l a n wr => addReply s { who := w, loom := l, addr := a, len := n, write := wr, status := st, code := code, data := bs }
  | .op c i =>
    match (coreOf s c).slots.find? fun x => decide (x.idx = i) with
    | none => s
    | some x =>
      if st = 0 then updSlot s c i fun y => { y with waiting := y.waiting - 1 }
      else opAccessErr s c x (tapErr st code (tapAddr o.msg))
  | .coherent line => if st = 0 then s0 else failLine s line st code
  | .copyPart m off l => if st = 0 then copyNext s m l off else answerKept s m st []
  | .coll g t =>
    match s.coll.runs.find? fun r => decide (r.group = g) && decide (r.tag = t) with
      | some r => if st = 0 then s else collFail s r 6 o.msg.dstDev.toNat
      | none => s
  | .snoop line => trackDone s line o.msg.dstDev.toNat false []
  | .grant _ => s

/-- TAPESTRY_RESPONSE (R315, R322): a response completes the request its TAG names; a duplicate is discarded. What a collective waited for goes on. -/
def execTapestryResponse (m : TapMsg) (s : State) : Out :=
  collEffect (fun s =>
    if m.op ≠ .rsp then s
    else match outTag s m.tag with
      | some o => if o.msg.dstDev = m.srcDev then completeReq s o m.status.toNat m.data (tapCode m.status.toNat) else s
      | none => s) s

/-- A kept message sent again on the present routes, with its SEQ; a READ takes a new TAG (R322). What the home sends stays kept while no link works. -/
def resendOut (s : State) (o : OutReq) : State :=
  let m := if orderedMsg o.msg then o.msg else { o.msg with tag := s.router.nextTag }
  match sendMsg s m with
  | none => if isHomes o then s else completeReq s o 4 [] none
  | some (t, k) =>
    let r := t.router
    { t with router := { r with
        nextTag := if orderedMsg o.msg then r.nextTag else r.nextTag + 1
        out := r.out.map fun x => if x.msg.tag = o.msg.tag ∧ x.origin = o.origin then { x with msg := m, link := some k, sentAt := s.time } else x } }

/-- TAPESTRY_RESEND (R322): the source resends its ordered requests to a device from the named SEQ on, in order. -/
def execTapestryResend (dst : BitVec 14) (vc : BitVec 2) (seq : BitVec 16) (s : State) : Out :=
  effect (awake fun s =>
    (s.router.out.filter fun o => decide (o.msg.dstDev = dst) && decide (o.vc = vc.toNat) && orderedMsg o.msg &&
      decide ((o.msg.seq - seq).toNat < 32768)).foldl resendOut s) s

/-- A report that a device does not answer (R421): the reporter is the core that asked, or the router. -/
def lostDevice (s : State) (o : OutReq) : State :=
  let (t, i) := match o.origin with
    | .op c _ => (0x040, c)
    | .unit w _ _ _ _ => (w.typ, w.inst)
    | _ => (0x061, 0)
  report s { dev := o.msg.dstDev, type := 0, inst := 0, cls := .timeout, fromDev := none
             reporterType := BitVec.ofNat 12 t, reporterInst := BitVec.ofNat 12 i, info1 := 0 } false

/-- TAP_REQ_TIMEOUT (R323): the first expiry resends the request, the second fails it with TIMEOUT; each is counted. A SNOOP that times out counts as ACK_I (log entry 52). -/
def execTapReqTimeout (tag : BitVec 16) (s : State) : Out :=
  effect (awake <| posting fun s =>
    match outTag s tag with
    | none => s
    | some o =>
      if !elapsedUs s.time o.sentAt (rdF s (tapKey 0x114) 15 0) then s
      else
        let s1 := addCnt s (tapKey 0x124) 1
        if o.resent then completeReq (lostDevice s1 o) o 5 [] none
        else resendOut { s1 with router := { s1.router with
          out := s1.router.out.map fun x => if x.msg.tag = tag ∧ x.origin = o.origin then { x with resent := true } else x } } o) s

-- ## Requests that arrive (R309, R312, R313, R317, R322)

/-- The status that turns away a request before any other check (R309, R402, R405, R406). -/
def inboundBar (s : State) (m : TapMsg) : Option Nat :=
  if !ready s || !devValid s then some 4
  else if blockClosed s .tap || (placeBlock s m.addr.toNat).any (blockClosed s) then some 6
  else none

/-- Where a message stands in its order (R322). -/
inductive SeqPlace where
  | next | ahead | behind
  deriving DecidableEq, Repr

/-- The SEQ expected next from a source on a virtual channel. -/
def rxSeqOf (s : State) (m : TapMsg) : BitVec 16 := tget 0 s.router.rxSeq (4 * m.srcDev.toNat + vcOf m)

/-- Place of an arriving message in its order (R322); an unordered one is always next. -/
def seqPlace (s : State) (m : TapMsg) : SeqPlace :=
  if !orderedMsg m ∨ m.seq = rxSeqOf s m then .next
  else if (m.seq - rxSeqOf s m).toNat < 32768 then .ahead else .behind

/-- The expected SEQ moved past an ordered message. -/
def takeSeq (s : State) (m : TapMsg) : State :=
  if orderedMsg m then
    { s with router := { s.router with rxSeq := tput s.router.rxSeq (4 * m.srcDev.toNat + vcOf m) (m.seq + 1) } }
  else s

/-- A RESEND that names the expected SEQ (R322). -/
def askResend (s : State) (m : TapMsg) : State :=
  sendAny s { rspTo s m 0 [] with op := .resend, seq := rxSeqOf s m }

/-- Whether a KNOT_SIGNAL or COPY with a SEQ is still being applied: its answer is yet to come. -/
def stillRuns (s : State) (m : TapMsg) : Bool :=
  let same := fun (x : TapMsg) => decide (x.srcDev = m.srcDev) && decide (x.seq = m.seq) && decide (vcOf x = vcOf m)
  (s.knotQ.any fun k => k.src.any same) ||
  (s.router.out.any fun o => match o.origin with
    | .copyPart x _ _ => same x
    | _ => false) || s.coh.queue.any same || s.coh.busy.any fun t => t.req.any same

/-- The answer to a request that was applied before (R322). The rule names the answers to WRITE, ATOMIC, KNOT_SIGNAL and COPY; the others are those of log entry 52. -/
def answerAgain (s : State) (m : TapMsg) : State :=
  if stillRuns s m then s
  else match m.op with
  | .write => answer s m 0 []
  | .reduceForward => answer s m 0 []
  | .atomic => old
  | .knotSignal => old
  | .copy => old
  | .snoop => match record with
    | some r => sendAny s r.rsp
    | none => s
  | .evict => sendAny s { rspTo s m 0 [] with op := .evictAck }
  | .readShared => grant
  | .readOwn => grant
  | _ => s
where
  /-- The record of its response. -/
  record : Option RspRec :=
    s.router.recent.find? fun r => decide (r.src = m.srcDev.toNat) && decide (r.vc = vcOf m) && decide (r.seq = m.seq)
  /-- From the record of recent responses, or DUP_LOST. -/
  old : State := match record with
    | some r => sendAny s r.rsp
    | none => answer s m 8 []
  /-- The kept GRANT of its line. -/
  grant : State :=
    match s.router.out.find? fun o => decide (o.origin = .grant (homeLineOf m)) && decide (o.msg.dstDev = m.srcDev) && decide (o.msg.op ≠ .snoop) with
    | some o => sendAny s o.msg
    | none => s

/-- A message for this part taken in its order, and `f` applied when it is its turn (R309, R322, R393). -/
def arrive (s : State) (m : TapMsg) (f : State → State) : State :=
  if m.dstDev.toNat ≠ ownDev s ∨ s.power.s5 then s
  else match inboundBar s m with
    | some st => answer s m st []
    | none =>
      match seqPlace s m with
      | .ahead => askResend s m
      | .behind => answerAgain s m
      | .next => f (takeSeq s m)

/-- The right an arriving request needs (R317). -/
def rightOf (m : TapMsg) : Right :=
  match m.op with
  | .write => .write
  | .readOwn => .write
  | .evict => .write
  | .atomic => .atomic
  | .knotSignal => .knot
  | _ => .read

/-- Bytes an arriving request touches. -/
def spanOf (m : TapMsg) : Nat :=
  match m.op with
  | .knotSignal => 8
  | .readShared => 128
  | .readOwn => 128
  | .evict => 128
  | _ => m.len

/-- Whether a size, alignment or target rule of R313 is broken. -/
def badReq (s : State) (m : TapMsg) : Bool :=
  let a := m.addr.toNat
  match m.op with
  | .read => decide (m.len < 16) || decide (4096 < m.len) || decide (m.len % 16 ≠ 0) || decide (4096 < a % 4096 + m.len)
  | .write => decide (m.len < 16) || decide (4096 < m.len) || decide (m.len % 16 ≠ 0) || decide (4096 < a % 4096 + m.len)
  | .atomic => !(decide (m.len = 4) || decide (m.len = 8)) || decide (a % m.len ≠ 0) || (match placeOf s a with
      | .dram _ _ => false
      | .pool _ _ => false
      | _ => true)
  | .copy => decide (m.len < 256) || decide (16777216 < m.len) || decide (m.len % 256 ≠ 0)
  | .reduceForward => decide (4096 < m.len)
  | .knotSignal => decide (a % 64 ≠ 0)
  | .readShared => decide (a % 128 ≠ 0)
  | .readOwn => decide (a % 128 ≠ 0)
  | .evict => decide (a % 128 ≠ 0) || !(decide (m.len = 0) || decide (m.len = 128))
  | _ => false

/-- The checks of an arriving request (R313, R315, R317, R20), and `f` with the loom whose export window grants it. -/
def granted (s : State) (m : TapMsg) (f : State → Nat → State) : State :=
  if badReq s m then answerKept s m 7 []
  else match expFor s m.srcDev.toNat m.srcLoom.val m.addr.toNat (spanOf m) (rightOf m) (decide (vcOf m = 2)) with
    | (none, _) => refuseReq s m
    | (some (l, _), n) =>
      let s1 := if 1 < n then addCnt s (tapKey 0x30) 1 else s
      match placeOf s1 m.addr.toNat with
      | .hole => answerKept s1 m 2 []
      | .dram st _ => if stackOut s1 st then answerKept s1 m 2 [] else f s1 l
      | _ => f s1 l

/-- A granted READ, WRITE or ATOMIC applied (R313, R284, R286). -/
def applyReq (m : TapMsg) (s : State) (l : Nat) : State :=
  match m.op with
  | .read =>
    match localRead s ⟨0x061, 0, 0⟩ (some l) m.addr.toNat m.len with
    | (s1, .error _) => answer s1 m 3 []
    | (s1, .ok bs) => answer s1 m 0 bs
  | .write => answerKept (localWrite s ⟨0x061, 0, 0⟩ (some l) m.addr.toNat (slice m.data 0 m.len)).1 m 0 []
  | .atomic => applyAtomic s m l
  | _ => s

/-- Whether TAPESTRY_REQUEST serves a message: READ, WRITE, or an ATOMIC to a non-coherent export. -/
def plainReq (m : TapMsg) : Bool :=
  match m.op with
  | .read => true
  | .write => true
  | .atomic => !m.coh
  | _ => false

/-- TAPESTRY_REQUEST (R317, R322): ordered by SEQ, checked against the export windows, applied or refused. -/
def execTapestryRequest (m : TapMsg) (s : State) : Out :=
  effect (asking fun s => if plainReq m then arrive s m fun t => granted t m (applyReq m) else s) s

/-- Knot index of a KNOT_SIGNAL: its local address is the knot's record (R191). -/
def signalKnot (m : TapMsg) : Nat := (m.addr.toNat - 0x10800000000) / 64

/-- KNOT_SIGNAL (R195, R317): queued at the knots block under a KNOT grant, and answered once applied. -/
def execKnotSignal (m : TapMsg) (s : State) : Out :=
  effect (fun s =>
    if m.op ≠ .knotSignal then s
    else arrive s m fun t => granted t m fun u _ =>
      { u with knotQ := u.knotQ ++ [{ idx := signalKnot m, set := m.kopSet, value := BitVec.ofNat 64 (leNat (m.data.take 8)), src := some m }] }) s

/-- COPY (R313): the source holder checks the read grant and writes the range to the destination piece by piece. -/
def execCopy (m : TapMsg) (s : State) : Out :=
  effect (asking fun s =>
    if m.op ≠ .copy then s
    else arrive s m fun t => granted t m fun u l => copyNext u m l 0) s

/-- Whether a member may put a chunk in this member's staging area (R333, R317). -/
def stagingOpen (s : State) (r : CollRun) (m : TapMsg) : Bool :=
  match r.members[r.rank]? with
  | some (_, _, _, a) => (expFor s m.srcDev.toNat m.srcLoom.val a r.stageBytes .write false).1.isSome
  | none => false

/-- REDUCE_FORWARD (R313, R317, R339, R340): a granted chunk is put into the staging area, answered and worked on; what no grant covers is refused. Arrivals take the staging units in turn (log entry 22). -/
def execReduceForward (m : TapMsg) (k : CollKey) (d : CollData) (s : State) : Out :=
  collEffect (fun s =>
    if m.op ≠ .reduceForward then s
    else arrive s m fun t =>
      if badReq t m then answerKept t m 7 [] else
      match (runOf t k).bind fun r => if r.tag = k.tag then (rankOf r k.fromDev.toNat).map fun p => (r, p) else none with
      | none => refuseReq t m
      | some (r, p) =>
        if !stagingOpen t r m then refuseReq t m
        else match stagePut t r ((r.freed + r.parts.length) % max 1 (stageUnits r)) d.data with
          | (u, false) => answer u m 0 []
          | (u, true) => setRun (answer u m 0 []) { r with parts := r.parts ++ [(p, d.chunk, d.flags, d.data)] }) s

/-- UNREACHABLE answered in the destination's place; a response that cannot go on is lost (R311). -/
def unreachable (s : State) (m : TapMsg) : State :=
  if vcOf m = 1 then s else sendAny s { rspTo s m 4 [] with srcDev := m.dstDev }

/-- TAPESTRY_FORWARD (R309, R311): a message for another device goes on, or is answered UNREACHABLE. -/
def execTapestryForward (m : TapMsg) (s : State) : Out :=
  effect (fun s =>
    if m.dstDev.toNat = ownDev s ∨ s.power.s5 then s
    else if !ready s || !devValid s || decide (15 < m.hops + 1) then unreachable s m
    else match linkFor s { m with hops := m.hops + 1 } with
      | some k => putOnLink s { m with hops := m.hops + 1 } k
      | none => unreachable s m) s

end Sys2Proof.Machine
end

