-- ==== Sys2Proof/Machine/Coherence.lean ====
section
/-! DEFINITION. The coherence rows of the Tapestry (R325-R330): a loom's coherent loads, stores and evictions, grants and snoops at the requester, requests and answers at the home. -/

namespace Sys2Proof.Machine

-- ## The requester (R326, R330)

/-- The requester that makes a loom's coherent loads and stores. -/
def cohWho (l : Nat) : Who := ⟨0x061, 0, 0x80000 + l⟩

/-- COHERENT_LOAD (R309, R319, R326): a hit is served and shown as the last response; a miss sends READ_SHARED and waits for GRANT_S. An address that no COHERENT import covers is no coherent line. -/
def execCoherentLoad (l : LoomId) (dev : BitVec 14) (addr : BitVec 42) (s : State) : Out :=
  effect (asking fun s =>
    let o := addr.toNat / 128 * 128
    if !cohImport s l dev.toNat o 128 false then s
    else match farRead s (cohWho l) l (tapAt dev.toNat o) 128 dev.toNat o with
      | (t, .ok bs) => { t with resp := .data bs }
      | (t, .error e) => postErr t l e 0x061 0) s

/-- COHERENT_STORE (R309, R319, R326): a hit in M is written; otherwise READ_OWN goes out, with NODATA when the whole line is written, and the store waits for GRANT_M. -/
def execCoherentStore (l : LoomId) (dev : BitVec 14) (addr : BitVec 42) (data : List Byte) (s : State) : Out :=
  effect (asking fun s =>
    if data.isEmpty || !cohImport s l dev.toNat addr.toNat data.length true then s
    else match farWrite s (cohWho l) l (tapAt dev.toNat addr.toNat) data dev.toNat addr.toNat with
      | (t, none) => t
      | (t, some e) => postErr t l e 0x061 0) s

/-- COHERENT_EVICT (R326). -/
def execCoherentEvict (dev : BitVec 14) (addr : BitVec 42) (s : State) : Out :=
  effect (awake fun s => evictLine s (lineOf dev.toNat addr.toNat)) s

/-- The outstanding coherence request for a line. -/
def lineOut (s : State) (line : Nat) : Option OutReq := s.router.out.find? fun o => decide (o.origin = .coherent line)

/-- The answer that tells a unit that its store of a whole line is made. -/
def storeDone (x : Line) (line : Nat) (s : State) : State :=
  match x.put with
  | some (w, _) => addReply s { who := w, loom := x.loom, addr := 2 ^ 63 + line * 128, len := 128, write := true, status := 0, code := none, data := [] }
  | none => s

/-- Data of a line once granted (R326): the bytes that waited to be stored, else those of the grant, else what a sharer held. -/
def grantedData (x : Line) (m : TapMsg) : List Byte :=
  match x.put with
  | some (_, bs) => bs
  | none => slice (if m.data.isEmpty then x.data else m.data) 0 128

/-- A grant taken by the requester (R326): the line's state and data; the request is answered, and a store of the whole line made. -/
def takeGrant (s : State) (m : TapMsg) (own : Bool) : State :=
  let line := lineOf m.srcDev.toNat m.addr.toNat
  match tfind s.coh.lines line, lineOut s line with
  | some x, some o =>
    if x.want ≠ some own ∨ o.msg.tag ≠ m.tag then s
    else storeDone x line (touchLine (dropOut s o.msg.tag) line
      { x with valid := true, owned := own, data := grantedData x m, want := none, put := none })
  | _, _ => s

/-- GRANT_S (R326). -/
def execGrantS (m : TapMsg) (s : State) : Out :=
  effect (fun s => if m.op ≠ .grantS then s else arrive s m fun t => takeGrant t m false) s

/-- GRANT_M (R326). -/
def execGrantM (m : TapMsg) (s : State) : Out :=
  effect (fun s => if m.op ≠ .grantM then s else arrive s m fun t => takeGrant t m true) s

/-- EVICT_ACK (R326): the eviction buffer is freed and the line is I. -/
def execEvictAck (m : TapMsg) (s : State) : Out :=
  effect (fun s =>
    let line := lineOf m.srcDev.toNat m.addr.toNat
    if m.op ≠ .evictAck then s
    else match tfind s.coh.lines line, lineOut s line with
      | some x, some o => if x.evicting && decide (o.msg.tag = m.tag) then dropLine (dropOut s o.msg.tag) line else s
      | _, _ => s) s

/-- A holder's answer to a SNOOP and its next state (R326). -/
def snoopAnswer (x : Line) (inv : Bool) : SnpKind × List Byte × Line :=
  if x.evicting then (.evictPending, [], x)
  else if !x.valid then (.ackI, [], x)
  else if x.owned then
    (if inv then (.dataI, x.data, { x with valid := false, owned := false, data := [] }) else (.dataS, x.data, { x with owned := false }))
  else if inv then (.ackI, [], { x with valid := false, data := [] })
  else (.ackI, [], x)

/-- A SNOOP answered at once by the line's state (R326); the answer is kept for a duplicate (R322). -/
def snooped (s : State) (m : TapMsg) : State :=
  let line := lineOf m.srcDev.toNat m.addr.toNat
  let (k, d, t) := match tfind s.coh.lines line with
    | none => (SnpKind.ackI, ([] : List Byte), s)
    | some x => ((snoopAnswer x m.snpInv).1, (snoopAnswer x m.snpInv).2.1, keepLine s line (snoopAnswer x m.snpInv).2.2)
  let r := { rspTo t m 0 d with op := .snpRsp, snp := k }
  remember (sendAny t r) m r

/-- SNOOP (R326). -/
def execSnoop (m : TapMsg) (s : State) : Out :=
  effect (fun s => if m.op ≠ .snoop then s else arrive s m fun t => snooped t m) s

-- ## The home (R327-R329)

/-- READ_SHARED (R327). -/
def execReadShared (m : TapMsg) (s : State) : Out :=
  effect (fun s => if m.op ≠ .readShared then s else arrive s m fun t => granted t m (serveCoh m)) s

/-- READ_OWN (R327), and the ATOMIC that travels to a coherent export (R326, R327). -/
def execReadOwn (m : TapMsg) (s : State) : Out :=
  effect (fun s =>
    if m.op = .readOwn ∨ (m.op = .atomic ∧ m.coh = true) then arrive s m fun t => granted t m (serveCoh m) else s) s

/-- What a snoop's answer does at the home (R327, R328): EVICT_PENDING waits for the EVICT. -/
def snoopDone (s : State) (m : TapMsg) (line : Nat) : State :=
  match m.snp with
  | .evictPending => s
  | .dataS => trackDone s line m.srcDev.toNat true m.data
  | .dataI => trackDone s line m.srcDev.toNat false m.data
  | .ackI => trackDone s line m.srcDev.toNat false []

/-- SNP_RSP (R327, R328): the home takes the answer to a SNOOP it keeps. One that an EVICT has already satisfied changes nothing more. -/
def execSnpRsp (m : TapMsg) (s : State) : Out :=
  effect (fun s =>
    if m.op ≠ .snpRsp then s
    else match s.router.out.find? fun o => decide (o.msg.op = .snoop) && decide (o.msg.tag = m.tag) && decide (o.msg.dstDev = m.srcDev) with
      | none => s
      | some o =>
        let t := { s with router := { s.router with out := dropFirst (fun x => decide (x = o)) s.router.out } }
        match o.origin with
        | .snoop line => snoopDone (dropGrants t m.srcDev.toNat line) m line
        | _ => t) s

/-- EVICT (R328). -/
def execEvict (m : TapMsg) (s : State) : Out :=
  effect (fun s => if m.op ≠ .evict then s else arrive s m fun t => granted t m (applyEvict m)) s

/-- DIR_BACKINV (R329): the waiting request for the line of `addr` gets room; the eviction is counted. -/
def execDirBackinv (addr : BitVec 42) (s : State) : Out :=
  effect (awake fun s =>
    match s.coh.queue.find? fun q => decide (homeLineOf q = addr.toNat / 128) with
    | none => s
    | some m =>
      match dirVictim s (homeLineOf m) m.srcDev.toNat with
      | none => s
      | some v => if lineBusy s v then s else addCnt (backInvalidate s v) (tapKey 0x11C) 1) s

-- ## The routing table (R332)

/-- TAP_RT_READ (R332): OP = 1. -/
def opTapRtRead (s : State) : State :=
  let e := rtOf s (rdF s (tapKey 0x104) 13 0)
  wr (wr s (tapKey 0x10C) e.1) (tapKey 0x110) e.2

/-- TAP_RT_WRITE (R332): OP = 2. -/
def opTapRtWrite (s : State) : State :=
  { s with router := { s.router with rt := tput s.router.rt (rdF s (tapKey 0x104) 13 0) (rd s (tapKey 0x10C), rd s (tapKey 0x110)) } }

/-- TAP_RT_READ (R332). -/
def execTapRtRead (s : State) : Out := effect (onPage 0x200000 0x108 opTapRtRead) s

/-- TAP_RT_WRITE (R332). -/
def execTapRtWrite (s : State) : Out := effect (onPage 0x200000 0x108 opTapRtWrite) s

end Sys2Proof.Machine
end

