-- ==== Sys2Proof/Machine/Links.lean ====
section
/-! DEFINITION. Weft ports and links (R300-R307, R324, R421): training, lanes, going down, flits and replays. -/

namespace Sys2Proof.Machine

/-- Whether a port is split into two links (R301). -/
def portSplit (s : State) (p : Nat) : Bool := fbit (rd s (wfpKey p 0x100)) 1

/-- Whether a port is enabled. -/
def portEn (s : State) (p : Nat) : Bool := fbit (rd s (wfpKey p 0x100)) 0

/-- Links that a port forms (R301). -/
def portLinks (s : State) (p : Nat) : List Nat := if portSplit s p then [2 * p, 2 * p + 1] else [2 * p]

/-- Whether a link has eight lanes. -/
def wideLink (s : State) (k : Nat) : Bool := !portSplit s (k / 2)

/-- Lanes of a link, as port lanes (R301). -/
def linkLanes (s : State) (k : Nat) : List Nat :=
  if wideLink s k then List.range 8 else if k % 2 = 0 then [0, 1, 2, 3] else [4, 5, 6, 7]

/-- Credits of a fresh link (R304). -/
def freshCredits (wide : Bool) : List Nat := if wide then [512, 512, 256, 768] else [256, 256, 128, 384]

/-- The four lanes of a half. -/
def halfLanes (h : Nat) : List Nat := if h = 0 then [0, 1, 2, 3] else [4, 5, 6, 7]

/-- Whether a half holds no failed lane. -/
def halfGood (bad : BitVec 8) (h : Nat) : Bool := (halfLanes h).all fun n => !bad.getLsbD n

/-- A link event (R324, R421): to its looms, and to PF0 through the ledger entry of its port. -/
def linkEvent (s : State) (k typ cause : Nat) : State :=
  let s1 := produceAll s (linkLooms s k) typ 0x060 (k / 2) (BitVec.ofNat 64 k) (BitVec.ofNat 64 cause)
  report s1 (localRep s1 0x060 (k / 2) .link 0x060 (k / 2) cause) false

/-- The event of a lost lane or link (R324), kept in the port's error registers too. -/
def linkLost (s : State) (k typ cause : Nat) : State := linkEvent (blkError s (wfpKey (k / 2) 0) 4 (BitVec.ofNat 32 k)) k typ cause

/-- Training of a link starts (R302): its transmitters leave electrical idle. -/
def startTraining (s : State) (k : Nat) : State :=
  let b := s.board
  setLinkState { s with board := { b with wfIdle := b.wfIdle &&& ~~~(1#16 <<< (k / 2)) } } k 1

/-- A link before it trains: SEQ, credits and lanes start afresh. -/
def blankLink (x : Link) (wide : Bool) : Link :=
  { x with txSeq := 0, rxSeq := 0, replay := [], nakRun := 0, nakOpen := false, badLanes := 0, retrain := false
           credits := freshCredits wide, rets := [0, 0, 0, 0] }

/-- Training of every link of a port (R302); setting EN ends what a degraded link was left with (R306). -/
def trainPort (s : State) (p : Nat) : State :=
  (portLinks s p).foldl (fun t k =>
    startTraining (setLink t k { blankLink (linkOf t k) (wideLink t k) with enWait := false, deg := false }) k) s

/-- Whether a link of a port is stopping. -/
def portStops (s : State) (p : Nat) : Bool := (portLinks s p).any fun k => decide (linkState s k = 5)

/-- WEFT_PORT_ENABLE (R24, R302): EN sets and training starts, once the stop in progress has completed on every link of the port. -/
def opPortEnable (s : State) (p : Nat) : State :=
  if portEn s p then s
  else
    let s1 := wrB s (wfpKey p 0x100) 0 true
    if portStops s p then (portLinks s p).foldl (fun t k => setLink t k { linkOf t k with enWait := true }) s1
    else trainPort s1 p

/-- WEFT_PORT_ENABLE (R302). -/
def execWeftPortEnable (p : WeftId) (s : State) : Out := effect (onPage (wfpKey p 0) 0x100 fun s => opPortEnable s p) s

/-- The port's transmitters enter electrical idle once every link of it is off or down (R307). -/
def idlePort (s : State) (p : Nat) : State :=
  let b := s.board
  if (portLinks s p).all fun j => decide (linkState s j = 0) || decide (linkState s j = 4) then
    { s with board := { b with wfIdle := b.wfIdle ||| (1#16 <<< p) } }
  else s

/-- WEFT_PORT_DISABLE (R307): EN clears; a link that carries traffic first finishes the flits it has accepted, one that trains or is down goes off. -/
def opPortDisable (s : State) (p : Nat) : State :=
  if !portEn s p then s
  else idlePort ((portLinks s p).foldl (fun t k =>
      if linkWorks t k then setLinkState (setLink t k { linkOf t k with downAt := s.time }) k 5
      else setLinkState (setLink t k { linkOf t k with enWait := false }) k (if linkState t k = 5 then 5 else 0))
      (wrB s (wfpKey p 0x100) 0 false)) p

/-- WEFT_PORT_DISABLE (R307). -/
def execWeftPortDisable (p : WeftId) (s : State) : Out := effect (onPage (wfpKey p 0) 0x100 fun s => opPortDisable s p) s

/-- Number of a cause in INFO1 (R324). -/
def causeNum : DownCause → Nat
  | .lanesLost => 0
  | .retrainFailed => 1
  | .replayLimit => 2
  | .peerStopped => 3
  | .enCleared => 4

/-- The part of going down that concerns one link (R307): its flits are abandoned; with EN clear, or while an enable waits, it reads OFF. -/
def stopLink (s : State) (k cause : Nat) : State :=
  let x := linkOf s k
  setLinkState (setLink s k { x with
    replay := [], waitq := [], part := [], downAt := s.time, lost := some cause, nakRun := 0, retrain := false }) k
    (if portEn s (k / 2) && !x.enWait then 4 else 0)

/-- The waiting enable of a port starts its training once none of its links is stopping (R24, R302). -/
def waitedEnable (s : State) (p : Nat) : State :=
  if portEn s p && !portStops s p && (portLinks s p).any fun k => (linkOf s k).enWait then trainPort s p else s

/-- A link goes down (R307): it leaves every route, its transmitters idle, LINK_DOWN is posted (R324), and the requests it carried are resent at once (R322). -/
def goDown (s : State) (k : Nat) (cause : Nat) : State :=
  let s1 := linkLost (idlePort (stopLink s k cause) (k / 2)) k 0x0050 cause
  waitedEnable ((s1.router.out.filter fun o => decide (o.link = some k)).foldl resendOut s1) (k / 2)

/-- LINK_DOWN (R305, R307, R393): when its cause holds for the link as it stands. -/
def execLinkDown (k : LinkId) (cause : DownCause) (s : State) : Out :=
  effect (posting fun s =>
    let x := linkOf s k
    let can := match cause with
      | .lanesLost => linkWorks s k
      | .peerStopped => linkWorks s k
      | .retrainFailed => decide (linkState s k = 1) && x.retrain
      | .replayLimit => linkWorks s k && decide (16 ≤ x.nakRun)
      | .enCleared => decide (linkState s k = 5) && ((x.replay.isEmpty && x.waitq.isEmpty) || elapsedUs s.time x.downAt 10)
    if can then goDown s k (causeNum cause) else s) s

/-- WFP_NBR_k after training (R302, R331); VALID tells that the link came up with its neighbour. -/
def nbrWord (rep : TrainReport) (up : Bool) : Word32 :=
  BitVec.ofNat 32 (rep.device.toNat + 2 ^ 14 * b2n rep.devValid + 2 ^ 16 * rep.link.val + 2 ^ 21 * b2n up)

/-- The lanes of the half that an 8-lane link does not use, when it runs on half `h`. -/
def otherHalf (h : Nat) : BitVec 8 := if h = 0 then 0xF0 else 0x0F

/-- The half that a degraded link can run on (R306): whole in the report, and not the half that holds a failed lane. -/
def goodHalf (x : Link) (rep : TrainReport) : Option Nat :=
  [0, 1].find? fun h => halfGood x.badLanes h && (halfLanes h).all fun n => rep.lanes.getLsbD n

/-- A link that has trained whole carries traffic (R302); LINK_UP follows a LINK_DOWN or LINK_DEGRADED (R324). -/
def linkUp (s : State) (k : Nat) : State :=
  let x := linkOf s k
  let s1 := setLinkState (setLink s k { x with lost := none }) k 2
  match x.lost with
    | some c => linkEvent s1 k 0x0052 c
    | none => s1

/-- A link that has trained on one half is DEGRADED until EN is cleared and set again (R306). -/
def linkDegraded (s : State) (k h : Nat) : State :=
  let x := linkOf s k
  let y := { x with lost := some 0, deg := true, retrain := false, badLanes := x.badLanes ||| otherHalf h }
  linkLost (setLinkState (setLink s k (pumpLink y)) k 3) k 0x0051 0

/-- The lanes that a link's training found working. -/
def setLanes (s : State) (k : Nat) (rep : TrainReport) : State :=
  let key := wfpKey (k / 2) 0x104
  wrF s key 15 8 ((linkLanes s k).foldl (fun v n => setBit v n (rep.lanes.getLsbD n)) (BitVec.ofNat 32 (rdF s key 15 8))).toNat

/-- The end of a link's training (R302, R306). -/
def trained (s : State) (k : Nat) (rep : TrainReport) : State :=
  let x := linkOf s k
  if x.retrain || x.deg then
    match (if rep.peerMatches then goodHalf x rep else none) with
    | some h => linkDegraded s k h
    | none => if x.retrain then goDown s k 1 else setLinkState (setLink s k { x with downAt := s.time }) k 4
  else if rep.peerMatches && (linkLanes s k).all fun n => rep.lanes.getLsbD n then linkUp s k
  else setLinkState (setLink s k { x with downAt := s.time }) k 4

/-- LINK_TRAINED (R302, R306). -/
def execLinkTrained (k : LinkId) (rep : TrainReport) (s : State) : Out :=
  effect (posting fun s =>
    if linkState s k ≠ 1 then s
    else
      let t := trained (setLanes s k rep) k rep
      wr t (wfpKey (k.val / 2) (0x108 + 4 * (k.val % 2))) (nbrWord rep (linkWorks t k))) s

/-- LINK_TRAIN_RETRY (R302): a DOWN link trains again 100 ms later while EN stays 1. -/
def execLinkTrainRetry (k : LinkId) (s : State) : Out :=
  effect (fun s =>
    if linkState s k = 4 ∧ s.power.s5 = false ∧ portEn s (k.val / 2) ∧ elapsedUs s.time (linkOf s k).downAt 100000 then
      startTraining (setLink s k (blankLink (linkOf s k) (wideLink s k))) k
    else s) s

/-- LANE_FAIL (R306): an 8-lane link retrains on its other half; a 4-lane link, or one whose halves have both failed, goes down. A lane that the link does not use, or that still trains, only reads as failed. -/
def execLaneFail (p : WeftId) (lane : Fin 8) (s : State) : Out :=
  effect (posting fun s =>
    let k := if portSplit s p ∧ 4 ≤ lane.val then 2 * p.val + 1 else 2 * p.val
    let s1 := wrB s (wfpKey p 0x104) (8 + lane.val) false
    let x := linkOf s k
    let bad := x.badLanes ||| (1#8 <<< lane.val)
    let s2 := setLink s1 k { x with badLanes := bad }
    if !linkWorks s k then s1
    else if !wideLink s k then goDown s2 k 0
    else if !(halfGood bad 0 || halfGood bad 1) then goDown s2 k (if x.retrain then 1 else 0)
    else if !halfGood x.badLanes (lane.val / 4) then s2
    else setLinkState (setLink s2 k { linkOf s2 k with retrain := true }) k 1) s

-- ## Flits (R303, R305)

/-- Data bytes that follow a message's header (R313): none for the requests that carry no data. -/
def dataLen (hd : List Byte) : Nat :=
  let op := byteAt hd 0
  if op = 0x01 ∨ op = 0x04 ∨ op = 0x10 ∨ op = 0x11 ∨ op = 0x13 then 0 else fieldLe hd 12 4

/-- The cumulative acknowledgement of a flit (R305): acknowledged flits leave the replay buffer, and with them the count of their replays. -/
def takeAck (x : Link) (ack : BitVec 12) : Link :=
  match (List.range x.replay.length).find? fun i => (x.replay[i]?).any fun f => decide (f.seq = ack) with
  | none => x
  | some i =>
    let gone := x.replay.take (i + 1)
    pumpLink { x with
      replay := x.replay.drop (i + 1)
      nakRun := if gone.any fun f => decide (f.seq = x.nakSeq) then 0 else x.nakRun }

/-- Credits that a CTRL flit returns (R303, R304): a count for each virtual channel in its first 8 bytes (log entry 12). -/
def takeCredits (x : Link) (payload : List Byte) : Link :=
  pumpLink { x with credits := (List.range 4).map fun v => x.credits.getD v 0 + fieldLe payload (2 * v) 2 }

/-- The credit of a flit taken from the receive buffer, returned to the peer (R303, R304). -/
def returnCredit (x : Link) (vc : Nat) : Link := { x with rets := x.rets.set vc (x.rets.getD vc 0 + 1) }

/-- Payload bytes joined to the message being received (R303); a complete message is handed to the router. -/
def takePayload (s : State) (k : Nat) (f : Flit) : State :=
  let x := linkOf s k
  let vc := f.vc.toNat
  let bs := (if f.kind = 1 then [] else tget [] x.part vc) ++ slice f.payload 0 56
  let n := 32 + dataLen bs
  if n ≤ bs.length then
    let s1 := setLink s k { x with part := tdel x.part vc }
    { s1 with router := { s1.router with inbox := s1.router.inbox ++ [bs.take n] } }
  else setLink s k { x with part := tput x.part vc bs }

/-- A NAK that names the SEQ expected next (R305). -/
def sendNak (s : State) (k : Nat) : State :=
  let x := linkOf s k
  setLink s k { x with naks := x.naks ++ [x.rxSeq], nakOpen := true }

/-- A flit whose CRC is good (R303, R305): its ACK is taken; a CTRL flit returns credits; the next HEAD or DATA flit in order is taken, and a gap is NAKed once. -/
def goodFlit (s : State) (k : Nat) (f : Flit) : State :=
  let x := takeAck (linkOf s k) f.ack
  if f.kind = 3 then setLink s k (takeCredits x f.payload)
  else if f.kind ≠ 1 ∧ f.kind ≠ 2 then setLink s k x
  else if f.seq = x.rxSeq then
    takePayload (setLink s k { returnCredit x f.vc.toNat with rxSeq := x.rxSeq + 1, nakOpen := false }) k f
  else if x.nakOpen then setLink s k x
  else sendNak (setLink s k x) k

/-- FLIT_RECEIVE (R303, R305): FEC corrections and uncorrectable codewords are counted; a flit whose CRC fails is counted, discarded and, unless it carries no SEQ, NAKed. -/
def execFlitReceive (k : LinkId) (f : Flit) (corrected uncorrectable : BitVec 8) (s : State) : Out :=
  effect (fun s =>
    if !linkFlows s k then s
    else
      let s1 := addCnt (addCnt s (wfpKey (k.val / 2) 0x110) corrected.toNat) (wfpKey (k.val / 2) 0x114) uncorrectable.toNat
      if f.crc = Config.crc32 (flitBytes f) then goodFlit s1 k f
      else
        let s2 := addCnt s1 (wfpKey (k.val / 2) 0x118) 1
        if f.kind = 0 ∨ f.kind = 3 then s2 else sendNak s2 k) s

/-- FLIT_NAK (R305): flits before the named one are acknowledged, the rest replayed; 16 replays of one flit in succession take the link down. -/
def execFlitNak (k : LinkId) (seq : BitVec 12) (s : State) : Out :=
  effect (posting fun s =>
    if !linkFlows s k || !((linkOf s k).replay.any fun f => decide (f.seq = seq)) then s
    else
      let x := takeAck (linkOf s k) (seq - 1)
      let run := if x.nakRun ≠ 0 ∧ x.nakSeq = seq then x.nakRun + 1 else 1
      let s1 := addCnt (setLink s k { x with nakSeq := seq, nakRun := run }) (wfpKey (k.val / 2) 0x11C) 1
      if 16 ≤ run then goDown s1 k 2 else s1) s

end Sys2Proof.Machine
end

