-- ==== Sys2Proof/Machine/Parks.lean ====
section
/-! DEFINITION. Starting and ending bolts (R207, R211, R217, R222, R242), shed points (R68), parks (R247-R252), RING_PUT (R214). -/

namespace Sys2Proof.Machine

/-- Entries of a RING_PUT appended in order from `pos` on, each once the ring takes it (R214): stops where one waits, and tells where. -/
def ringPutFrom (c src l r : Nat) (x : Slot) : Nat → State → Nat → State × Nat × Bool
  | 0, s, pos => (s, pos, true)
  | n + 1, s, pos =>
    match tryPush s (coreWho c x.idx) l r (spRd s c (src + 64 * pos) 64) with
    | (t, ok) =>
      if t.trip.need.isSome && decide (x.pos < pos) then (s, pos, false)
      else if ok then ringPutFrom c src l r x n t (pos + 1) else (t, pos, false)

/-- RING_PUT (R214). -/
def execRingPut (c : CoreId) (s : State) : Out :=
  effect (asking fun s =>
    match issuedOp s c (isOp 0x30) with
    | none => s
    | some x =>
      let r := ringPutFrom c (wfld x.words 6 17 0 * 128) (coreLoom s c) (wfld x.words 5 17 0) x (wfld x.words 7 16 0 - x.pos) s x.pos
      partDone r.1 c x r.2.1 r.2.2) s

-- ## Starting a bolt (R207, R211, R217)

/-- Direction from a core to a mesh neighbour (R186), 7 when they do not adjoin. -/
def dirTo (a b : Nat) : Nat :=
  ((List.range 4).find? fun d => decide (neighbour a d = some b)).getD 7

/-- CORE_CHAIN of the core at a rank (R187, R211): CHAIN_IN in [2:0], CHAIN_OUT in [6:4]. -/
def chainWord (g : Stage) (k : Nat) : Word32 :=
  if !g.chain then 0x77 else
  let me := g.cores.getD k 0
  let i := if k = 0 then 7 else dirTo me (g.cores.getD (k - 1) 0)
  let o := if k + 1 < g.cores.length then dirTo me (g.cores.getD (k + 1) 0) else 7
  BitVec.ofNat 32 (i + 16 * o)

/-- Sets a core's stage, rank and chain ports (R211). -/
def setStageRegs (s : State) (g : Stage) (k c : Nat) : State :=
  wr (wr s (coreKey c 0x104) (BitVec.ofNat 32 (g.sel + k * 2 ^ 16))) (coreKey c 0x108) (chainWord g k)

/-- A stage's cores set up for a bolt. -/
def startStage (s : State) (e : Entry) (g : Stage) : State :=
  (List.range g.cores.length).foldl (fun t k =>
    let c := g.cores.getD k 0
    let o := coreOf t c
    setCore (setStageRegs t g k c) c { bolt := some (e.ring, e.seq), sfu := o.sfu, nextBank := o.nextBank, retired := o.retired, shRest := o.shRest
                                       rx := o.rx, owe := o.owe, rxOpen := o.rxOpen }) s

/-- Whether a running, unparked bolt of the loom uses a core of the set (R207). -/
def coresBusy (s : State) (l : Nat) (cs : List Nat) (r : Nat) (q : Word32) : Bool :=
  s.entries.any fun e => decide (e.loom = l) && decide (e.phase = .running) && !(decide (e.ring = r) && decide (e.seq = q)) &&
    e.bolt.any fun b => !b.parked && (boltSet b).any fun c => cs.contains c

/-- Whether a halt is in force on a region: junction or DRAM ladder (R298, R387). -/
def regionHalted (s : State) (r : Nat) : Bool := (regionOf s r).halt || fbit (rd s (drcKey r 0x100)) 7

/-- Whether a verified bolt names a core that has retired since (R418). -/
def namesRetired (s : State) (b : Bolt) : Bool := (boltCores b).any fun c => (coreOf s c).retired

/-- BOLT_START (R207, R211, R217): the stages are set and the start timestamp is taken. A bolt that names a core retired since its verification goes back to the loader, which replaces the core or rejects the bolt (R216, R418; log entry 56). -/
def execBoltStart (r : RingId) (s : State) : Out :=
  effect (awake fun s =>
    match headEntry s r with
    | none => s
    | some e =>
      match e.bolt with
      | none => s
      | some b =>
        if e.phase ≠ .ready ∨ coresBusy s e.loom (boltSet b) e.ring e.seq ∨ (loomOf s e.loom).paused ∨
           (loomSt s e.loom ≠ 2 ∧ loomSt s e.loom ≠ 3) ∨ (boltCores b).any (fun c => regionHalted s (coreRegion c)) then s
        else if namesRetired s b then updEntry s e.ring e.seq fun x => { x with phase := .fetched, bolt := none }
        else
          let b1 := { b with start := s.time, startSeq := s.endSeq, clockAt := s.time, clockUs := 0, clockOn := true }
          let s1 := updEntry { s with endSeq := s.endSeq + 1 } e.ring e.seq fun x => { x with
            phase := .running, start := s.time, limit := (ringOf s e.ring).timeout.toNat, bolt := some b1 }
          b.stages.foldl (fun t g => startStage t e g) s1) s

-- ## Ending a bolt (R188, R217, R222, R242)

/-- Counter registers of a profile record, in its order (R222). -/
def profileRegs : List Nat := [0x1CC, 0x1D0, 0x1D4, 0x188, 0x194, 0x190, 0x198, 0x19C, 0x10C, 0x110, 0x114, 0x130]

/-- The counters of a core now (R222). -/
def profileNow (s : State) (c : Nat) : List Word32 := profileRegs.map fun o => rd s (coreKey c o)

/-- The profile record of a core (R222). -/
def profileBytes (s : State) (c : Nat) : List Byte :=
  let k := coreOf s c
  let now := profileNow s c
  let d := match k.prof with
    | some p => (List.range 12).flatMap fun i => toLe 4 (now.getD i 0 - p.getD i 0).toNat
    | none => List.replicate 48 0
  toLe 2 c ++ toLe 2 0 ++ toLe 4 k.profDone ++ d ++ List.replicate 8 0

/-- Operations completed on every core of their stage (R219). -/
def opsDone (s : State) (b : Bolt) : Nat :=
  ((List.range (boltOps s b)).filter fun i =>
    match b.stages.find? fun g => decide (g.sel = descStage s b i) with
    | some g => g.cores.all fun c => (coreOf s c).done.contains i
    | none => false).length

/-- A receive port empty, its sender's credits full (R186, R188). -/
def clearPort (s : State) (c d : Nat) : State :=
  let s1 := wrF s (portKey c d) 13 8 0
  match neighbour c d with
  | some n => if coreEnabled s n then wrF s1 (portKey n (facing d)) 5 0 32 else s1
  | none => s1

/-- A parked core's ports empty: their units are in its save slot (R247), so that no other bolt receives them (R188). -/
def emptyPorts (s : State) (c : Nat) : State :=
  let s1 := (List.range 4).foldl (fun t d => clearPort t c d) s
  setCore s1 c { coreOf s1 c with rx := [], owe := [], rxOpen := [] }

/-- Credits of a core's port with those the neighbour still owes it. -/
def fullCredits (s : State) (c d : Nat) : Nat :=
  match neighbour c d with
  | some n => min 32 (txCredits s c d + tget 0 (coreOf s n).owe (facing d))
  | none => txCredits s c d

/-- What a core's receive port `d` still holds discarded and recorded, its sender's credits whole again (R188). -/
def discardPort (s : State) (c d : Nat) : State :=
  let k := coreOf s c
  let s1 := if (tget [] k.rx d).all List.isEmpty then s else orReg s (coreKey c 0x134) (BitVec.ofNat 32 (2 ^ d))
  setCore (clearPort s1 c d) c { k with rx := tdel k.rx d, owe := tdel k.owe d, rxOpen := k.rxOpen.filter (· ≠ d) }

/-- Bytes that a core has sent to a neighbour outside its bolt discarded, unless a bolt runs there: no later bolt receives them (R188). -/
def discardSent (s : State) (b : Bolt) (c : Nat) : State :=
  (List.range 4).foldl (fun t d =>
    match neighbour c d with
    | some n =>
      let busy := match coreBolt t n with
        | some (_, y) => !y.parked
        | none => false
      if (boltSet b).contains n || busy then t else discardPort t n (facing d)
    | none => t) s

/-- A core free of its bolt, its receive ports discarded (R188). -/
def freeCore (s : State) (c : Nat) : State :=
  let k := coreOf s c
  let s1 := (List.range 4).foldl (fun t d => discardPort t c d) s
  setCore s1 c { sfu := k.sfu, nextBank := k.nextBank, retired := k.retired, shRest := k.shRest }

/-- Whether a DESTROY of the loom is at work or waits (R263, R264). -/
def destroying (s : State) (l : Nat) : Bool := (loomOf s l).cmds.any fun c => decide (c.op = 4)

/-- Members of a bolt's pick moved between IN_PICK and PARKED (R230, R247, R249). -/
def parkMembers (s : State) (e : Entry) (park : Bool) : State :=
  match (loomOf s e.loom).picks.find? fun p => decide (p.submit = e.ring) && decide (p.seq = e.id.toNat) with
  | none => s
  | some p => p.members.foldl (fun t i =>
      match tfind t.creel i with
      | some x =>
        if park then (if x.state = 3 then setCreel t i { x with state := 4, parks := x.parks + 1 } else t)
        else if x.state = 4 then setCreel t i { x with state := 3 } else t
      | none => t) s

/-- A member still IN_PICK when its step bolt ends (R242): freed later with its loom when a destruction stopped the bolt. -/
def endMember (s : State) (status i : Nat) : State :=
  match tfind s.creel i with
  | none => s
  | some e =>
    if e.state ≠ 3 ∨ (status = 7 ∧ destroying s e.loom) then s
    else if e.cancelPend then cancelEntry s i e
    else if status = 0 then setCreel s i { e with state := 2 }
    else reqEvent (setCreel s i { e with state := 6 }) e 0x21 (status + i * 2 ^ 32)

/-- The pick of an ended bolt (R230, R239, R242): parked members are IN_PICK again, each is updated, the pick ring's RP moves past the pick, and it is no longer outstanding. -/
def endPick (s : State) (e : Entry) (status : Nat) : State :=
  match (loomOf s e.loom).picks.find? fun p => decide (p.submit = e.ring) && decide (p.seq = e.id.toNat) with
  | none => s
  | some p =>
    let s1 := p.members.foldl (fun t i => endMember t status i) (parkMembers s e false)
    let g := ringOf s1 p.ring
    let s2 := setRing s1 p.ring { g with rp := g.rp + BitVec.ofNat 32 (p.members.length + 1) }
    let y := loomOf s2 e.loom
    let s3 := setLoom s2 e.loom { y with picks := y.picks.filter fun q => decide (q.seq ≠ p.seq) }
    if p.urgent then wrB s3 (loomKey e.loom 0x4A8) 2 false else s3

/-- A bolt that has not started ends (R215, R242, R264): its pick, if it is a step bolt, ends with it. -/
def endUnstarted (s : State) (e : Entry) (status : Nat) : State := endEntry (endPick s e status) e status

/-- A park of a bolt dropped because the bolt ended (R247). -/
def dropPark (s : State) (e : Entry) : State := updPark s e.loom e.ring e.seq fun _ => none

/-- Profile records of a bolt (R222), and the status of the first write that fails, 0 when none does: its event follows (R21, R271). -/
def writeProfiles (s : State) (e : Entry) (b : Bolt) : State × Nat :=
  let a := hdr s b 72 8
  if a = 0 then (s, 0) else
  (boltSet b).foldl (fun p c =>
    match loomWrite p.1 ⟨0x020, 0, e.ring⟩ e.loom (a + 64 * c) (profileBytes p.1 c) with
    | (t, none) => (t, p.2)
    | (t, some x) => (postErr t e.loom x 0x020 0, if p.2 = 0 then x.status else p.2)) (s, 0)

/-- A bolt ends with a status (R217, R219, R220). -/
def finishBolt (s : State) (e : Entry) (b : Bolt) (status : Nat) : State :=
  let n := opsDone s b
  let (s1, bad) := writeProfiles s e b
  let st := if status = 0 then bad else status
  let s2 := (boltSet b).foldl freeCore ((boltCores b).foldl (fun t c => discardSent t b c) s1)
  let s3 := dropPark (endPick s2 e st) e
  let fl := BitVec.ofNat 10 (256 * b2n b.wasParked + 512 * b2n b.remapped)
  let s4 := updEntry s3 e.ring e.seq fun x => { x with opsDone := BitVec.ofNat 32 n, flags := x.flags ||| fl, bolt := x.bolt }
  let s5 := if st = 2 then produce s4 e.loom 0x0002 0x020 0 e.id (BitVec.ofNat 64 e.ring) else s4
  endEntry s5 e st

/-- Status of a bolt that a stop request ended (R220). -/
def stopStatus (e : Entry) (b : Bolt) : Nat :=
  match b.stop with
  | .timeout => 2
  | .failure => e.status
  | .quiesce => 7
  | .lost => e.status
  | _ => 0

/-- Whether a bolt's stop request ends it once its cores have stopped. -/
def stopEnds (b : Bolt) : Bool :=
  decide (b.stop = .timeout) || decide (b.stop = .failure) || decide (b.stop = .quiesce)

/-- BOLT_END (R217, R218): completed, or stopped on every core. A bolt whose TIMEOUT has expired ends OK only within the tick of the expiry. -/
def execBoltEnd (r : RingId) (s : State) : Out :=
  effect (asking fun s =>
    match headEntry s r with
    | none => s
    | some e =>
      match e.bolt with
      | none => s
      | some b =>
        if e.phase ≠ .running ∨ b.parked then s
        else if boltDone s b then finishBolt s e b (if b.stop = .timeout ∧ b.graceAt = s.time then 0 else e.status)
        else if stopEnds b && (boltCores b).all (coreStopped s) then finishBolt s e b (stopStatus e b)
        else s) s

-- ## Shed points and parks (R68, R247-R252)

/-- Base address of a core's save slot (R248). -/
def saveSlot (s : State) (l : Nat) (b : Bolt) (c : Nat) : Nat :=
  let r := coreRegion c
  rdF s (loomKey l (0x4C0 + 8 * r)) 31 16 * 65536 + (rd s (loomKey l (0x4C4 + 8 * r))).toNat * 2 ^ 32 +
  ((coreY c % 6) * 8 + coreX c % 8) * hdr s b 28 4

/-- Pairs of (scratchpad range, offset in the slot) of a core's live ranges at its shed point (R244, R248). -/
def liveLayout : Nat → List (Nat × Nat) → List (Nat × Nat × Nat)
  | _, [] => []
  | o, (a, n) :: r => (a, n, o) :: liveLayout (o + n) r

/-- The shed-point record at which a core stands. -/
def standing (s : State) (b : Bolt) (c : Nat) : ShedRec :=
  ((stageSheds s b (coreStage s c))[(coreOf s c).stopAt]?).getD { op := boltOps s b, stage := 0, liveCnt := 0, liveIdx := 0, dist := 0 }

/-- A core that saves or restores its image, as a unit. -/
def parkWho (c : Nat) : Who := ⟨0x040, c, 0x10000⟩

/-- Pieces written one after the other: address and bytes; the first failure stops them. -/
def writePieces (w : Who) (l : Nat) : List (Nat × List Byte) → State → State × Option AccErr
  | [], s => (s, none)
  | (a, bs) :: r, s =>
    match loomWrite s w l a bs with
    | (t, none) => writePieces w l r t
    | (t, some e) => (t, some e)

/-- A core's port image and live ranges written to its save slot (R247, R248). -/
def saveCore (s : State) (l : Nat) (b : Bolt) (c : Nat) : State × Option AccErr :=
  let base := saveSlot s l b c
  let units := (List.range 4).flatMap fun d =>
    let us := tget [] (coreOf s c).rx d
    (List.range us.length).map fun u => (base + d * 65536 + u * 2048, us.getD u [])
  let lives := (liveLayout 262144 (liveRanges s b (standing s b c))).map fun x => (base + x.2.2, spRd s c x.1 x.2.1)
  writePieces (parkWho c) l (units ++ lives) s

/-- What a core's port image holds beside its bytes: unit lengths and credits (R247). -/
def portShape (s : State) (c : Nat) : Nat × List (List Nat) × List Nat :=
  (c, (List.range 4).map (fun d => (tget [] (coreOf s c).rx d).map List.length),
   (List.range 4).map (fullCredits s c))

/-- Pieces read one after the other; the first failure stops them. -/
def readAll (w : Who) (l : Nat) : List (Nat × Nat) → State → List (List Byte) → State × Except AccErr (List (List Byte))
  | [], s, acc => (s, .ok acc)
  | (a, n) :: r, s, acc =>
    match loomRead s w l a n with
    | (t, .ok bs) => readAll w l r t (acc ++ [bs])
    | (t, .error e) => (t, .error e)

/-- A core's live ranges and port image restored from the save slot of core `src` (R249, R419). -/
def restoreCore (s : State) (l : Nat) (b : Bolt) (c src : Nat) : State × Option AccErr :=
  let base := saveSlot s l b src
  match b.saved.find? fun x => decide (x.1 = src) with
  | none => (s, none)
  | some (_, us, cr) =>
    let units := (List.range 4).flatMap fun d =>
      (List.range (us.getD d []).length).map fun u => (base + d * 65536 + u * 2048, (us.getD d []).getD u 0)
    let lives := liveLayout 262144 (liveRanges s b (standing s b c))
    match readAll (parkWho c) l (units ++ lives.map fun x => (base + x.2.2, x.2.1)) s [] with
    | (t, .error e) => (t, some e)
    | (t, .ok bs) =>
      let start := fun d => ((us.take d).map List.length).sum
      let s1 := (List.range 4).foldl (fun t d => setRx t c d ((bs.drop (start d)).take (us.getD d []).length)) t
      let s2 := (List.range 4).foldl (fun t d => wrF t (coreKey c (0x120 + 4 * d)) 5 0 (cr.getD d 32)) s1
      ((List.range lives.length).foldl (fun t i => spWr t c (lives.getD i (0, 0, 0)).1 (bs.getD (units.length + i) [])) s2, none)

/-- A stopped core goes on: it fetches from the first operation after its shed point that is not done (R249). -/
def goOn (s : State) (b : Bolt) (c : Nat) : State :=
  let k := coreOf s c
  setCore s c { k with stopReq := false, stopped := false, fetchAt := if k.stopped then min k.fetchAt (stopOp s c b + 1) else k.fetchAt }

/-- The first park of a loom in a state, with its entry and bolt. -/
def parkOf (s : State) (l st : Nat) (p : Entry → Bolt → Bool) : Option (Park × Entry × Bolt) :=
  (loomOf s l).parks.findSome? fun k =>
    match findEntry s k.ring k.seq with
    | some e => match e.bolt with
      | some b => if k.st = st ∧ p e b then some (k, e, b) else none
      | none => none
    | none => none

/-- A park that PARK_SAVE may save (R247): every core has stopped, and the bolt does not stop for another reason. -/
def readyPark (s : State) (l : Nat) : Option (Park × Entry × Bolt) :=
  parkOf s l 1 fun _ b => decide (b.stop = .park) && (boltCores b).all (coreStopped s)

/-- The parked bolt of a loom. -/
def parkedBolt (s : State) (l : Nat) : Option (Park × Entry × Bolt) := parkOf s l 2 fun _ b => b.parked

/-- A completed park's counts (R254): PARK_LAT is the time from the request until every core had stopped. -/
def countPark (s : State) (l : Nat) (p : Park) (cs : List Nat) : State :=
  let us := ticksToUs (lastStop s cs) p.since
  let s1 := addCnt s (loomKey l 0x4B0) 1
  if (rd s1 (loomKey l 0x4AC)).toNat < us then wr s1 (loomKey l 0x4AC) (BitVec.ofNat 32 us) else s1

/-- Whether a core must stay at its shed point: its loom is paused or its region halted. -/
def coreHeld (s : State) (l c : Nat) : Bool := (loomOf s l).paused || regionHalted s (coreRegion c)

/-- What a core keeps while its bolt is parked beside its image: its served KEEP point, its counters' run since the first PROFILE issue, its PROFILE operations (R222, R249, R252). -/
def keptOf (s : State) (c : Nat) : Nat × Option (List Word32) × Nat :=
  let k := coreOf s c
  let now := profileNow s c
  (k.keepAt, k.prof.map fun p => (List.range 12).map fun i => now.getD i 0 - p.getD i 0, k.profDone)

/-- A bolt whose image is saved, which is its recovery point (R419). -/
def withImage (s : State) (b : Bolt) : Bolt :=
  let cs := boltCores b
  { b with
    recovery := cs.map fun c => (c, (coreOf s c).stopAt, (coreOf s c).done), saved := cs.map (portShape s)
    kept := cs.foldl (fun t c => tput t c (keptOf s c)) [], homes := [], noRepeat := false, stop := .none }

/-- The images of a bolt's cores saved, each by its core; the first failure stops the saving. -/
def saveAll (l : Nat) (b : Bolt) : List Nat → State → State × Option AccErr
  | [], s => (s, none)
  | c :: cs, s =>
    match saveCore s l b c with
    | (t, none) => saveAll l b cs t
    | (t, some e) => (t, some e)

/-- A bolt whose image cannot be saved or restored ends with the failed access's status, its event posted (R220, R271; log entry 55). -/
def imageFault (s : State) (e : Entry) (b : Bolt) (er : AccErr) : State :=
  let s1 := updEntry (postErr s e.loom er 0x040 0) e.ring e.seq fun x => { x with status := er.status }
  updEntry s1 e.ring e.seq fun x => { x with bolt := some { b with stop := .failure, graceAt := s.time } }

/-- A saved recovery park over: the bolt goes on at once, but for cores that a pause or a halt holds (R252, R298, R390). -/
def endRecovery (s : State) (l : Nat) (e : Entry) (b : Bolt) : State :=
  let cs := boltCores b
  let held := cs.any (coreHeld s l)
  let b1 := if held then { b with stop := .halt, clockUs := boltClock s e b, clockOn := false } else b
  let s1 := updEntry s e.ring e.seq fun x => { x with bolt := some b1 }
  let s2 := (cs.filter fun c => !coreHeld s l c).foldl (fun t c => goOn t b1 c) s1
  updPark s2 l e.ring e.seq fun _ => none

/-- A bolt parked (R247): its TIMEOUT stands, its members are PARKED, its cores' ports are empty. -/
def endSave (s : State) (l : Nat) (e : Entry) (b : Bolt) (clock : Nat) : State :=
  let s1 := updEntry s e.ring e.seq fun x => { x with bolt := some { b with parked := true, wasParked := true, clockUs := clock, clockOn := false } }
  let s2 := (boltCores b).foldl emptyPorts s1
  updPark (parkMembers s2 e true) l e.ring e.seq fun p => some { p with st := 2 }

/-- A park whose cores have all stopped saved (R247, R248, R252): the images become the recovery point. -/
def savePark (s : State) (l : Nat) : State :=
  match readyPark s l with
  | none => s
  | some (p, e, b) =>
    match saveAll l b (boltCores b) s with
    | (t, some er) => imageFault t e b er
    | (t, none) =>
      let u := countPark t l p (boltCores b)
      if p.why = .recovery then endRecovery u l e (withImage s b) else endSave u l e (withImage s b) (boltClock s e b)

/-- Whether the START of a loom is at work (R261). -/
def starting (s : State) (l : Nat) : Bool := (loomOf s l).executing && (loomOf s l).cmds.head?.any fun c => decide (c.op = 2)

/-- Whether a bolt must stay where it is: its loom is paused or not running, or a region of its cores is halted (R251, R262, R298, R390). -/
def boltHeld (s : State) (l : Nat) (b : Bolt) : Bool :=
  (loomOf s l).paused || (decide (loomSt s l ≠ 2) && !starting s l) || (boltCores b).any fun c => regionHalted s (coreRegion c)

/-- A core set up again as it stood at its bolt's recovery point: what it kept comes from the core whose rank it holds, its counters' run since the first PROFILE issue only from itself (R249, R419). -/
def backAt (s : State) (e : Entry) (b : Bolt) (c : Nat) : State :=
  let h := tget c b.homes c
  let point := b.recovery.find? fun y => decide (y.1 = h)
  let kept := tget (0, none, 0) b.kept h
  let now := profileNow s c
  let k := coreOf s c
  setCore s c { k with
    bolt := some (e.ring, e.seq), stopReq := true, stopped := true, slots := [], arr := [], epiQ := [], attn := none, bankBusy := (false, false)
    stopAt := (point.map fun y => y.2.1).getD 0, done := (point.map fun y => y.2.2).getD []
    keepAt := kept.1
    prof := if h = c then kept.2.1.map fun d => (List.range 12).map fun i => now.getD i 0 - d.getD i 0 else none
    profDone := if h = c then kept.2.2 else 0 }

/-- The images of a bolt's cores restored; the first failure stops it. -/
def restoreAll (l : Nat) (b : Bolt) : List Nat → State → State × Option AccErr
  | [], s => (s, none)
  | c :: cs, s =>
    match restoreCore s l b c (tget c b.homes c) with
    | (t, none) => restoreAll l b cs t
    | (t, some e) => (t, some e)

/-- A bolt's cores set up again, but for their images (R249, R419). -/
def resetCores (s : State) (e : Entry) (b : Bolt) : State :=
  let s1 := b.stages.foldl (fun t g => (List.range g.cores.length).foldl (fun t k => setStageRegs t g k (g.cores.getD k 0)) t) s
  (boltCores b).foldl (fun t c => backAt t e b c) s1

/-- A bolt's cores set up again from its last saved images, each from the slot of the core whose rank it holds, and sent on (R249, R419). -/
def resumeCores (s : State) (l : Nat) (e : Entry) (b : Bolt) : State :=
  let cs := boltCores b
  match restoreAll l b cs (resetCores s e b) with
  | (t, some er) => imageFault t e b er
  | (t, none) => cs.foldl (fun u c => goOn (setCore u c { coreOf u c with fetchAt := boltOps s b }) b c)
      (updEntry t e.ring e.seq fun y => { y with bolt := some b })

/-- Whether a parked bolt may be resumed now (R249, R251): nothing holds it, and no urgent work is left or uses its cores. -/
def resumable (s : State) (l : Nat) (e : Entry) (b : Bolt) : Bool :=
  !boltHeld s l b && (boltCores b).all (fun c => !(coreOf s c).retired) && !((loomOf s l).picks.any fun q => q.urgent) && !coresBusy s l (boltSet b) e.ring e.seq

/-- PARK_RESUME (R249, R251): further urgent picks up to URG_BURST, else the parked bolt's images are restored and its cores go on. -/
def execParkResume (l : LoomId) (s : State) : Out :=
  effect (asking fun s =>
    if (loomOf s l).build.isSome then (if loomSt s l = 2 ∨ loomSt s l = 3 then writePick s l else s)
    else match parkedBolt s l with
    | none => s
    | some (p, e, b) =>
      let x := loomOf s l
      if !resumable s l e b then s
      else
        let cands := match x.picks.find? fun q => decide (q.seq = e.id.toNat) with
          | some q => urgentCands s l q
          | none => []
        let burst := max 1 (rdF s (loomKey l 0x480) 9 6)
        let more := if p.why = .urgent ∧ x.urgents < burst ∧ loomSt s l = 2 then buildPick s l cands true else none
        match more with
        | some t => setLoom t l { loomOf t l with urgents := x.urgents + 1 }
        | none =>
          let s1 := resumeCores s l e { b with parked := false, clockAt := s.time, clockOn := true, stop := .none }
          let s2 := updPark (parkMembers s1 e false) l e.ring e.seq fun _ => none
          setLoom s2 l { loomOf s2 l with urgents := 0 }) s

/-- A park abandoned (R250): stopped cores go on, the count rises, one event names the core. A pause or quiescence that asked for it lets the bolt run to its end (R262; log entry 57). -/
def abandonPark (s : State) (l : Nat) (e : Entry) (b : Bolt) (c : Nat) : State :=
  let held := (loomOf s l).paused || decide (loomSt s l = 3)
  let b1 := { b with stop := .none, clockAt := if b.clockOn then b.clockAt else s.time, clockOn := true }
  let s1 := updEntry s e.ring e.seq fun x => { x with bolt := some b1 }
  let s2 := (boltCores b).foldl (fun t i => goOn t b1 i) s1
  let s3 := updPark s2 l e.ring e.seq fun _ => none
  let s4 := if held then setLoom s3 l { loomOf s3 l with noPark := true } else s3
  produce (addCnt s4 (loomKey l 0x4B4) 1) l 0x0023 0x023 0 e.id (BitVec.ofNat 64 c)

/-- PARK_ABANDON (R250): a core has run 2 × MAX_SHED × 1,800 of its own cycles since the request without reaching a shed point. -/
def execParkAbandon (c : CoreId) (s : State) : Out :=
  effect (posting fun s =>
    match coreBolt s c with
    | none => s
    | some (e, b) =>
      match parkFor s e.loom e.ring e.seq with
      | none => s
      | some p =>
        let k := coreOf s c
        if p.st = 1 ∧ b.stop = .park ∧ !k.stopped ∧ k.stopReq ∧ 2 * hdr s b 32 4 * 1800 ≤ ranSince k then abandonPark s e.loom e b c
        else s) s

/-- The last KEEP shed point a core has reached, counted from 1 (R252). -/
def keepReached (s : State) (c : Nat) (b : Bolt) : Nat :=
  let rs := stageSheds s b (coreStage s c)
  (List.range rs.length).foldl (fun a n => match rs[n]? with
    | some r => if decide (r.op < boltOps s b) && decide (wfld (descWords s b r.op) 0 12 12 = 1) && reached s c b r.op then n + 1 else a
    | none => a) 0

/-- Whether a KEEP shed point of a bolt has no effect (R252): in an urgent bolt, while another bolt of the loom is parked, and in a bolt that stops to end. -/
def keepIdle (s : State) (e : Entry) (b : Bolt) : Bool :=
  let x := loomOf s e.loom
  (x.picks.any fun p => p.urgent && decide (p.submit = e.ring) && decide (p.seq = e.id.toNat)) ||
  (x.parks.any fun p => decide (p.st = 2) && !(decide (p.ring = e.ring) && decide (p.seq = e.seq))) || decide (b.stop ≠ .none)

/-- RECOVERY_PARK (R252): a core that passes a KEEP shed point stops there and asks for a park of its bolt; a park of the bolt under way serves it. While a pause or halt holds the bolt, the core asks when it goes on. -/
def execRecoveryPark (c : CoreId) (s : State) : Out :=
  effect (fun s =>
    match coreBolt s c with
    | none => s
    | some (e, b) =>
      let k := coreOf s c
      let n := keepReached s c b
      if n ≤ k.keepAt ∨ e.phase ≠ .running ∨ b.parked ∨ b.stop = .halt then s
      else
        let s1 := setCore s c { k with keepAt := n }
        if (parkFor s e.loom e.ring e.seq).isSome || keepIdle s e b then s1
        else
          let s2 := setCore s1 c { haltCore (coreOf s1 c) with stopSince := s.time, stoppedAt := s.time, stopAt := n - 1 }
          beginPark s2 e.loom e b .recovery c) s

end Sys2Proof.Machine
end

