-- ==== Sys2Proof/Machine/Holds.lean ====
section
/-! DEFINITION. Operating points and their ceilings (R297, R381-R385), and what makes looms and regions hold their work: pauses, halts and parks (R251, R298, R387, R390, R394). -/

namespace Sys2Proof.Machine

/-- Cores of a loom's live set. -/
def loomCores (s : State) (l : Nat) : List Nat := (List.range 384).filter (inCoreSet s l)

-- ## Operating points (R297, R381-R385)

/-- Whether some core of a region is not power-gated (R384). -/
def regionAwake (s : State) (r : Nat) : Bool :=
  (List.range 48).any fun i =>
    let c := (r / 4 * 6 + i / 8) * 32 + r % 4 * 8 + i % 8
    coreEnabled s c && decide (rd s (coreKey c 0x38) ≠ 2)

/-- Neighbours of a region (R384). -/
def regionNbrs (r : Nat) : List Nat :=
  (if r % 4 = 0 then [] else [r - 1]) ++ (if r % 4 = 3 then [] else [r + 1]) ++ [(r + 4) % 8]

/-- A region's ceilings but the neighbour limits (R383), each with its LIMITER code (R397). -/
def ownCeilings (s : State) (r : Nat) : List (Nat × Nat) :=
  [(1, rdF s (regionKey r 0x100) 2 0), (2, if regionAwake s r then s.power.pkgCeil.toNat else 0), (4, (regionOf s r).ladder.toNat),
   (5, rdF s (drcKey r 0x100) 6 4), (6, if 3 ≤ shedLevel s then 4 else 0), (3, (regionOf s r).grad.toNat)]

/-- The highest point a region may hold beside a neighbour at point `q` (R384): at most 3 points and 200 mV apart. -/
def besidePoint (q : Nat) : Nat :=
  ((List.range 8).find? fun p => decide (q ≤ p + 3) && decide (opMv p ≤ opMv q + 200)).getD 7

/-- One round of the neighbour limits over the eight points. -/
def limitRound (awake : List Bool) (ps : List Nat) : List Nat :=
  (List.range 8).map fun r =>
    if awake.getD r false then
      (regionNbrs r).foldl (fun a n => if awake.getD n false then max a (besidePoint (ps.getD n 0)) else a) (ps.getD r 0)
    else ps.getD r 0

/-- The slowest ceiling of every region (R383-R385): limits propagate region by region. -/
def ceilings (s : State) : List Nat :=
  let awake := (List.range 8).map (regionAwake s)
  (List.range 8).foldl (fun ps _ => limitRound awake ps)
    ((List.range 8).map fun r => ((ownCeilings s r).map Prod.snd).foldl max 0)

/-- CEIL and LIMITER of every region as the ceilings stand (R383, R384, R397): 3 when a neighbour alone sets it, 0 with no ceiling. -/
def reeval (s : State) : State :=
  let cs := ceilings s
  (List.range 8).foldl (fun t r =>
    let c := cs.getD r 0
    let lim := if c = 0 then 0 else match (ownCeilings s r).find? fun x => decide (x.2 = c) with
      | some (k, _) => k
      | none => 3
    wrF (wrF t (regionKey r 0x104) 5 3 c) (regionKey r 0x104) 10 8 lim) s

/-- Regions that wake between two states start at the highest point the limits then allow (R384). -/
def wakeRegions (old s : State) : State :=
  let t := reeval s
  (List.range 8).foldl (fun u r =>
    if !regionAwake old r && regionAwake s r then
      let c := rdF u (regionKey r 0x104) 5 3
      wrF (wrF u (regionKey r 0x104) 2 0 c) (regionKey r 0x110) 10 0 (opMv c)
    else u) t

-- ## Holding bolts (R68, R251, R298, R390)

/-- The running step bolt of a loom asked to park (R251), unless its park has been abandoned (R262). -/
def parkStep (s : State) (l : Nat) (why : ParkWhy) : State :=
  if (loomOf s l).noPark then s
  else match runningStep s l with
    | some (_, e) => askPark s l e why
    | none => s

/-- Whether an entry's bolt is a step bolt of its loom (R246). -/
def isStep (s : State) (e : Entry) : Bool :=
  (loomOf s e.loom).picks.any fun p => !p.urgent && decide (p.submit = e.ring) && decide (p.seq = e.id.toNat)

/-- Running bolts of a loom that no park concerns: step bolts park, or run to their end (R251, R262). -/
def looseBolts (s : State) (l : Nat) : List (Entry × Bolt) :=
  s.entries.filterMap fun e =>
    if e.loom = l ∧ e.phase = .running then
      (match e.bolt with
       | some b => if b.parked ∨ b.stop = .park ∨ isStep s e then none else some (e, b)
       | none => none)
    else none

/-- A bolt's TIMEOUT stops counting (R298, R390). -/
def stopClock (s : State) (e : Entry) (b : Bolt) : Bolt := { b with clockUs := boltClock s e b, clockOn := false }

/-- A bolt that holds some of its cores at their next shed points (R298, R390): its TIMEOUT stops counting. -/
def holdBolt (s : State) (e : Entry) (b : Bolt) (cs : List Nat) : State :=
  if b.stop ≠ .none ∧ b.stop ≠ .halt then s
  else
    let s1 := updEntry s e.ring e.seq fun x => { x with bolt := some { stopClock s e b with stop := .halt } }
    cs.foldl askStop s1

/-- A held bolt's cores that may go on do so once they have stopped; the TIMEOUT counts again when none is held (R298, R390, R394). -/
def releaseBolt (s : State) (e : Entry) (b : Bolt) : State :=
  let go := (boltCores b).filter fun c => (coreOf s c).stopReq && coreStopped s c && !coreHeld s e.loom c
  let s1 := go.foldl (fun t c => goOn t b c) s
  if (boltCores b).any fun c => (coreOf s1 c).stopReq || coreHeld s1 e.loom c then s1
  else updEntry s1 e.ring e.seq fun x => { x with bolt := some { b with stop := .none, clockAt := s.time, clockOn := true } }

/-- Every held bolt released as far as it may go. -/
def releaseHeld (s : State) : State :=
  s.entries.foldl (fun t e =>
    match findEntry t e.ring e.seq with
    | none => t
    | some e1 => match e1.phase, e1.bolt with
      | .running, some b => if b.stop = .halt ∧ !b.parked then releaseBolt t e1 b else t
      | _, _ => t) s

/-- Whether a loom is to pause at the level in force (R390). -/
def pauseWanted (s : State) (l : Nat) : Bool :=
  let v := shedLevel s
  let c := lvF s l 0x10C 13 12
  decide (4 ≤ v) || (decide (3 ≤ v) && decide (c = 1)) || (decide (2 ≤ v) && decide (c = 2))

/-- What a pause holds (R251, R390): the step bolt parks, other bolts hold their cores. -/
def holdLoom (s : State) (l : Nat) : State :=
  let s1 := parkStep s l .pause
  (looseBolts s1 l).foldl (fun t p => holdBolt t p.1 p.2 (boltCores p.2)) s1

/-- A RUNNING loom whose class the level pauses is paused (R390). -/
def applyPause (s : State) (l : Nat) : State :=
  if loomSt s l ≠ 2 ∨ (loomOf s l).paused ∨ !pauseWanted s l then s
  else holdLoom (setLoom s l { loomOf s l with paused := true }) l

/-- Whether a loom's pause has taken effect (R394): its park is saved and every held core has stopped. -/
def pauseDone (s : State) (l : Nat) : Bool :=
  (loomOf s l).parks.all (fun p => decide (p.st ≠ 1)) &&
  s.entries.all fun e => decide (e.loom ≠ l) || decide (e.phase ≠ .running) ||
    e.bolt.all fun b => b.parked || decide (b.stop ≠ .halt) || (boltCores b).all fun c => !(coreOf s c).stopReq || coreStopped s c

/-- Pauses that the level no longer asks for are lifted once they have taken effect (R394), and held cores go on; at S5 they wait for its end (R393). -/
def liftPauses (s : State) : State :=
  if s.power.s5 then s else
  let s1 := (List.range 32).foldl (fun t l =>
    if (loomOf t l).paused && !pauseWanted t l && pauseDone t l then setLoom t l { loomOf t l with paused := false, noPark := false } else t) s
  releaseHeld s1

/-- Looms with cores in a region. -/
def regionLooms (s : State) (r : Nat) : List Nat :=
  (liveLooms s).filter fun l => (loomCores s l).any fun c => decide (coreRegion c = r)

/-- A step bolt with cores in a halted region parks, and its TIMEOUT stops counting at once (R298). -/
def haltStep (s : State) (l r : Nat) : State :=
  match runningStep s l with
  | some (_, e) =>
    if (e.bolt.any fun b => (boltCores b).any fun c => decide (coreRegion c = r)) && !(loomOf s l).noPark then
      let t := askPark s l e .pause
      updEntry t e.ring e.seq fun x => { x with bolt := x.bolt.map (stopClock s e) }
    else s
  | none => s

/-- What a halt of region `r` holds in a loom (R298): the step bolt parks, other bolts hold their cores there. -/
def holdRegion (s : State) (l r : Nat) : State :=
  let s1 := haltStep s l r
  (looseBolts s1 l).foldl (fun u p =>
    let cs := (boltCores p.2).filter fun c => decide (coreRegion c = r)
    if cs.isEmpty then u else holdBolt u p.1 p.2 cs) s1

/-- A halt that takes effect on a region (R298). -/
def applyHalt (s : State) (r : Nat) : State := (regionLooms s r).foldl (fun t l => holdRegion t l r) s

/-- What pauses and halts in force hold in a loom, after a bolt of it has gone on for another reason. -/
def holdAgain (s : State) (l : Nat) : State :=
  let s1 := if (loomOf s l).paused then holdLoom s l else s
  ((List.range 8).filter (regionHalted s)).foldl (fun t r => holdRegion t l r) s1

/-- SHED_POINT_REACH (R68): a stopping core stops once every lower operation has committed; what it ran beyond is abandoned. A lift that waited for it goes on (R394). -/
def execShedPointReach (c : CoreId) (s : State) : Out :=
  effect (fun s =>
    match coreBolt s c with
    | none => s
    | some (_, b) =>
      let k := coreOf s c
      if k.stopReq && !k.stopped && reached s c b (stopOp s c b) then
        liftPauses (setCore s c { haltCore k with stoppedAt := s.time })
      else s) s

/-- PARK_SAVE (R247, R248, R252). -/
def execParkSave (l : LoomId) (s : State) : Out := effect (asking fun s => liftPauses (savePark s l)) s

end Sys2Proof.Machine
end

