-- ==== Sys2Proof/Machine/Looms.lean ====
section
/-! DEFINITION. Looms (R256-R274): the command queue, the checks of CREATE and UPDATE, starting, quiescing, destroying, and a VF's function-level reset. A loom's registers are its page; `live` holds the settings in force. -/

namespace Sys2Proof.Machine

-- ## Checks of CREATE and UPDATE (R259, R266-R270, R318, R319)

/-- A register of a loom's page, by its offset. -/
def loomPage (s : State) (l off : Nat) : Word32 := rd s (loomKey l off)

/-- The other looms that are not DESTROYED. -/
def otherLooms (s : State) (l : Nat) : List Nat := (liveLooms s).filter (· ≠ l)

/-- Bit `c` of a core set held in twelve words. -/
def setHas (f : Nat → Word32) (c : Nat) : Bool := fbit (f (0x140 + c / 32 * 4)) (c % 32)

/-- Check CORES. -/
def coresBad (s : State) (l : Nat) (f : Nat → Word32) : Bool :=
  let cs := (List.range 384).filter (setHas f)
  cs.isEmpty || cs.any fun c => !coreEnabled s c || !coreAvail s c || (otherLooms s l).any fun m => inCoreSet s m c

/-- Whether one window breaks R266, or lies on a stack that is FAILED or TEST (R289, R290). -/
def winBad (s : State) (w : Win) (n : Nat) : Bool :=
  decide (w.size = 0) ||
  (if n < 8 then
     decide (0x10000000000 ≤ w.base) || decide (0x1800000000 < w.base % 0x2000000000 + w.size) ||
     overlaps w.base w.size 0x1780000000 0x80000000 || stackOut s (w.base / 0x2000000000)
   else !within w.base w.size 0x20000000000 0x20000000000) ||
  (w.sharedRo && (w.write || !w.read))

/-- Check WINDOW (R266, R267). -/
def windowsBad (s : State) (l : Nat) (f : Nat → Word32) : Bool :=
  let ws := winsFrom f
  (List.range 16).any fun n =>
    let w := winFrom f n
    w.valid && (winBad s w n ||
      (ws.drop (n + 1)).any (fun x => x.valid && overlaps w.base w.size x.base x.size) ||
      (otherLooms s l).any fun m => (liveWins s m).any fun x =>
        overlaps w.base w.size x.base x.size && !(w.sharedRo && x.sharedRo))

/-- Check POOL (R269). -/
def poolsBad (s : State) (l : Nat) (f : Nat → Word32) : Bool :=
  (List.range 8).any fun r =>
    let p := poolRange f r
    decide (368 < fld (f (0x180 + 4 * r)) 8 0 + fld (f (0x180 + 4 * r)) 24 16) ||
    (otherLooms s l).any fun m => let q := poolRange (lv s m) r; overlaps p.1 p.2 q.1 q.2

/-- Check RINGS. -/
def ringsBad (s : State) (l : Nat) (f : Nat → Word32) : Bool :=
  let b := fld (f 0x110) 17 0
  let n := fld (f 0x114) 18 0
  decide (n = 0) || decide (262144 < b + n) || !within (fld (f 0x124) 17 0) 1 b n ||
  (otherLooms s l).any fun m => overlaps b n (lvF s m 0x110 17 0) (lvF s m 0x114 18 0)

/-- Check KNOTS. -/
def knotsBad (s : State) (l : Nat) (f : Nat → Word32) : Bool :=
  let b := fld (f 0x118) 15 0
  let n := fld (f 0x11C) 16 0
  decide (n = 0) || decide (65536 < b + n) ||
  (otherLooms s l).any fun m => overlaps b n (lvF s m 0x118 15 0) (lvF s m 0x11C 16 0)

/-- Check CREEL. -/
def quotaBad (s : State) (l : Nat) (f : Nat → Word32) : Bool :=
  let q := fld (f 0x120) 18 0
  decide (q = 0) || decide (262144 < q + ((otherLooms s l).map fun m => lvF s m 0x120 18 0).sum)

/-- Check CODEC. -/
def codecsBad (s : State) (l : Nat) (f : Nat → Word32) : Bool :=
  (otherLooms s l).any fun m => decide (f 0x128 &&& lv s m 0x128 &&& 0xFFFF ≠ 0)

/-- Check FUNCTION. -/
def functionBad (s : State) (l : Nat) (f : Nat → Word32) : Bool :=
  let fn := fld (f 0x10C) 4 0
  decide (fn ≠ 0) && (decide (s.board.numVfs < fn) || (otherLooms s l).any fun m => decide (loomFn s m = fn))

/-- Whether a valid window lies on a stack. -/
def winOnStack (f : Nat → Word32) (st : Nat) : Bool :=
  (winsFrom f).any fun w => w.valid && decide (w.base < 0x10000000000) && decide (w.base / 0x2000000000 = st)

/-- Check REGULATOR (R270). -/
def regulatorsBad (s : State) (l : Nat) (f : Nat → Word32) : Bool :=
  (List.range 8).any fun st =>
    let w := f (0x1C0 + 4 * st)
    let total := fld w 15 0 + ((otherLooms s l).map fun m => lvF s m (0x1C0 + 4 * st) 15 0).sum
    decide (fld w 22 16 = 0) || decide (64 < fld w 22 16) || decide (6553 < total) ||
    (winOnStack f st && decide (fld w 15 0 = 0) && !fbit w 24)

/-- What an export window covers (R318): a DRAM window or pool (kind 0), a scratchpad (1), knot records (2), with its read and write rights; none when it lies in no one resource. -/
def expResource (s : State) (f : Nat → Word32) (x : Exp) : Option (Nat × Bool × Bool) :=
  match placeOf s x.base with
  | .scratch c o => if setHas f c && decide (o + x.size ≤ 0x1800000) then some (1, true, true) else none
  | .pool r _ => let p := poolRange f r; if within x.base x.size p.1 p.2 then some (0, true, true) else none
  | .knot o =>
    if within (o / 64) (cdiv (o % 64 + x.size) 64) (fld (f 0x118) 15 0) (fld (f 0x11C) 16 0) then some (2, true, false) else none
  | .dram _ _ =>
    ((winsFrom f).find? fun w => w.valid && within x.base x.size w.base w.size).map fun w => (0, w.read, w.write)
  | _ => none

/-- Bytes of the coherent exports of a register reader. -/
def cohBytes (f : Nat → Word32) : Nat := ((expsFrom f).map fun x => if x.valid && x.coherent then x.size else 0).sum

/-- Whether one export window breaks R318. -/
def expBad (s : State) (f : Nat → Word32) (x : Exp) : Bool :=
  decide (x.size = 0) || decide (x.devHi < x.devLo) ||
  (match expResource s f x with
   | none => true
   | some (k, rd, wr) =>
     (x.read && !rd) || (x.write && !wr) || (x.atomic && !(decide (k = 0) && wr)) ||
     (x.knot && (decide (k ≠ 2) || x.read || x.write || x.atomic || x.coherent)) ||
     (x.coherent && !(decide (k = 0) && x.read && x.write)))

/-- Whether one import window breaks R319. -/
def impBad (w : Imp) : Bool := decide (16383 < w.dev + w.span) || decide (w.size = 0) || decide (2 ^ 42 < w.base + w.size)

/-- Check TAPESTRY (R318, R319). -/
def tapestryBad (s : State) (l : Nat) (f : Nat → Word32) : Bool :=
  let es := (expsFrom f).filter Exp.valid
  let is := (impsFrom f).filter Imp.valid
  es.any (expBad s f) || is.any impBad ||
  decide (0x100000000 < cohBytes f + ((otherLooms s l).map fun m => cohBytes (lv s m)).sum) ||
  (List.range es.length).any (fun i => match es[i]? with
    | some x => (es.drop (i + 1)).any fun y => overlaps x.base x.size y.base y.size
    | none => false) ||
  (List.range is.length).any (fun i => match is[i]? with
    | some x => (is.drop (i + 1)).any fun y =>
        overlaps x.base x.size y.base y.size && overlaps x.dev (x.span + 1) y.dev (y.span + 1)
    | none => false)

/-- The code of the first failing check of a list, 0 when none fails. -/
def firstBad (cs : List (Nat × Bool)) : Nat :=
  match cs.find? (·.2) with
  | some (n, _) => n
  | none => 0

/-- CREATE's checks in the order of R259. -/
def createCheck (s : State) (l : Nat) : Nat :=
  let f := loomPage s l
  firstBad [(0x02, coresBad s l f), (0x03, windowsBad s l f), (0x04, poolsBad s l f), (0x05, ringsBad s l f),
    (0x06, knotsBad s l f), (0x07, quotaBad s l f), (0x08, codecsBad s l f), (0x09, functionBad s l f),
    (0x0A, regulatorsBad s l f), (0x0B, tapestryBad s l f)]

/-- UPDATE's checks: the updatable fields against the same rules (R265). -/
def updateCheck (s : State) (l : Nat) : Nat :=
  let f := loomPage s l
  firstBad [(0x03, windowsBad s l f), (0x0A, regulatorsBad s l f), (0x0B, tapestryBad s l f)]

-- ## Binding and releasing (R256, R260, R264)

/-- Codec channels of a loom's live set. -/
def loomCodecs (s : State) (l : Nat) : List Nat := (List.range 16).filter fun n => bitOf (lvF s l 0x128 15 0) n

/-- BLK_LOOM of the loom's cores and codec channels. -/
def setOwners (s : State) (l : Nat) (v : Word32) : State :=
  let s1 := (loomCores s l).foldl (fun t c => wr t (coreKey c 0x34) v) s
  (loomCodecs s l).foldl (fun t n => wr t (codecKey n 0x34) v) s1

/-- Offsets of the settings of a loom's page that CREATE takes over (R256). -/
def settingOffs : List Nat :=
  [0x10C, 0x110, 0x114, 0x118, 0x11C, 0x120, 0x124, 0x128] ++ (List.range 12).map (0x140 + 4 * ·) ++
  (List.range 16).map (0x180 + 4 * ·) ++ (List.range 8).map (0x1C0 + 4 * ·) ++ (List.range 128).map (0x200 + 4 * ·)

/-- Offsets of the updatable settings (R256). -/
def updatableOffs : List Nat := [0x10C] ++ (List.range 8).map (0x1C0 + 4 * ·) ++ (List.range 128).map (0x200 + 4 * ·)

/-- Live settings taken from the page. -/
def takeSettings (s : State) (l : Nat) (offs : List Nat) : State :=
  { s with live := offs.foldl (fun t o => tput t (loomKey l o) (loomPage s l o)) s.live }

/-- The registers of a list of offsets returned to their reset values. -/
def clearOffs (s : State) (l : Nat) (offs : List Nat) : State :=
  offs.foldl (fun t o => { t with regs := tdel t.regs (loomKey l o) }) s

/-- STATE of LOOM_STATE set. -/
def setLoomSt (s : State) (l v : Nat) : State := wrF s (loomKey l 0x108) 2 0 v

/-- What a passed CREATE does (R260, R431): bindings, knots 0, rings disabled, counters reset, PICK_SEQ 1, owners set. -/
def createLoom (s : State) (l : Nat) : State :=
  let s1 := takeSettings s l settingOffs
  let kb := lvF s1 l 0x118 15 0
  let kn := lvF s1 l 0x11C 16 0
  let rb := ringBase s1 l
  let rn := lvF s1 l 0x114 18 0
  let s2 := { s1 with
    knots := s1.knots.filter fun p => !within p.1 1 kb kn
    rings := s1.rings.map fun p => if within p.1 1 rb rn then (p.1, { p.2 with enable := false, faulted := false }) else p }
  let s3 := clearOffs s2 l ([0x440, 0x444, 0x4AC, 0x4B0, 0x4B4, 0x4B8, 0x4A8] ++ (List.range 16).map (0x500 + 4 * ·))
  let s4 := setOwners s3 l (BitVec.ofNat 32 (2 ^ 31 + l))
  setLoomSt (setLoom s4 l { cmds := (loomOf s4 l).cmds }) l 1

/-- A core powered up for its loom (R379): from power-gating it wakes with its memories zero. A retired core stays as it is (R417). -/
def powerUp (s : State) (c : Nat) : State :=
  if !coreAvail s c then s
  else
    let s1 := if rd s (coreKey c 0x38) = 2 then memZero s (spAddr c 0) 0x1C00000 else s
    wr s1 (coreKey c 0x38) 0

/-- A record of the key table (R235). -/
def keyOf (b : List Byte) : KeyRec :=
  { key := BitVec.ofNat 32 (fieldLe b 0 4), budget := fieldLe b 4 4, limit := fieldLe b 8 2
    fullAddr := BitVec.ofNat 64 (fieldLe b 16 8), fullBytes := fieldLe b 24 4
    deltaAddr := BitVec.ofNat 64 (fieldLe b 32 8), deltaBytes := fieldLe b 40 4 }

/-- The pick builder as the unit that reads loom `l`'s key table. -/
def keyWho (l : Nat) : Who := ⟨0x023, 0, 0x100 + l⟩

/-- The key table copied (R235): a table that cannot be read leaves no key, and its access error is reported. -/
def copyKeys (s : State) (l : Nat) : State :=
  let n := rdF s (loomKey l 0x490) 6 0
  let a := (rd s (loomKey l 0x488)).toNat / 64 * 64 + (rd s (loomKey l 0x48C)).toNat * 2 ^ 32
  match loomReadAcross s (keyWho l) l a (64 * n) with
  | (t, .ok b) => setLoom t l { loomOf t l with keys := (List.range n).map fun i => keyOf (slice b (64 * i) 64) }
  | (t, .error e) => postErr (setLoom t l { loomOf t l with keys := [] }) l e 0x023 0

/-- The command at the front of a loom's queue changed. -/
def setFront (s : State) (l : Nat) (f : LoomCmd → LoomCmd) : State :=
  match (loomOf s l).cmds with
  | c :: r => setLoom s l { loomOf s l with cmds := f c :: r }
  | [] => s

/-- Whether a loom's own event record still waits to be staged (R223): the command that posted it does not finish before. -/
def stateOwed (s : State) (l : Nat) : Bool :=
  (tget [] s.produced l).any fun e => decide (e.srcType = 0x025) && decide (e.srcInst = BitVec.ofNat 16 l)

/-- A LOOM_STATE event posted by the executing command (R268). -/
def postState (s : State) (l st op : Nat) : State :=
  setFront (produce s l 0x0030 0x025 l (BitVec.ofNat 64 st) (BitVec.ofNat 64 op)) l fun c => { c with posted := true }

/-- START's first step (R261): the cores power up. -/
def beginStart (s : State) (l : Nat) : State := wakeRegions s ((loomCores s l).foldl powerUp s)

/-- START's steps 2 to 4 (R261): the key table is copied; fetching and the pick builder follow the state. -/
def prepareLoom (s : State) (l : Nat) : State :=
  let s1 := copyKeys s l
  let s2 := { s1 with
    rings := s1.rings.map fun p => if within p.1 1 (ringBase s1 l) (lvF s1 l 0x114 18 0) then (p.1, { p.2 with lost := false }) else p }
  setFront (setLoom s2 l { loomOf s2 l with noPark := false, noDrain := false }) l fun c => { c with applied := true }

/-- START carried on (R261): the parked step bolt is resumed by PARK_RESUME, and then the loom reads RUNNING; a bolt that a pause, a halt or urgent work keeps parked does not delay it. -/
def goStart (s : State) (l : Nat) (c : LoomCmd) : State :=
  let s1 := if c.applied then s else prepareLoom s l
  if (parkedBolt s1 l).any fun p => resumable s1 l p.2.1 p.2.2 then s1
  else applyPause (postState (setLoomSt s1 l 2) l 2 2) l

-- ## Quiescing (R262)

/-- Quiescence's hold on what runs (R262): the step bolt parks, and with DRAIN = 0 every other bolt stops. -/
def quiesceHold (s : State) (l : Nat) : State :=
  let s1 := parkStep s l .quiesce
  if (loomOf s1 l).noDrain then
    (looseBolts s1 l).foldl (fun t p => if p.2.stop = .none ∨ p.2.stop = .halt then stopBolt t p.1 p.2 .quiesce else t) s1
  else s1

/-- QUIESCING begins (R262). -/
def startQuiesce (s : State) (l : Nat) (noDrain : Bool) : State :=
  quiesceHold (setLoomSt (setLoom s l { loomOf s l with noDrain := noDrain, noPark := false }) l 3) l

/-- Whether a kept request is one that a loom of this part has made. -/
def loomReq (l : Nat) (o : OutReq) : Bool :=
  decide (o.msg.srcLoom.val = l) && !isHomes o && (match o.origin with
    | .copyPart _ _ _ => false
    | _ => true)

/-- Whether a loom has come to rest (R262): no bolt runs but a parked one, every request and write it issued has completed, and the spill engine is idle. -/
def loomIdle (s : State) (l : Nat) : Bool :=
  s.entries.all (fun e => decide (e.loom ≠ l) || decide (e.phase ≠ .running) || e.bolt.any Bolt.parked) &&
  s.router.out.all (fun o => !loomReq l o) &&
  s.coll.runs.all (fun r => decide (r.loom ≠ l)) &&
  (loomCores s l).all (fun c => (coreOf s c).promo.isNone && (coreOf s c).slots.all fun x => !x.committing) &&
  (loomOf s l).spill.isNone

/-- QUIESCED (R262): the spill engine stands still and the cores sleep clock-gated. -/
def endQuiesce (s : State) (l : Nat) : State :=
  (loomCores s l).foldl (fun t c => if rd t (coreKey c 0x38) = 0 then wr t (coreKey c 0x38) 1 else t)
    (setLoomSt (setLoom (wrB s (loomKey l 0x404) 0 false) l { loomOf s l with noDrain := false, noPark := false }) l 4)

-- ## DESTROY (R264, R330)

/-- Directory lines within coherent exports of a register reader and not within another's. -/
def removedLines (s : State) (old new : List (Nat × Nat)) : List Nat :=
  (s.coh.dir.map Prod.fst).filter fun n =>
    old.any (fun w => within (n * 128) 128 w.1 w.2) && !new.any fun w => within (n * 128) 128 w.1 w.2

/-- Ranges of the coherent exports of a register reader. -/
def cohRanges (f : Nat → Word32) : List (Nat × Nat) :=
  ((expsFrom f).filter fun x => x.valid && x.coherent).map fun x => (x.base, x.size)

/-- Lines of a loom that its coherent imports under `f` do not cover. -/
def strayLines (s : State) (l : Nat) (f : Nat → Word32) : List Nat :=
  ((loomLines s l).filter fun p =>
    let (d, a) := lineHome p.1
    !((impsFrom f).any fun w => w.valid && w.coherent && impHas w d && within a 128 w.base w.size)).map Prod.fst

/-- One entry of a loom ends with its loom (R264 steps 3 and 4): a bolt or fence STOPPED, an admission with no record. -/
def endOne (s : State) (e : Entry) : State :=
  match findEntry s e.ring e.seq with
  | none => s
  | some e1 =>
    match e1.phase, e1.bolt with
    | .ended, _ => s
    | .running, some b => finishBolt s e1 b 7
    | _, _ => if entKind e1 = 2 ∨ entKind e1 = 3 then dropEntry s e1 else if entKind e1 = 1 then endUnstarted s e1 7 else endEntry s e1 7

/-- Every bolt and fence of a loom ends STOPPED, its collectives are gone, admissions are discarded, creel entries FREE with no event (R264 steps 3 and 4). -/
def endAll (s : State) (l : Nat) : State :=
  let s1 := (s.entries.filter fun e => decide (e.loom = l)).foldl endOne s
  let s2 := (s1.coll.runs.filter fun r => decide (r.loom = l)).foldl collKill s1
  ((s2.creel.filter fun p => decide (p.2.loom = l)).map Prod.fst).foldl freeCreel s2

/-- Completion rings of a loom with records that wait. -/
def owedRings (s : State) (l : Nat) : List Nat :=
  s.entries.foldl (fun t e => if e.loom = l ∧ e.phase = .ended then insNat (ringOf s e.ring).cplRing.toNat t else t) []

/-- Whether records of a loom still wait for space in an enabled ring (R221). A record whose ring is disabled or stopped can never be written. -/
def recordsWait (s : State) (l : Nat) : Bool :=
  (owedRings s l).any fun c => (ringOf s c).enable && !(ringOf s c).faulted

/-- Host bytes of `[off, off + n)` of the host window zeroed, segments that are not VALID skipped (R264 step 7). Without a PCIe link the write of a segment fails and is reported by the loom's unit. -/
def scrubHost (s : State) (l off n : Nat) : State :=
  (hostSegs off n).foldl (fun t j =>
    let lo := max off (j * 0x200000000)
    let hi := min (off + n) ((j + 1) * 0x200000000)
    if j < 256 ∧ fbit (rd t (0x300800 + 8 * j)) 0 then
      (if t.boot.pcieUp then { t with host := czero t.host (hostAddr t lo) (hi - lo) } else hostDown t 0x025 l (0x20000000000 + lo))
    else t) s

/-- Windows of a loom that are not SHARED_RO zeroed (R264 step 7). -/
def scrubWins (s : State) (l : Nat) : State :=
  (liveWins s l).foldl (fun t w =>
    if w.sharedRo then t
    else if 0x20000000000 ≤ w.base then scrubHost t l (w.base - 0x20000000000) w.size
    else { memZero t w.base w.size with badBlocks := t.badBlocks.filter fun b => !within (b * 64) 64 w.base w.size }) s

/-- Idle-then-reset of a block whose requests have completed (R264 step 6). -/
def quietReset (s : State) (b : Block) : State := finishReset (startReset s b false) b

/-- Registers of loom `l`'s BAR2 pages at their reset values, for a later loom (R264 step 8). -/
def clearPages (s : State) (l : Nat) : State :=
  { s with regs := s.regs.filter fun p => decide (p.1 / 0x1000 ≠ dbPage l / 0x1000) && decide (p.1 / 0x1000 ≠ stPage l / 0x1000) }

/-- What the loom's units left behind gone: settings in force, events, answers. -/
def forgetLoom (s : State) (l : Nat) : State :=
  { s with
    live := s.live.filter (fun p => decide (p.1 / 0x1000 ≠ 0x50 + l)), produced := tdel s.produced l, staged := tdel s.staged l
    router := { s.router with replies := s.router.replies.filter fun r => decide (r.loom ≠ l) } }

/-- Steps 6 to 8 of DESTROY (R264). An event of a reset codec channel finds no event ring any more. -/
def releaseLoom (s : State) (l : Nat) (scrub : Bool) : State :=
  let cs := loomCores s l
  let s0 := cs.foldl (fun t c => quietReset t (.core (Fin.ofNat 384 c))) s
  let s1 := cs.foldl (fun t c => wr (memZero t (spAddr c 0) 0x1C00000) (coreKey c 0x38) 2) s0
  let s2 := (loomCodecs s l).foldl (fun t n => quietReset t (.codec (Fin.ofNat 16 n))) s1
  let s3 := (List.range 8).foldl (fun t r => let p := poolRange (lv t l) r; memZero t p.1 p.2) s2
  let s4 := if scrub then scrubWins s3 l else s3
  let s5 := clearOffs (setOwners s4 l 0) l ([0x404, 0x4A8] ++ (List.range 16).map (0x500 + 4 * ·))
  let s6 := setLoomSt (setLoom s5 l { cmds := (loomOf s5 l).cmds }) l 0
  forgetLoom (clearPages s6 l) l

/-- Rings of a loom disabled and their waiting records gone (R264 step 5). -/
def closeRings (s : State) (l : Nat) : State :=
  let mine := fun (p : Nat × Ring) => within p.1 1 (ringBase s l) (lvF s l 0x114 18 0)
  let s1 := (s.rings.filter mine).foldl (fun t p => dropRing t p.2) s
  { s1 with
    entries := s1.entries.filter fun e => decide (e.loom ≠ l)
    rings := s1.rings.map fun p => if mine p then (p.1, { p.2 with enable := false, faulted := false }) else p
    produced := tdel s1.produced l, staged := tdel s1.staged l }

/-- The loom's export windows closed and all it holds ended (R264 steps 2 to 4): once, after the entries of its coherent exports have been back-invalidated (R330). -/
def closeLoom (s : State) (l : Nat) : State :=
  if (loomOf s l).closed then s else endAll (setLoom s l { loomOf s l with closed := true, parks := [], build := none }) l

/-- DESTROY carried on as far as it can go (R264): the loom quiesces, closes, has its records written and its lines evicted, and is released. The Boolean tells whether the loom is DESTROYED. -/
def goDestroy (s : State) (l : Nat) (scrub : Bool) : State × Bool :=
  let s0 := if loomSt s l = 3 then quiesceHold s l else s
  let ex := removedLines s0 (cohRanges (lv s0 l)) []
  if loomSt s l = 3 ∧ !loomIdle s0 l then (s0, false)
  else if !(loomOf s0 l).closed && !ex.isEmpty then (ex.foldl backInvalidate s0, false)
  else
    let s1 := closeLoom s0 l
    let s2 := (loomLines s1 l).foldl (fun u p => evictLine u p.1) s1
    if recordsWait s2 l || !(loomLines s2 l).isEmpty || !loomIdle s2 l then (s2, false)
    else (cfgResume (releaseLoom (closeRings s2 l) l scrub) (Fin.ofNat 32 l), true)

-- ## UPDATE (R265, R330)

/-- Whether every access of a loom that was checked before a time has completed (R265). -/
def olderDone (s : State) (l : Nat) (t : Word64) : Bool :=
  s.router.out.all fun o => !loomReq l o || decide (t.toNat < o.sentAt.toNat)

/-- UPDATE carried on: coherent exports that go are back-invalidated first, then the settings apply, removed coherent imports give up their lines, and it finishes when every older access has completed. The code, once finished. -/
def goUpdate (s : State) (l : Nat) (c : LoomCmd) : State × Option Nat :=
  let code := updateCheck s l
  let ex := removedLines s (cohRanges (lv s l)) (cohRanges (loomPage s l))
  if !c.applied && decide (code ≠ 0) then (s, some code)
  else if !c.applied && !ex.isEmpty then (ex.foldl backInvalidate s, none)
  else
    let s1 := if c.applied then s
      else setFront (applyPause (takeSettings s l updatableOffs) l) l fun x => { x with applied := true, since := s.time }
    let since := if c.applied then c.since else s.time
    let s2 := (strayLines s1 l (lv s1 l)).foldl evictLine s1
    (s2, if (strayLines s2 l (lv s2 l)).isEmpty && olderDone s2 l since then some 0 else none)

-- ## The command queue (R257, R258, R263, R274)

/-- Whether a command waits behind a quiescence (R263): START, UPDATE or a further QUIESCE. -/
def heldCmd (c : LoomCmd) : Bool := decide (c.op = 2) || decide (c.op = 3) || decide (c.op = 5)

/-- PENDING, BUSY and HELD as the queue stands. -/
def syncLoom (s : State) (l : Nat) : State :=
  let x := loomOf s l
  let q := x.executing && (x.cmds.head?.any fun c => decide (c.op = 3))
  wrB (wrB (wrF s (loomKey l 0x104) 3 0 x.cmds.length) (loomKey l 0x104) 4 x.executing) (loomKey l 0x108) 9 (q && (x.cmds.drop 1).any heldCmd)

/-- The command at the front finished with a code. -/
def endCmd (s : State) (l : Nat) (op code : Nat) : State :=
  let x := loomOf s l
  let s1 := setLoom s l { x with cmds := x.cmds.drop 1, executing := false }
  wrF (wrF s1 (loomKey l 0x104) 15 8 code) (loomKey l 0x104) 18 16 op

/-- A command starts (R258); before READY it is refused with STATE (R402): the state after it, and its code if it has finished. What a START or DESTROY does next is LOOM_QUIESCED's. -/
def beginCmd (s : State) (l : Nat) (c : LoomCmd) : State × Option Nat :=
  let st := loomSt s l
  if !ready s then (s, some 1) else
  match c.op with
  | 1 => if st ≠ 0 then (s, some 1) else if createCheck s l ≠ 0 then (s, some (createCheck s l)) else (createLoom s l, some 0)
  | 2 => if st = 0 then (s, some 1) else if st = 2 then (s, some 0) else (beginStart s l, none)
  | 3 => if st = 0 then (s, some 1) else if st = 2 then (startQuiesce s l (!c.drain), none) else (s, some 0)
  | 4 => if st = 0 then (s, some 0) else (if st = 2 then startQuiesce s l true else s, none)
  | _ => if st = 0 then (s, some 1) else goUpdate s l c

/-- The executing command carried on, with its code once it has finished (R223, R261, R262, R264, R265). -/
def goCmd (s : State) (l : Nat) (c : LoomCmd) : State × Option Nat :=
  match c.op with
  | 2 => if c.posted then (s, if stateOwed s l then none else some 0) else (goStart s l c, none)
  | 3 =>
    if c.posted then (s, if stateOwed s l then none else some 0)
    else
      let s1 := quiesceHold s l
      (if loomIdle s1 l then postState (endQuiesce s1 l) l 4 3 else s1, none)
  | 4 => let (t, ok) := goDestroy s l c.scrub; (t, if ok then some 0 else none)
  | _ => goUpdate s l c

/-- Waiting commands started one after another until one does not finish at once. -/
def runCmds : Nat → State → Nat → State
  | 0, s, _ => s
  | n + 1, s, l =>
    let x := loomOf s l
    if x.executing then s
    else match x.cmds with
      | [] => s
      | c :: _ => match beginCmd s l c with
        | (t, some code) => runCmds n (endCmd t l c.op code) l
        | (t, none) => setLoom t l { loomOf t l with executing := true }

/-- A command appended and the queue run (R257). A DESTROY behind a quiescence turns it to DRAIN = 0 (R263). -/
def appendCmd (s : State) (l : Nat) (c : LoomCmd) : State :=
  let x := loomOf s l
  let s1 := setLoom s l { x with cmds := x.cmds ++ [c] }
  let s2 := if c.op = 4 ∧ loomSt s l = 3 then quiesceHold (setLoom s1 l { loomOf s1 l with noDrain := true }) l else s1
  syncLoom (runCmds 10 s2 l) l

/-- A write of LOOM_CMD (R257): OP 0, 6 and 7 are ignored; a ninth written command is refused. -/
def opLoomCmd (s : State) (l : Nat) (c : LoomCmd) : State :=
  if c.op = 0 ∨ 5 < c.op then s
  else if 8 ≤ ((loomOf s l).cmds.filter fun x => !x.flr).length then wrB s (loomKey l 0x104) 5 true
  else appendCmd s l c

/-- LOOM_CREATE (R257-R260). -/
def execLoomCreate (l : LoomId) (s : State) : Out := effect (onPage (loomKey l 0) 0x100 fun s => opLoomCmd s l { op := 1 }) s

/-- LOOM_START (R257, R258, R261). -/
def execLoomStart (l : LoomId) (s : State) : Out := effect (onPage (loomKey l 0) 0x100 fun s => opLoomCmd s l { op := 2 }) s

/-- LOOM_QUIESCE (R257, R258, R262). -/
def execLoomQuiesce (l : LoomId) (drain : Bool) (s : State) : Out := effect (onPage (loomKey l 0) 0x100 fun s => opLoomCmd s l { op := 3, drain := drain }) s

/-- LOOM_DESTROY (R257, R258, R264). -/
def execLoomDestroy (l : LoomId) (scrub : Bool) (s : State) : Out := effect (onPage (loomKey l 0) 0x100 fun s => opLoomCmd s l { op := 4, scrub := scrub }) s

/-- LOOM_UPDATE (R257, R258, R265). -/
def execLoomUpdate (l : LoomId) (s : State) : Out := effect (onPage (loomKey l 0) 0x100 fun s => opLoomCmd s l { op := 5 }) s

/-- LOOM_QUIESCED (R261-R265): the executing command goes on; a quiescence whose loom has come to rest ends. -/
def execLoomQuiesced (l : LoomId) (s : State) : Out :=
  effect (asking fun s =>
    let x := loomOf s l
    match x.executing, x.cmds with
    | true, c :: _ => match goCmd s l c with
      | (t, some code) => syncLoom (runCmds 10 (endCmd t l c.op code) l) l
      | (t, none) => t
    | _, _ => s) s

/-- VF_FLR (R274): a QUIESCE with DRAIN = 0 that is never refused, unless one is still queued; FLR sets. -/
def execVfFlr (vf : FnId) (s : State) : Out :=
  effect (fun s =>
    if vf.val = 0 then s
    else match (liveLooms s).find? fun l => decide (loomFn s l = vf.val) with
      | none => s
      | some l =>
        let s1 := wrB s (loomKey l 0x108) 8 true
        if (loomOf s1 l).cmds.any (·.flr) then s1 else appendCmd s1 l { op := 3, flr := true }) s

end Sys2Proof.Machine
end

