-- ==== Sys2Proof/Machine/Power.lean ====
section
/-! DEFINITION. Power, clocks and heat (R296-R298, R376-R396, R447): sensors and their ladders, package power, droop, operating-point changes, shedding levels and S5, and telemetry. Physical readings arrive with their commands (log entry 3). -/

namespace Sys2Proof.Machine

-- ## Demands and the level in force (R391, R392)

/-- Whether a firmware emergency lasts (R391). -/
def emergency (s : State) : Bool := s.power.emRef || s.power.emRail || s.power.emPwr || s.power.emCool || s.power.emDram

/-- Demands in the order of PCM_SHED_STAT.CAUSE: sag, budget, PROCHOT, brake, emergency, software (R391, R396). -/
def demands (s : State) : List Nat :=
  [b2n s.power.sag, s.power.budget.toNat, if s.power.prochot then 3 else 0, if s.power.brake then 4 else 0,
   if emergency s then 5 else 0, rdF s (pcmKey 0x10C) 2 0]

/-- The highest level demanded. -/
def demandNow (s : State) : Nat := (demands s).foldl max 0

/-- Cause bits of PCM_SHED_STAT. -/
def causeBits (s : State) : Nat :=
  ((List.range 6).map fun i => if (demands s).getD i 0 ≠ 0 then 2 ^ i else 0).sum

/-- PCM_SHED_STAT as the demands stand, and the time since which every demand has stayed below the level (R392). -/
def syncDemand (s : State) : State :=
  let s1 := wrF (wrF s (pcmKey 0x110) 5 3 (demandNow s)) (pcmKey 0x110) 13 8 (causeBits s)
  let p := s1.power
  let b := if demandNow s < shedLevel s then (match p.belowSince with
    | some t => some t
    | none => some s.time) else none
  { s1 with power := { p with belowSince := b } }

/-- CAP60 of every stack: its own ladder's cap, or level S3 and above (R295). -/
def syncCaps (s : State) : State :=
  (List.range 8).foldl (fun t st => wrB t (drcKey st 0x100) 3 ((stackOf t st).cap || decide (3 ≤ shedLevel t))) s

/-- CODEC_STAT.PAUSED of the codec channels (R372). -/
def syncCodecs (s : State) : State :=
  (List.range 16).foldl (fun t n => wrB t (codecKey n 0x100) 9 (codecPaused t n)) s

/-- A new level in force (R390, R392): pauses, ceilings and caps follow, and one SHED_LEVEL event goes to every loom that is not DESTROYED (R395). -/
def setLevel (s : State) (v : Nat) : State :=
  let s1 := wrF s (pcmKey 0x110) 2 0 v
  let s2 := { s1 with power := { s1.power with belowSince := none } }
  let s3 := (List.range 32).foldl applyPause (syncCodecs (syncCaps s2))
  let s4 := reeval (liftPauses s3)
  syncDemand (produceAll s4 (liveLooms s4) 0x0070 0x011 0 (BitVec.ofNat 64 v) (BitVec.ofNat 64 (causeBits s4)))

/-- SHED_LEVEL_RISE (R392). -/
def execShedLevelRise (s : State) : Out :=
  effect (posting fun s =>
    let d := demandNow s
    if d ≤ shedLevel s then s
    else setLevel (addCnt { s with power := { s.power with riseAt := s.time } } (pcmKey 0x11C) 1) d) s

/-- SHED_LEVEL_FALL (R392, R394): after 10 ms, or 195,313 ticks, with every demand below it, the level falls to the highest level still demanded; S5 entry is completed first. -/
def execShedLevelFall (s : State) : Out :=
  effect (posting fun s =>
    match s.power.belowSince with
    | none => s
    | some t =>
      if demandNow s < shedLevel s ∧ 195313 ≤ (s.time - t).toNat ∧ (shedLevel s < 5 ∨ s.power.s5 = true) then setLevel s (demandNow s)
      else s) s

/-- PROCHOT_N low for two ticks (R391). -/
def execProchotAssert (s : State) : Out :=
  effect (fun s => syncDemand { s with board := { s.board with prochotN := false }, power := { s.power with prochot := true } }) s

/-- PROCHOT_N high again (R392). -/
def execProchotDeassert (s : State) : Out :=
  effect (fun s => syncDemand { s with board := { s.board with prochotN := true }, power := { s.power with prochot := false } }) s

/-- PWR_BRAKE_N low for two ticks (R391). -/
def execPwrBrakeAssert (s : State) : Out :=
  effect (fun s => syncDemand { s with board := { s.board with pwrBrakeN := false }, power := { s.power with brake := true } }) s

/-- PWR_BRAKE_N high again (R392). -/
def execPwrBrakeDeassert (s : State) : Out :=
  effect (fun s => syncDemand { s with board := { s.board with pwrBrakeN := true }, power := { s.power with brake := false } }) s

/-- COOLING_FAULT (R391): it lasts until a reset, since no command withdraws it (log entry 7). -/
def execCoolingFault (s : State) : Out :=
  effect (fun s => syncDemand { s with power := { s.power with emCool := true } }) s

/-- Stage of the boot order (R401). -/
def bootStage (s : State) : Nat := rdF s (rstKey 0x108) 3 0

/-- PWR_OK_FALL (R399): an emergency once the PLLs have started. -/
def execPwrOkFall (s : State) : Out :=
  effect (fun s =>
    let p := s.power
    syncDemand { s with board := { s.board with pwrOk := false }, power := { p with emPwr := p.emPwr || decide (3 ≤ bootStage s) } }) s

/-- RAIL_OUT_OF_RANGE (R454): an emergency after stage 3. -/
def execRailOutOfRange (s : State) : Out :=
  effect (fun s => let p := s.power; syncDemand { s with power := { p with emRail := p.emRail || decide (3 ≤ bootStage s) } }) s

/-- REFCLK_LOSS (R377): the AON domain runs from its oscillator, no region PLL can run, and it is an emergency. -/
def execRefclkLoss (s : State) : Out :=
  effect (fun s =>
    let s1 := wrF (wrB s (pcmKey 0x108) 0 true) (pcmKey 0x108) 15 8 0
    syncDemand { s1 with board := { s1.board with refclk := false }, power := { s1.power with emRef := true } }) s

/-- REFCLK_RETURN (R377): the AON domain returns to REFCLK_SYS, unless the straps keep it on the oscillator. -/
def execRefclkReturn (s : State) : Out :=
  effect (fun s =>
    let s1 := wrB s (pcmKey 0x108) 0 (decide (rdF s (rstKey 0x104) 3 2 = 3))
    let s2 := if 3 ≤ bootStage s1 ∧ s1.power.s5 = false ∧ rdF s (rstKey 0x104) 3 2 ≠ 3 then wrF s1 (pcmKey 0x108) 15 8 255 else s1
    syncDemand { s2 with board := { s2.board with refclk := true }, power := { s2.power with emRef := false } }) s

/-- PCM_SHED_REQ written (R391): 6 and 7 are reserved and leave the field (R9). -/
def opShedReq (s : State) (v : Nat) : State := if 5 < v then s else syncDemand (wrF s (pcmKey 0x10C) 2 0 v)

/-- PCM_SHED_REQ_WRITE (R391). -/
def execPcmShedReqWrite (v : BitVec 3) (s : State) : Out := effect (fun s => opShedReq s v.toNat) s

-- ## Sensors and ladders (R296, R298, R386, R387)

/-- The highest of a list of readings, and the lowest sensor that gives it. -/
def hottest (rs : List (BitVec 11)) : Nat × Nat :=
  let m := rs.foldl (fun a x => max a x.toNat) 0
  (m, ((List.range rs.length).find? fun i => decide ((rs.getD i 0).toNat = m)).getD 0)

/-- A ladder of ceilings: `n` steps, rising to step k at `up k`, falling below step k at `down k`. -/
def ladderDown (t : Nat) (down : Nat → Nat) : Nat → Nat
  | 0 => 0
  | k + 1 => if t < down (k + 1) then ladderDown t down k else k + 1

/-- The ladder's step after a reading. -/
def ladderStep (t cur n : Nat) (up down : Nat → Nat) : Nat :=
  let r := ((List.range n).filter fun k => decide (up (k + 1) ≤ t)).length
  max r (ladderDown t down cur)

/-- A bit with hysteresis. -/
def hyst (old : Bool) (t up down : Nat) : Bool := if up ≤ t then true else if t < down then false else old

/-- THERMTRIP_N asserts (R387): every core and codec clock stops; the latch holds until the next internal power-on reset. -/
def thermTrip (s : State) : State :=
  wrB { s with board := { s.board with thermTrip := true } } (rstKey 0x100) 2 true

/-- JUNCTION_TEMP_SAMPLE (R386, R387), in units of 0.125 °C; REGION_HOT and REGION_COOL go to every loom that is not DESTROYED (R395). -/
def execJunctionTempSample (r : RegionId) (readings : List (BitVec 11)) (s : State) : Out :=
  effect (posting fun s =>
    let (t, i) := hottest (readings.take 12)
    let x := regionOf s r
    let x1 := { x with ladder := BitVec.ofNat 3 (ladderStep t x.ladder.toNat 7 (fun k => 808 + 16 * k) (fun k => 792 + 16 * k)), halt := hyst x.halt t 944 904 }
    let s1 := wrB (wr (setRegion s r x1) (regionKey r 0x108) (BitVec.ofNat 32 (t + i * 4096))) (regionKey r 0x104) 7 x1.halt
    let s2 := if x1.halt && !x.halt then applyHalt (produceAll s1 (liveLooms s1) 0x0071 0x041 r (BitVec.ofNat 64 r) (BitVec.ofNat 64 t)) r
      else if x.halt && !x1.halt then releaseHeld (produceAll s1 (liveLooms s1) 0x0072 0x041 r (BitVec.ofNat 64 r) (BitVec.ofNat 64 t))
      else s1
    reeval (if 1000 ≤ t then thermTrip s2 else s2)) s

/-- STACK_TEMP_SAMPLE (R291, R296, R298); STACK_HOT and STACK_COOL go to the looms with cores in the region. -/
def execStackTempSample (st : StackId) (readings : List (BitVec 11)) (s : State) : Out :=
  effect (posting fun s =>
    let (t, i) := hottest (readings.take 16)
    let k := drcKey st 0x100
    let old := rd s k
    let halt := hyst (fbit old 7) t 800 784
    let s1 := wr (setStack s st { stackOf s st with cap := hyst (stackOf s st).cap t 760 744 }) (drcKey st 0x104) (BitVec.ofNat 32 (t + i * 65536))
    let s2 := wrB (wrF (wrB s1 k 2 (hyst (fbit old 2) t 681 664)) k 6 4 (ladderStep t (fld old 6 4) 5 (fun n => 704 + 16 * n) (fun n => 688 + 16 * n))) k 7 halt
    let s3 := syncCaps s2
    let ev := fun typ => produceAll s3 (regionLooms s3 st) typ 0x050 st (BitVec.ofNat 64 st) (BitVec.ofNat 64 t)
    let s4 := if halt && !fbit old 7 then applyHalt (ev 0x0040) st
      else if fbit old 7 && !halt then releaseHeld (ev 0x0041)
      else s3
    reeval (if 840 ≤ t then thermTrip s4 else s4)) s

/-- Junction temperature of a region. -/
def regionTj (s : State) (r : Nat) : Nat := rdF s (regionKey r 0x108) 10 0

/-- NEIGHBOUR_GRADIENT_STEP (R385): each 1 ms the hotter of two neighbours more than 35 °C apart steps down to P7 at most; a ceiling rises again once no neighbour is 30 °C cooler. -/
def execNeighbourGradientStep (a b : RegionId) (s : State) : Out :=
  effect (fun s =>
    if !(regionNbrs a.val).contains b.val then s
    else
      let h := if regionTj s a < regionTj s b then b.val else a.val
      let c := if h = a.val then b.val else a.val
      let x := regionOf s h
      let ceil := rdF s (regionKey h 0x104) 5 3
      if !elapsedUs s.time x.gradAt 1000 then s
      else if 280 < regionTj s h - regionTj s c ∧ ceil < 7 then reeval (setRegion s h { x with grad := BitVec.ofNat 3 (ceil + 1), gradAt := s.time })
      else if 0 < x.grad ∧ (regionNbrs h).all (fun n => decide (regionTj s h < regionTj s n + 240)) then
        reeval (setRegion s h { x with grad := x.grad - 1, gradAt := s.time })
      else s) s

/-- PKG_POWER_SAMPLE (R389): the package ceiling falls each 100 µs above the limit and rises each 1 ms at 95 % or below; with every awake region at P7 the budget demands S2 to S4. -/
def execPkgPowerSample (region : List (BitVec 10)) (pkg : BitVec 12) (s : State) : Out :=
  effect (fun s =>
    let lim := rdF s (pcmKey 0x114) 11 0
    let w := pkg.toNat
    let s1 := (List.range 8).foldl (fun t r => wrF t (regionKey r 0x114) 9 0 (region.getD r 0).toNat) (wrF s (pcmKey 0x118) 11 0 w)
    let p := s1.power
    let p1 :=
      if lim < w ∧ p.pkgCeil < 7 ∧ elapsedUs s.time p.pkgFallAt 100 then { p with pkgCeil := p.pkgCeil + 1, pkgFallAt := s.time }
      else if w * 100 ≤ lim * 95 ∧ 0 < p.pkgCeil ∧ elapsedUs s.time p.pkgRiseAt 1000 then { p with pkgCeil := p.pkgCeil - 1, pkgRiseAt := s.time }
      else p
    let s2 := reeval { s1 with power := p1 }
    let all7 := (List.range 8).all fun r => !regionAwake s2 r || decide (rdF s2 (regionKey r 0x104) 2 0 = 7)
    let p2 :=
      if lim < w ∧ all7 = true then
        (match p1.overSince with
         | none => { p1 with overSince := some s.time }
         | some t => if elapsedUs s.time t 1000 then { p1 with budget := BitVec.ofNat 3 (min 4 (max 2 (p1.budget.toNat + 1))), overSince := some s.time } else p1)
      else { p1 with overSince := none, budget := if w ≤ lim then 0 else p1.budget }
    syncDemand { s2 with power := p2 }) s

/-- DROOP_DETECT (R388, R391): the first detection halves the clock and is counted; `sagLong` tells whether detectors have been active for more than 1 µs in the last 10. -/
def execDroopDetect (r : RegionId) (sagLong : Bool) (s : State) : Out :=
  effect (fun s =>
    let x := regionOf s r
    let s1 := if x.droop then s else addCnt s (regionKey r 0x10C) 1
    let s2 := setRegion s1 r { x with droop := true, droopAt := s.time }
    syncDemand { s2 with power := { s2.power with sag := s2.power.sag || sagLong } }) s

/-- DROOP_RESTORE (R388): 1 µs after the last detection. -/
def execDroopRestore (r : RegionId) (s : State) : Out :=
  effect (fun s =>
    let x := regionOf s r
    if x.droop && elapsedUs s.time x.droopAt 1 then
      let s1 := setRegion s r { x with droop := false }
      let still := (List.range 8).any fun n => (regionOf s1 n).droop
      syncDemand { s1 with power := { s1.power with sag := s1.power.sag && still } }
    else s) s

/-- One step of an operating-point change (R382): going down the clock changes first and the voltage at the end, going up the voltage first and the clock at the end; a new target waits for the end. -/
def opPoint (s : State) (r : Nat) : State :=
  let k := regionKey r 0x104
  let x := regionOf s r
  let op := rdF s k 2 0
  match x.target with
  | none =>
    let t := rdF s k 5 3
    if t = op then s
    else
      let s1 := wrB (setRegion s r { x with target := some (BitVec.ofNat 3 t) }) k 6 true
      if op < t then wrF s1 k 2 0 t else wrF s1 (regionKey r 0x110) 10 0 (opMv t)
  | some t => wrF (wrF (wrB (setRegion s r { x with target := none }) k 6 false) k 2 0 t.toNat) (regionKey r 0x110) 10 0 (opMv t.toNat)

/-- OP_POINT_CHANGE (R382, R383). -/
def execOpPointChange (r : RegionId) (s : State) : Out := effect (fun s => opPoint (reeval s) r) s

/-- DR_OP_CTRL_WRITE (R383). -/
def opDrOpCtrl (s : State) (r v : Nat) : State := reeval (wrF s (regionKey r 0x100) 2 0 v)

/-- DR_OP_CTRL_WRITE (R383). -/
def execDrOpCtrlWrite (r : RegionId) (v : BitVec 3) (s : State) : Out := effect (onPage (regionKey r 0) 0x100 fun s => opDrOpCtrl s r v.toNat) s

-- ## Sleeping cores (R379, R380)

/-- CORE_CLOCK_GATE (R379): a running core with no operation in flight and no byte in its port buffers. -/
def execCoreClockGate (c : CoreId) (s : State) : Out :=
  effect (fun s =>
    let k := coreOf s c
    if rd s (coreKey c 0x38) = 0 ∧ k.slots.all (fun x => !x.issued) = true ∧ k.rx.all (fun p => p.2.isEmpty) = true then wr s (coreKey c 0x38) 1 else s) s

/-- CORE_WAKE (R379): a clock-gated core runs again; a power-gated one wakes with its memories zero, and only where R379 does not gate it. -/
def execCoreWake (c : CoreId) (s : State) : Out :=
  effect (fun s =>
    let st := (rd s (coreKey c 0x38)).toNat
    let mayRun : Bool := match ownerOfPage s (coreKey c 0) with
      | some l => decide (2 ≤ loomSt s l) && !s.power.s5
      | none => false
    if decide (st = 1) then wr s (coreKey c 0x38) 0
    else if decide (st = 2) && mayRun then wakeRegions s (powerUp s c)
    else s) s

-- ## S5 (R393, R394)

/-- Whether every core of every unparked running bolt has stopped. -/
def allStopped (s : State) : Bool :=
  s.entries.all fun e => decide (e.phase ≠ .running) || e.bolt.all fun b => b.parked || (boltCores b).all (coreStopped s)

/-- Cores of unparked running bolts that have not stopped. -/
def laggards (s : State) : List Nat :=
  s.entries.flatMap fun e => if e.phase ≠ .running then [] else match e.bolt with
    | some b => if b.parked then [] else (boltCores b).filter fun c => !coreStopped s c
    | none => []

/-- A forced idle-then-reset of a core (R393, R406). -/
def forceCore (s : State) (c : Nat) : State :=
  addCnt (finishReset (startReset s (.core (Fin.ofNat 384 c)) true) (.core (Fin.ofNat 384 c))) (rstKey 0x114) 1

/-- Every running bolt that is not parked ends STOPPED (R393). -/
def stopAllBolts (s : State) : State :=
  s.entries.foldl (fun t e =>
    match findEntry t e.ring e.seq with
    | none => t
    | some e1 => match e1.phase, e1.bolt with
      | .running, some b => if b.parked then t else finishBolt t e1 b 7
      | _, _ => t) s

/-- A codec session lost at S5 (R372). -/
def loseSession (s : State) (n : Nat) : State :=
  if (codecOf s n).session.isSome then setCodec (dropUnits (codecEvent s n 0x102 0) fun w => decide (w.typ = 0x070) && decide (w.inst = n)) n {} else s

/-- A link that idles at S5: what it held is lost (R390, R393). -/
def idleLink (s : State) (k : Nat) : State :=
  setLink (setLinkState s k 4) k { linkOf s k with replay := [], waitq := [], part := [], retrain := false }

/-- What is gated at S5 (R291, R379, R390, R393): cores and codecs lose power, stacks that hold data or are under test self-refresh, enabled links idle, region PLLs stop. -/
def gatePart (s : State) : State :=
  let s1 := (List.range 384).foldl (fun t c => wr t (coreKey c 0x38) 2) s
  let s2 := (List.range 16).foldl (fun t n => wr (wr (loseSession t n) (codecKey n 0x38) 2) (codecKey n 0x100) 0) s1
  let s3 := (List.range 8).foldl (fun t st => if stackSt t st = 1 ∨ stackSt t st = 3 then setStack t st { stackOf t st with selfRefresh := true } else t) s2
  let s4 := (List.range 16).foldl (fun t p => if portEn t p then (portLinks t p).foldl idleLink t else t) s3
  wrF { s4 with board := { s4.board with wfIdle := BitVec.allOnes 16 } } (pcmKey 0x108) 15 8 0

/-- Every park of a loom whose cores have stopped, saved. -/
def saveParks (s : State) (l : Nat) : State := (loomOf s l).parks.foldl (fun t _ => savePark t l) s

/-- The part enters S5 (R393): parks are saved, laggards reset by force, other bolts end STOPPED and collectives abort; then the part is gated. -/
def enterS5 (s : State) : State :=
  let s1 := (List.range 32).foldl saveParks s
  let s2 := (laggards s1).foldl forceCore s1
  let s3 := s2.coll.runs.foldl collKill (stopAllBolts s2)
  let s4 := gatePart s3
  { s4 with power := { s4.power with s5 := true } }

/-- S5_ENTRY (R393): once every core has stopped, or 1 ms has passed. -/
def execS5Entry (s : State) : Out :=
  effect (asking fun s =>
    if shedLevel s ≠ 5 ∨ s.power.s5 = true ∨ !(allStopped s || elapsedUs s.time s.power.riseAt 1000) then s else enterS5 s) s

/-- S5_EXIT (R393): once the level has fallen, DRAM leaves self-refresh, PLLs lock, enabled ports retrain, the cores of RUNNING looms wake; pauses that remain apply. -/
def execS5Exit (s : State) : Out :=
  effect (fun s =>
    if s.power.s5 = false ∨ shedLevel s = 5 then s
    else
      let s1 := { s with power := { s.power with s5 := false } }
      let s2 := (List.range 8).foldl (fun t st => setStack t st { stackOf t st with selfRefresh := false }) s1
      let s3 := (List.range 16).foldl (fun t p => if portEn t p then trainPort t p else t) (wrF s2 (pcmKey 0x108) 15 8 255)
      let s4 := (List.range 32).foldl (fun t l => if loomSt t l = 2 then (loomCores t l).foldl powerUp t else t) s3
      liftPauses (syncCodecs (wakeRegions s s4))) s

-- ## Time and telemetry (R376, R447)

/-- PCM_TIME_LO_READ (R376, R439): the lower half is read and the upper half latched. -/
def execPcmTimeLoRead (s : State) : Out :=
  effect (behindPosted fun s =>
    let s1 := wr (wr s (pcmKey 0x100) (s.time.setWidth 32)) (pcmKey 0x104) (s.time.extractLsb' 32 32)
    { s1 with resp := .data (toLe 4 s.time.toNat) }) s

/-- Key of a telemetry register. -/
def tlmKey (off : Nat) : Nat := 0x700000 + off

/-- TLM_ENERGY_LO_READ (R439, R447): the value of the last refresh, its upper half latched. -/
def execTlmEnergyLoRead (s : State) : Out :=
  effect (behindPosted fun s => { wr s (tlmKey 0x114) (s.power.energy.extractLsb' 32 32) with resp := .data (toLe 4 s.power.energy.toNat) }) s

/-- Nominal rail voltages in mV by rail number (R447, R450). -/
def railMv (n : Nat) : Nat :=
  if n < 8 then 1050 else if n < 16 then 800
  else [1050, 750, 1800, 850, 1200, 850, 800, 1800].getD (n - 16) 0

/-- Whether every TLM_RAIL reading lies within 3 % of its nominal value (R450, R454). -/
def railsInRange (s : State) : Bool :=
  (List.range 24).all fun n =>
    let mv := rdF s (tlmKey (0x140 + 4 * n)) 15 0
    decide (railMv n * 97 ≤ mv * 100) && decide (mv * 100 ≤ railMv n * 103)

/-- TLM_REFRESH (R447): unless frozen, every telemetry register updates together and TLM_SEQ increments; readings within range end a rail emergency (R454). -/
def execTlmRefresh (rails : List (BitVec 16 × BitVec 16)) (energy : Word64) (s : State) : Out :=
  effect (fun s =>
    if fbit (rd s (tlmKey 0x100)) 0 then s
    else
      let tj := (List.range 8).foldl (fun (a : Nat × Nat) r => if a.1 < regionTj s r then (regionTj s r, r) else a) (regionTj s 0, 0)
      let td := (List.range 8).foldl (fun (a : Nat × Nat) st =>
        if a.1 < rdF s (drcKey st 0x104) 10 0 then (rdF s (drcKey st 0x104) 10 0, st) else a) (rdF s (drcKey 0 0x104) 10 0, 0)
      let s1 := wr (wr s (tlmKey 0x108) (BitVec.ofNat 32 (tj.1 + tj.2 * 65536))) (tlmKey 0x10C) (BitVec.ofNat 32 (td.1 + td.2 * 65536))
      let s2 := (List.range (min 24 rails.length)).foldl (fun t n =>
        let x := rails.getD n (0, 0)
        wr t (tlmKey (0x140 + 4 * n)) (BitVec.ofNat 32 (x.1.toNat + x.2.toNat * 65536))) s1
      let pk := max (rdF s2 (tlmKey 0x118) 11 0) (rdF s2 (pcmKey 0x118) 11 0)
      let s3 := addCnt (wr (wrF s2 (tlmKey 0x118) 11 0 pk) (tlmKey 0x110) (energy.setWidth 32)) (tlmKey 0x104) 1
      syncDemand { s3 with power := { s3.power with energy := energy, emRail := s3.power.emRail && !railsInRange s3 } }) s

/-- TLM_PKG_PEAK_CLEAR (R447). -/
def opPkgPeakClear (s : State) : State := wrF s (tlmKey 0x118) 11 0 0

/-- TLM_PKG_PEAK_CLEAR (R447). -/
def execTlmPkgPeakClear (s : State) : Out := effect (onPage 0x700000 0x118 opPkgPeakClear) s

end Sys2Proof.Machine
end

