-- ==== Sys2Proof/Machine/Boot.lean ====
section
/-! DEFINITION. Resets and the boot order (R398-R412), PERST_N (R404), the DRAM's training (R288, R289), committing an image, the debug lock, and the aperture's size (R440). -/

namespace Sys2Proof.Machine

-- ## Reset sources (R398-R400, R454)

/-- A field of RST_BOOT_STAT set. -/
def bootF (s : State) (hi lo v : Nat) : State := wrF s (rstKey 0x108) hi lo v

/-- FAIL_CODE recorded (R413). -/
def bootFail (s : State) (code : Nat) : State := bootF s 15 8 code

/-- The sampling point (R400, R401): straps sampled; the ROM starts unless THERMTRIP_N is latched (R399). The reserved boot strap stops it, host load releases the LTSSM, peer boot trains port 0 as one link (R409). -/
def sampleStraps (s : State) (straps : BitVec 7) : State :=
  let s1 := wr { s with board := { s.board with straps := straps } } (rstKey 0x104) (straps.setWidth 32)
  let s2 := if bitsOf straps.toNat 3 2 = 3 then wrB s1 (pcmKey 0x108) 0 true else s1
  if s2.board.thermTrip then bootFail { s2 with boot := { s2.boot with waiting := false } } 7
  else
    let s3 := bootF s2 3 0 1
    match bitsOf straps.toNat 1 0 with
    | 0 => { s3 with boot := { s3.boot with waiting := true }, board := { s3.board with spiOn := true } }
    | 1 => bootF { s3 with boot := { s3.boot with waiting := true, ltssm := true }, board := { s3.board with peIdle := false } } 6 5 1
    | 2 => bootF (trainPort (wr { s3 with boot := { s3.boot with waiting := true } } (wfpKey 0 0x100) 1) 0) 6 5 2
    | _ => bootFail { s3 with boot := { s3.boot with waiting := false } } 1

/-- POWER_ON_RESET (R398): every block resets, the timestamp starts, DRAM contents are lost (R453); pins keep their levels, and the straps are sampled if RESET_N is already high (R400). -/
def powerOn (s : State) (straps : BitVec 7) (resetN : Bool) : State :=
  let b := s.board
  let s1 := { State.reset with
    fuse := s.fuse, spi := s.spi, host := s.host, pending := s.pending
    board := { resetN := resetN, pwrOk := b.pwrOk, perstN := b.perstN, prochotN := b.prochotN, pwrBrakeN := b.pwrBrakeN
               gpio := b.gpio, refclk := b.refclk, vddIo18 := b.vddIo18 } }
  let s2 := syncDemand { s1 with power := { s1.power with prochot := !b.prochotN, brake := !b.pwrBrakeN, emRef := !b.refclk } }
  if resetN then sampleStraps s2 straps else { s2 with boot := { s2.boot with waiting := false } }

/-- POWER_ON_RESET (R398). -/
def execPowerOnReset (straps : BitVec 7) (resetN : Bool) (s : State) : Out := .next (powerOn s straps resetN)

/-- A reset by RESET_N (R398): every block but the AON domain; the timestamp, the power and clock manager page, the THERMTRIP_N latch and RST_CAUSE keep their values, and PIN sets. Memory arrays keep their bytes (DESIGN CHOICE, log entry 4). -/
def pinReset (s : State) : State :=
  let b := s.board
  let kept := s.regs.filter fun p => (decide (0x2000 ≤ p.1) && decide (p.1 < 0x3000)) || decide (p.1 = rstKey 0x100)
  let s1 := { State.reset with
    fuse := s.fuse, time := s.time, mem := s.mem, badBlocks := s.badBlocks, spi := s.spi, host := s.host, pending := s.pending
    regs := kept, power := s.power
    board := { b with straps := b.straps, pinsHiZ := !b.vddIo18, spiOn := false, peIdle := true, wfIdle := BitVec.allOnes 16, numVfs := 0, msixEn := 0 }
    boot := { waiting := false, dbgAttempts := s.boot.dbgAttempts } }
  wrB s1 (rstKey 0x100) 1 true

/-- RESET_N_ASSERT (R398). -/
def execResetNAssert (s : State) : Out :=
  effect (fun s => let t := pinReset s; { t with board := { t.board with resetN := false } }) s

/-- RESET_N_RELEASE (R400). -/
def execResetNRelease (straps : BitVec 7) (s : State) : Out :=
  effect (fun s =>
    if s.board.resetN then s
    else
      let t := { s with board := { s.board with resetN := true } }
      if t.board.vddIo18 then sampleStraps t straps else t) s

/-- VDD_IO18_LOSS (R454): as RESET_N held low, and every 1.8 V pin is high-impedance. -/
def execVddIo18Loss (s : State) : Out :=
  effect (fun s => let t := pinReset s; { t with board := { t.board with vddIo18 := false, pinsHiZ := true } }) s

/-- VDD_IO18_RETURN (R454): the reset that its loss imposed is released, as RESET_N would, once RESET_N itself is high. -/
def execVddIo18Return (straps : BitVec 7) (s : State) : Out :=
  effect (fun s =>
    if s.board.vddIo18 then s
    else
      let t := { s with board := { s.board with vddIo18 := true, pinsHiZ := false } }
      if t.board.resetN then sampleStraps t straps else t) s

-- ## Images (R409, R410)

/-- First byte of the staging area: die pool 0 (R409). -/
def stagingAddr : Nat := poolAddr 0 0

/-- Source the ROM loads from: 0 SPI, 1 host, 2 fabric (R409). -/
def bootSource (s : State) : Nat := if s.boot.fellBack then 1 else rdF s (rstKey 0x104) 1 0

/-- Bytes of an image whose header is `h`: the header and the body, at most 16 MiB (R410). -/
def imageBytes (h : List Byte) : Nat := 512 + (if fieldLe h 8 4 ≤ 0x1000000 then fieldLe h 8 4 else 0)

/-- An image of `n` bytes placed in staging. -/
def stageImage (s : State) (bs : List Byte) : State :=
  { memWr s stagingAddr bs with boot := { s.boot with present := true, imgBytes := bs.length } }

/-- ROM_IMAGE_LOAD (R409): in SPI boot the ROM reads slot A and then slot B. Host and peer images arrive by MBX_BOOT_GO and PEER_BOOT_FLIT. -/
def execRomImageLoad (s : State) : Out :=
  effect (fun s =>
    if !s.boot.waiting || s.boot.present || decide (bootSource s ≠ 0) || decide (1 < s.boot.nextSlot) then s
    else
      let base := s.boot.nextSlot * 0x1000000
      let h := cgets s.spi base 512
      bootF (bootF (stageImage s (cgets s.spi base (imageBytes h))) 7 7 s.boot.nextSlot) 3 0 1) s

/-- MBX_BOOT_CMD.GO (R409, R414): in host load the ROM reads the image by DMA, at most the 64 MiB of staging; a GO while a load is in progress is ignored. -/
def opBootGo (s : State) : State :=
  let k := mbxKey 0x10C
  if !s.boot.waiting || decide (bootSource s ≠ 1) || s.boot.loading then s
  else
    let a := rdF s (mbxKey 0x100) 31 12 * 4096 + (rd s (mbxKey 0x104)).toNat * 2 ^ 32
    let n := min (rd s (mbxKey 0x108)).toNat 0x4000000
    let s1 := stageImage (wrF (wrB s k 0 true) k 2 1 0) (cgets s.host a n)
    { s1 with boot := { s1.boot with loading := true } }

/-- MBX_BOOT_GO (R409). -/
def execMbxBootGo (s : State) : Out := effect opBootGo s

/-- PEER_BOOT_FLIT (R409): in peer boot, over a working link 0, while the ROM waits; each flit taken is acknowledged. -/
def execPeerBootFlit (data : List Byte) (last : Bool) (s : State) : Out :=
  effect (fun s =>
    if !s.boot.waiting || s.boot.present || decide (bootSource s ≠ 2) || !linkWorks s 0 || decide (0x4000000 < s.boot.imgBytes + data.length) then s
    else
      let s1 := memWr s (stagingAddr + s.boot.imgBytes) data
      { s1 with boot := { s.boot with imgBytes := s.boot.imgBytes + data.length, present := last, acks := s.boot.acks + 1 } }) s

/-- Result of the checks of R410 in their order: 0 when the image is accepted, else its FAIL_CODE. A bad MAGIC, HDR_VER or reserved byte is NO_IMAGE, a bad IMG_LEN is LENGTH (DEDUCED, log entry 10). -/
def imageCheck (s : State) : Nat :=
  let h := memRd s stagingAddr 512
  let n := fieldLe h 8 4
  let slot := byteAt h 16
  let key := slice h 32 97
  if s.boot.imgBytes < 512 ∨ fieldLe h 0 4 ≠ 0x49565A31 ∨ fieldLe h 4 4 ≠ 1 ∨ zeros h 17 32 = false ∨ zeros h 129 160 = false ∨ zeros h 256 512 = false then 1
  else if 0x1000000 < n ∨ s.boot.imgBytes < 512 + n then 5
  else if 3 < slot ∨ Config.sha384 key ≠ s.fuse.keyHash.getD slot 0 ∨ bitOf s.fuse.revoked.toNat slot = true then 2
  else if Config.ecdsaVerify key (slice h 0 160 ++ memRd s (stagingAddr + 512) n) (slice h 160 96) = false then 3
  else if fieldLe h 12 4 < s.fuse.arbCount ∨ 64 < fieldLe h 12 4 then 4
  else 0

/-- An image refused (R409): the next SPI slot, then host load with the LTSSM released; a host load reports its code; a peer image leaves the ROM waiting. -/
def imageRefused (s : State) (code : Nat) : State :=
  let src := bootSource s
  let s1 := bootFail { s with boot := { s.boot with present := false, imgBytes := 0, loading := false } } code
  if src = 0 then
    if s.boot.nextSlot = 0 then { s1 with boot := { s1.boot with nextSlot := 1 } }
    else bootF { s1 with boot := { s1.boot with nextSlot := 2, fellBack := true, ltssm := true }, board := { s1.board with peIdle := false } } 6 5 1
  else if src = 1 then wrF (wrB (wrB s1 (mbxKey 0x10C) 0 false) (mbxKey 0x10C) 2 true) (mbxKey 0x10C) 15 8 code
  else s1

/-- IMAGE_VERIFY (R410): firmware starts, or the FAIL_CODE is recorded. -/
def execImageVerify (s : State) : Out :=
  effect (fun s =>
    if !s.boot.waiting || !s.boot.present then s
    else
      let code := imageCheck s
      if code ≠ 0 then imageRefused s code
      else
        let s1 := { s with boot := { s.boot with
          waiting := false, firmware := true, present := false, loading := false, arbVer := fieldLe (memRd s stagingAddr 512) 12 4 } }
        let s2 := if bootSource s = 1 then wrF (wrB (wrB s1 (mbxKey 0x10C) 0 false) (mbxKey 0x10C) 1 true) (mbxKey 0x10C) 15 8 0 else s1
        bootF (bootFail s2 0) 3 0 2) s

/-- IMAGE_COMMIT (R410, R445): firmware blows ARB bits up to its own ARB_VER. -/
def execImageCommit (s : State) : Out :=
  .next (if s.boot.firmware then { s with fuse := { s.fuse with arbCount := max s.fuse.arbCount s.boot.arbVer } } else s)

-- ## From firmware to READY (R401, R402)

/-- PLL_START (R401, R454, R456): once PWR_OK is high and every rail reading is in range; without REFCLK_SYS the order stops with FAIL_CODE PLL; in the oscillator test mode no PLL starts (R400). -/
def execPllStart (s : State) : Out :=
  effect (fun s =>
    if !s.boot.firmware || decide (bootStage s ≠ 2) || !s.board.pwrOk || !railsInRange s || decide (rdF s (rstKey 0x104) 3 2 = 3) then s
    else if !s.board.refclk then bootFail s 8
    else
      let s1 := bootF (wrF s (pcmKey 0x108) 15 8 255) 3 0 3
      (List.range 8).foldl (fun t r => wrF t (regionKey r 0x110) 10 0 (opMv (rdF t (regionKey r 0x104) 2 0))) s1) s

/-- DRP_LANE_MAP of a channel after training (R288, R289, R299). -/
def laneMap (f : LaneFind) : Word32 :=
  if 2 < f.data.length ∨ 1 < f.cmd.length then BitVec.ofNat 32 (2 ^ 31)
  else
    let d := fun i => match f.data[i]? with
      | some n => n % 128 + 128
      | none => 0
    let c := match f.cmd[0]? with
      | some n => n % 16 * 2 ^ 16 + 2 ^ 20
      | none => 0
    BitVec.ofNat 32 (d 0 + d 1 * 256 + c)

/-- A stack trained (R288, R289): lane maps, the time taken, and READY or FAILED. -/
def trainStack (s : State) (finds : List (Nat × Nat × LaneFind)) (us : Word32) (st : Nat) : State :=
  let mine := finds.filter fun f => decide (f.1 = st)
  let s1 := (List.range 32).foldl (fun t c => wr t (drpKey st (0x100 + 4 * c))
    (match mine.find? fun f => decide (f.2.1 = c) with
     | some f => laneMap f.2.2
     | none => 0)) s
  let bad := (List.range 32).any fun c => fbit (rd s1 (drpKey st (0x100 + 4 * c))) 31
  setStack (wrF (wr s1 (drpKey st 0x184) us) (drcKey st 0x100) 1 0 (if bad then 2 else 1)) st { stackOf s1 st with trained := true }

/-- DRAM_TRAINING (R288, R289, R401, R402): a FAILED stack 0 stops the order with FAIL_CODE DRAM. -/
def execDramTraining (finds : List (Nat × Nat × LaneFind)) (us : BitVec 32) (s : State) : Out :=
  effect (fun s =>
    if bootStage s ≠ 3 ∨ rdF s (rstKey 0x108) 15 8 ≠ 0 then s
    else
      let s1 := (List.range 8).foldl (fun t st => trainStack t finds us st) s
      if stackSt s1 0 = 2 then bootFail s1 6
      else bootF { s1 with boot := { s1.boot with weftSince := s.time } } 3 0 4) s

/-- READY sets (R401 stage 7). -/
def setReady (s : State) : State := bootF (bootF s 3 0 6) 4 4 1

/-- BOOT_WEFT_TRAIN_END (R401): every enabled link is UP, or 500 ms have passed. The LTSSM is released; a link already up ends the order. -/
def execBootWeftTrainEnd (s : State) : Out :=
  effect (fun s =>
    let up := (List.range 16).all fun p => !portEn s p || (portLinks s p).all (linkWorks s)
    if bootStage s ≠ 4 ∨ !(up || elapsedUs s.time s.boot.weftSince 500000) then s
    else
      let s1 := bootF { s with boot := { s.boot with ltssm := true }, board := { s.board with peIdle := false } } 3 0 5
      if s1.boot.pcieUp then setReady s1 else s1) s

/-- PCIE_LINK_UP (R401, R404): the link comes up once released, with PERST_N high and no reset of the PCIe block under way; at stage 6 READY sets. -/
def execPcieLinkUp (s : State) : Out :=
  effect (fun s =>
    if !s.boot.ltssm || !s.board.perstN || blockClosed s .pcie then s
    else
      let s1 := { s with boot := { s.boot with pcieUp := true } }
      if bootStage s1 = 5 then setReady s1 else s1) s

-- ## PERST_N (R404)

/-- PERST_N_FALL (R404): the PCIe block's idle-then-reset starts, MSI-X state is cleared, the link is down. -/
def execPerstNFall (s : State) : Out :=
  effect (fun s =>
    let s1 := addCnt { s with board := { s.board with perstN := false, msixEn := 0 }, boot := { s.boot with pcieUp := false } } (rstKey 0x110) 1
    let s2 := { s1 with regs := s1.regs.filter fun p => decide (p.1 < 0x310000) || (decide (0x319000 ≤ p.1) && decide (p.1 < vfMsix 0)) }
    ownReset s2 .pcie) s

/-- PERST_N_RISE (R404): the link trains by PCIE_LINK_UP once the block reset has completed. -/
def execPerstNRise (s : State) : Out :=
  effect (fun s => { s with board := { s.board with perstN := true } }) s

-- ## Debug lock (R412) and the aperture (R440)

/-- DEBUG_UNLOCK (R412): each attempt uses a fresh challenge; scope 1 is refused while any loom is not DESTROYED; an unlock is recorded in the fault ledger. -/
def execDebugUnlock (scope : Bool) (sig : List Byte) (s : State) : Out :=
  effect (fun s =>
    let n := s.boot.dbgAttempts
    let s1 := { s with boot := { s.boot with dbgAttempts := n + 1 } }
    let msg := toLe 32 (Config.challenge n).toNat ++ toLe 16 s.fuse.uniqueId.toNat ++ toLe 1 (b2n scope)
    if s.fuse.dbgDisable || (scope && !(liveLooms s).isEmpty) || !Config.debugVerify s.fuse.dbgKeyHash msg sig then s1
    else
      let s2 := { s1 with boot := { s1.boot with dbgScope := some (scope || s1.boot.dbgScope.getD false) } }
      report s2 (localRep s2 0x013 0 .other 0x013 0 (b2n scope)) false) s

/-- RESIZABLE_BAR_WRITE (R438, R440): 1 GiB to 512 GiB; PCIE_BAR4_SIZE follows. -/
def execResizableBarWrite (log2Gib : BitVec 5) (s : State) : Out :=
  effect (fun s => if 9 < log2Gib.toNat then s else wr s 0x300104 (log2Gib.setWidth 32)) s

end Sys2Proof.Machine
end

