-- ==== Sys2Proof/Machine/Faults.lean ====
section
/-! DEFINITION. Losing cores and DRAM channels (R415-R420), scrubbing and bring-up tests (R287, R290, R291), host access through BAR4 and the host window (R281, R439), and the fault ledger's rows (R422-R427). -/

namespace Sys2Proof.Machine

-- ## Losing a core (R417-R419)

/-- Cause number of CORE_RETIRED (R427). -/
def retireCauseNum : RetireCause → Nat
  | .arrayParity => 1
  | .scratchpad => 2
  | .sequencer => 3
  | .portBuffer => 4

/-- INFO1 of CORE_RETIRED (R427). -/
def retireInfo (c sub cause : Nat) : Nat := c + sub * 2 ^ 9 + cause * 2 ^ 24

/-- Entries whose running or parked bolt uses a core. -/
def usersOf (s : State) (c : Nat) : List (Entry × Bolt) :=
  s.entries.filterMap fun e =>
    if e.phase = .running then (match e.bolt with
      | some b => if (boltCores b).contains c then some (e, b) else none
      | none => none)
    else none

/-- A bolt stopped at once because a core of it failed (R417, R419): a park under way is abandoned first. -/
def loseBolt (s : State) (c : Nat) (e : Entry) (b : Bolt) : State :=
  if b.parked then s
  else
    let s1 := if (parkFor s e.loom e.ring e.seq).isSome then abandonPark s e.loom e b c else s
    let s2 := (boltCores b).foldl stopNow s1
    updEntry s2 e.ring e.seq fun x => { x with bolt := some { b with
      stop := if stopEnds b then b.stop else .lost, graceAt := s.time } }

/-- A core retired (R417): commits begun go on, the available-core bit clears, the core is power-gated, the ledger hears of it, its bolt stops. The event round waits for the re-map when a bolt needs one (R423). -/
def retireCore (s : State) (c : Nat) (cause : RetireCause) : State :=
  if (coreOf s c).retired then s
  else
    let us := usersOf s c
    let s1 := stopNow s c
    let s2 := setCore s1 c { coreOf s1 c with retired := true }
    let s3 := wr (wrB s2 (mbxKey (0x240 + c / 32 * 4)) (c % 32) false) (coreKey c 0x38) 2
    let cls : FaultClass := if cause = .arrayParity then .parity else .ueSram
    let s4 := blkError s3 (coreKey c 0) (classBit cls) 0
    let s5 := us.foldl (fun t p => loseBolt t c p.1 p.2) s4
    let r := localRep s5 0x040 c cls 0x040 c (retireInfo c 0x1FF (retireCauseNum cause))
    if us.isEmpty then reportLoss s5 r else report s5 r true

/-- CORE_RETIRE (R417). -/
def execCoreRetire (c : CoreId) (cause : RetireCause) (s : State) : Out := effect (posting fun s => retireCore s c cause) s

/-- Valid substitutions of a loom (R431): retired core and substitute. -/
def substs (s : State) (l : Nat) : List (Nat × Nat) :=
  (List.range 16).filterMap fun n =>
    let w := rd s (loomKey l (0x500 + 4 * n))
    if fbit w 31 then some (fld w 8 0, fld w 17 9) else none

/-- Whether two cores are mesh neighbours. -/
def adjoin (a b : Nat) : Bool := (List.range 4).any fun d => decide (neighbour a d = some b)

/-- The first spare that may take a failed core's rank `k` (R418). -/
def pickSpare (s : State) (l : Nat) (g : Stage) (k : Nat) : Option Nat :=
  g.spares.find? fun x =>
    coreAvail s x && !((substs s l).any fun p => decide (p.2 = x)) &&
    (!g.chain ||
      ((decide (k = 0) || adjoin (g.cores.getD (k - 1) 0) x) &&
       (decide (g.cores.length ≤ k + 1) || adjoin x (g.cores.getD (k + 1) 0))))

/-- A free entry of a loom's substitution list. -/
def freeSubst (s : State) (l : Nat) : Option Nat :=
  (List.range 16).find? fun n => !fbit (rd s (loomKey l (0x500 + 4 * n))) 31

/-- The stage of a bolt that holds a core, with its position and rank. -/
def stageOf (b : Bolt) (c : Nat) : Option (Nat × Nat × Stage) :=
  (List.range b.stages.length).findSome? fun i => match b.stages[i]? with
    | some g => ((List.range g.cores.length).find? fun k => decide (g.cores[k]? = some c)).map fun k => (i, k, g)
    | none => none

/-- The CORE_RETIRED record of a core whose event round waits for the re-map (R423), with its ledger entry. -/
def remapWaits (s : State) (c : Nat) : Option (Nat × LedgerEnt × Word64) :=
  s.ledger.findSome? fun p => (p.2.remaps.find? fun w => decide (w.toNat % 512 = c)).map fun w => (p.1, p.2, w)

/-- The event round that waited for the re-map of a core (R423): CORE_RETIRED with the substitute `sub`, or CORE_LOST of bolt `id` when there is none. The INFO1 of an entry that had raised no round becomes the event's (R422, R427). -/
def remapRound (s : State) (c : Nat) (sub : Option Nat) (id : Option Word64) : State :=
  match remapWaits s c with
  | none => s
  | some (i, e, w) =>
    let ls := (ownerOfPage s (coreKey c 0)).toList
    let w1 := match sub with
      | some x => (w &&& ~~~(0x3FE00 : Word64)) ||| BitVec.ofNat 64 (x * 2 ^ 9)
      | none => w
    let e1 := { e with remaps := e.remaps.erase w, info1 := if e.events = 0 then w1 else e.info1 }
    match id with
    | some b => ledgerRound s i e1 ls 0x005 (BitVec.ofNat 64 c) b
    | none => ledgerRound s i e1 ls 0x200 (mcInfo0 i e) w1

/-- A re-mapped bolt repeats from its start: cores begin afresh, ports empty (R419). -/
def restartBolt (s : State) (e : Entry) (b : Bolt) : State :=
  b.stages.foldl (fun t g => startStage t e g) ((boltCores b).foldl freeCore s)

/-- Whether a core of a bolt is retired. -/
def hasRetired (s : State) (b : Bolt) : Bool := (boltCores b).any fun c => (coreOf s c).retired

/-- A stopped bolt whose failed cores all have substitutes goes on (R419, R92): from its recovery point, or ended REPEAT_UNSAFE. What pauses and halts hold stays held. -/
def repeatBolt (s : State) (e : Entry) (b : Bolt) : State :=
  if b.noRepeat then finishBolt s e b 5
  else
    let b1 := { b with clockAt := if b.clockOn then b.clockAt else s.time, clockOn := true }
    let s1 := updEntry s e.ring e.seq fun x => { x with bolt := some b1 }
    let s2 := if b.recovery.isEmpty then restartBolt s1 { e with bolt := some b1 } b1 else resumeCores s1 e.loom { e with bolt := some b1 } b1
    holdAgain s2 e.loom

/-- A bolt whose failed core gets a substitute (R418, R419, R92): rank, registers and LOOM_SUBST follow, and the bolt repeats once no core of it is left retired. A parked bolt resumes with the substitute. -/
def remapBolt (s : State) (c sub n i k : Nat) (g : Stage) (e : Entry) (b : Bolt) : State :=
  let g1 : Stage := { g with cores := setAt g.cores k sub, spares := g.spares.filter (· ≠ sub) }
  let b0 : Bolt := { b with stages := setAt b.stages i g1, homes := tput b.homes sub (tget c b.homes c), remapped := true }
  let more := hasRetired s b0
  let b1 := if b.parked || more then b0 else { b0 with stop := .none }
  let s1 := wr s (loomKey e.loom (0x500 + 4 * n)) (BitVec.ofNat 32 (c + sub * 2 ^ 9 + 2 ^ 31))
  let s2 := updEntry (setCore s1 c { retired := true }) e.ring e.seq fun x => { x with bolt := some b1 }
  let s3 := remapRound s2 c (some sub) none
  if b.parked || more then s3 else repeatBolt s3 { e with bolt := some b1 } b1

/-- Whether a bolt that lost a core may be re-mapped now (R418): parked, or stopped on every core for that reason. -/
def remapReady (s : State) (b : Bolt) : Bool :=
  b.parked || (decide (b.stop = .lost) && (boltCores b).all fun x => (coreOf s x).slots.all fun y => !y.committing)

/-- CORE_REMAP (R418, R419, R423): once the failed core's bolt has stopped, the first qualifying spare takes its rank, or the bolt ends CORE_LOST and its ring is not fetched again until the loom is started anew. One command re-maps one bolt; where a parked and a running bolt both use the core, the spec does not say whether they share a substitute: here each gets its own (DESIGN CHOICE, log entry 58). -/
def execCoreRemap (c : CoreId) (s : State) : Out :=
  effect (asking fun s =>
    if !(coreOf s c).retired then s
    else if (usersOf s c).isEmpty then remapRound s c none none
    else match (usersOf s c).find? fun p => remapReady s p.2 with
      | none => s
      | some (e, b) =>
        match stageOf b c with
        | none => s
        | some (i, k, g) =>
          match pickSpare s e.loom g k, freeSubst s e.loom with
          | some sub, some n => remapBolt s c sub n i k g e b
          | _, _ =>
            let s1 := remapRound s c none (some e.id)
            finishBolt (setRing s1 e.ring { ringOf s1 e.ring with lost := true }) e b 6) s

-- ## DRAM in service (R285-R291, R420)

/-- DRAM_REFRESH (R291): a trained stack is refreshed, in test too, but not while it refreshes itself. -/
def execDramRefresh (st : StackId) (s : State) : Out :=
  effect (fun s =>
    let k := stackOf s st
    if k.trained && !k.selfRefresh && decide (stackSt s st ≠ 2) then setStack s st { k with refreshes := k.refreshes + 1 } else s) s

/-- PATROL_SCRUB (R287): one block read and written back; an error found is handled as for any read. -/
def execPatrolScrub (st : StackId) (addr : Nat) (found : ScrubOutcome) (s : State) : Out :=
  effect (posting fun s =>
    if !fbit (rd s (drcKey st 0x118)) 0 || decide (stackSt s st ≠ 1) || (stackOf s st).selfRefresh || decide (placeOf s addr ≠ .dram st (addr % 0x2000000000)) then s
    else if found = .uncorrectable ∨ badBlock s (addr / 64) = true then
      ueFound { s with badBlocks := insNat (addr / 64) s.badBlocks } (addr / 64) 0x050 st
    else if found = .corrected then ceFound s st addr
    else s) s

/-- DRAM_UE (R286): a read finds an uncorrectable block; the lowest operation the reading core has issued and not begun to commit aborts with FETCH_ERROR. -/
def execDramUe (addr : Nat) (reader : Option CoreId) (s : State) : Out :=
  effect (posting fun s =>
    match placeOf s addr with
    | .dram st _ =>
      let s1 := { s with badBlocks := insNat (addr / 64) s.badBlocks }
      (match reader with
       | none => ueFound s1 (addr / 64) 0x050 st
       | some c =>
         let s2 := ueFound s1 (addr / 64) 0x040 c
         match issuedFresh s2 c (fun _ => true) with
         | some x => opAccessErr s2 c x ⟨4, none, addr / 64 * 64⟩
         | none => s2)
    | _ => s) s

/-- A stack withdrawn (R420): FAILED, contents lost, one STACK_LOST to every loom with a window on it; without stack 0 the firmware demands S5. -/
def loseStack (s : State) (st ch cause : Nat) : State :=
  let info := st + ch * 8 + cause * 256
  let r : FaultRep := { localRep s 0x050 st .ueDram 0x050 st info with stackLost := true }
  let s2 := memZero (wrF (reportLoss s r) (drcKey st 0x100) 1 0 2) (st * 0x2000000000) 0x1800000000
  let s3 := { s2 with badBlocks := s2.badBlocks.filter fun b => decide (b * 64 / 0x2000000000 ≠ st) }
  if st = 0 then syncDemand { s3 with power := { s3.power with emDram := true } } else s3

/-- DRAM_CHANNEL_FAIL (R420): after 3 failed retrains, or 16 uncorrectable blocks within one second. -/
def execDramChannelFail (st : StackId) (ch : Fin 32) (cause : ChannelCause) (s : State) : Out :=
  effect (posting fun s =>
    let k := stackOf s st
    if !(decide (stackSt s st = 1) || decide (stackSt s st = 3)) then s
    else match cause with
      | .retrain => if 3 ≤ tget 0 k.retrains ch.val then loseStack s st ch 1 else s
      | .uncorrectableCount => if 16 ≤ (lastSecond s.time (tget [] k.ueTimes ch.val)).length then loseStack s st ch 2 else s) s

/-- DRAM_CHANNEL_RETRAIN (R420): at most 3 before the channel counts as failed; a success starts the count afresh. -/
def execDramChannelRetrain (st : StackId) (ch : Fin 32) (ok : Bool) (s : State) : Out :=
  effect (fun s =>
    let k := stackOf s st
    if stackSt s st ≠ 1 ∨ 3 ≤ tget 0 k.retrains ch.val then s
    else setStack s st { k with retrains := tput k.retrains ch.val (if ok then 0 else tget 0 k.retrains ch.val + 1) }) s

/-- Mismatches that a test finds, counted per channel: data-path and spare lanes, and command lanes, each saturating at 65,535 (R290, R299). -/
def countMismatches (s : State) (st : Nat) (found : List (Nat × Nat × Nat)) : State :=
  found.foldl (fun t f =>
    if 32 ≤ f.1 then t else
    let k := drpKey st (0x200 + 4 * f.1)
    let v := rd t k
    wr t k (BitVec.ofNat 32 (min 65535 (fld v 15 0 + f.2.1) + min 65535 (fld v 31 16 + f.2.2) * 65536))) s

/-- DRP_TEST_CTRL written (R290): MODE 3 is reserved, MODE 1 or 2 needs a stack without loom windows that is not stack 0 of a ready part; a rise of RUN clears the error counts, and a running test counts what it finds. -/
def opDrpTest (s : State) (st v : Nat) (found : List (Nat × Nat × Nat)) : State :=
  let k := drpKey st 0x180
  let m := v % 4
  let free := (stackLooms s st).isEmpty && !(decide (st = 0) && ready s)
  let mode := if m = 3 ∨ (m ≠ 0 ∧ !free) then rdF s k 1 0 else m
  let s1 := if bitOf v 3 && !fbit (rd s k) 3 then (List.range 32).foldl (fun t c => wr t (drpKey st (0x200 + 4 * c)) 0) s else s
  let s2 := wr s1 k (BitVec.ofNat 32 (mode + v / 4 % 4 * 4))
  let x := stackOf s2 st
  let cur := stackSt s2 st
  let s3 := if mode ≠ 0 ∧ cur ≠ 3 then wrF (setStack s2 st { x with before := cur }) (drcKey st 0x100) 1 0 3
    else if mode = 0 ∧ cur = 3 then wrF s2 (drcKey st 0x100) 1 0 x.before
    else s2
  if mode ≠ 0 ∧ bitOf v 3 then countMismatches s3 st found else s3

/-- DRP_TEST_CTRL_WRITE (R290). -/
def execDrpTestCtrlWrite (st : StackId) (w : TestWrite) (s : State) : Out :=
  effect (onPage (drpKey st 0) 0x180 fun s => opDrpTest s st w.value.toNat w.found) s

-- ## Host access (R281, R402, R438, R439)

/-- Whether BAR2 and BAR4 answer: READY and not in S5 (R438). -/
def barOpen (s : State) : Bool := ready s && !s.power.s5

/-- Local address of a BAR4 offset (R439). -/
def bar4Addr (s : State) (off : Nat) : Nat :=
  let size := 2 ^ rdF s 0x300104 4 0 * 0x40000000
  rdF s 0x300100 11 0 * 0x40000000 / size * size + off

/-- Whether a BAR4 access is refused (R439). -/
def bar4Refused (s : State) (a n : Nat) : Bool :=
  match placeOf s a with
  | .dram st o => decide (0x1800000000 < o + n) || stackOut s st || overlaps a n 0x1780000000 0x80000000
  | _ => true

/-- Whether a BAR4 access reaches the aperture (R404, R440). -/
def bar4Reach (s : State) (off len : Nat) : Bool :=
  s.boot.pcieUp && decide (0 < len) && decide (off + len ≤ 2 ^ rdF s 0x300104 4 0 * 0x40000000)

/-- BAR4_READ (R286, R294, R439): the writes before it become visible, then it is answered; charged to no loom. -/
def execBar4Read (off len : Nat) (s : State) : Out :=
  effect (fun s =>
    if !bar4Reach s off len then s
    else if !barOpen s then { s with resp := .unsupported }
    else behindPosted (asking fun s =>
      let a := bar4Addr s off
      if bar4Refused s a len then { addCnt s 0x300108 1 with resp := .unsupported }
      else match localRead s pcieWho none a len with
        | (t, .ok bs) => { t with resp := .data bs }
        | (t, .error _) => { t with resp := .unsupported }) s) s

/-- BAR4_WRITE (R439): discarded when refused; else the part's own units see it after a later read by PF0. -/
def execBar4Write (off : Nat) (data : List Byte) (s : State) : Out :=
  effect (fun s =>
    let a := bar4Addr s off
    if !bar4Reach s off data.length || !barOpen s then s
    else if bar4Refused s a data.length then addCnt s 0x300108 1
    else { s with posted := s.posted ++ [(a, data)] }) s

/-- HOST_WINDOW_ACCESS (R272, R281): every touched segment is checked before any byte moves. -/
def execHostWindowAccess (l : LoomId) (addr : Nat) (acc : HostAcc) (s : State) : Out :=
  effect (asking fun s =>
    if isTap addr then s
    else match placeOf s addr, acc with
      | .hostWin _, .read n => match loomRead s pcieWho l addr n with
        | (t, .ok bs) => { t with resp := .data bs }
        | (t, .error e) => postErr t l e 0x080 0
      | .hostWin _, .write bs => match loomWrite s pcieWho l addr bs with
        | (t, none) => t
        | (t, some e) => postErr t l e 0x080 0
      | _, _ => s) s

-- ## The fault ledger (R416, R422-R426)

/-- What an uncorrectable error of an on-chip memory loses (R415), INFO1[63:32] naming the entry (R427): a cached creel entry becomes FAILED, a bolt in the loader's buffers ends FETCH_ERROR, a directory entry is gone. -/
def sramEntry (s : State) (typ n : Nat) : State :=
  if typ = 0x022 then
    (match tfind s.creel n with
     | some e => if e.state < 5 then reqEvent (setCreel s n { e with state := 6 }) e 0x21 (4 + n * 2 ^ 32) else s
     | none => s)
  else if typ = 0x021 then
    (match headEntry s n with
     | some e => if entKind e = 1 ∧ (e.phase = .fetched ∨ e.phase = .waitStore ∨ e.phase = .ready) then endUnstarted s e 4 else s
     | none => s)
  else if typ = 0x061 then { s with coh := { s.coh with dir := tdel s.coh.dir n } }
  else s

/-- What a report of an SRAM error costs beside the ledger (R415, R424): the entry affected, and the operation of the reporting core that met it, which aborts with FETCH_ERROR. -/
def sramLoss (s : State) (r : FaultRep) : State :=
  if r.dev.toNat ≠ ownDev s ∨ r.cls ≠ .ueSram ∨ r.fromDev.isSome = true then s
  else
    let n := r.info1.toNat / 2 ^ 32
    let s1 := sramEntry s r.type.toNat n
    if r.reporterType.toNat = 0x040 ∧ r.type.toNat ≠ 0x040 then
      (match issuedFresh s1 r.reporterInst.toNat (fun _ => true) with
       | some x => opAccessErr s1 r.reporterInst.toNat x ⟨4, none, n⟩
       | none => s1)
    else s1

/-- FAULT_REPORT (R415, R423). -/
def execFaultReport (rep : FaultRep) (s : State) : Out := effect (posting fun s => report (sramLoss s rep) rep false) s

/-- The report an entry stands for, as the rule of entitlement needs it. -/
def entryRep (e : LedgerEnt) : FaultRep :=
  { dev := e.sDev, type := e.sType, inst := e.sInst, cls := if e.classes.getLsbD 3 then .ueDram else .other, fromDev := none
    reporterType := e.repType.setWidth 12, reporterInst := e.repInst.setWidth 12, info1 := e.info1, stackLost := decide (e.evType = 0x202) }

/-- LEDGER_HOLDOFF_END (R424): a round with MC_REPEAT when COUNT has grown since the last round. -/
def execLedgerHoldoffEnd (i : LedgerId) (s : State) : Out :=
  effect (posting fun s =>
    match tfind s.ledger i with
    | none => s
    | some e =>
      if !e.holding || !elapsedUs s.time e.eventTime (rdF s (mbxKey 0x200) 19 0) then s
      else if e.count = e.countAt then { s with ledger := tput s.ledger i { e with holding := false } }
      else ledgerRound s i e (entitled s (entryRep e)) 0x206 (mcInfo0 i e) (BitVec.ofNat 64 (e.count + (e.count - e.countAt) * 2 ^ 32))) s

/-- Whether an event round of an entry is pending (R423, R426): it waits for a re-map, or its holdoff has ended and COUNT grew in it. -/
def roundPending (s : State) (e : LedgerEnt) : Bool :=
  !e.remaps.isEmpty || (e.holding && elapsedUs s.time e.eventTime (rdF s (mbxKey 0x200) 19 0) && decide (e.count ≠ e.countAt))

/-- LEDGER_AGE_OUT (R426). -/
def execLedgerAgeOut (i : LedgerId) (s : State) : Out :=
  effect (fun s =>
    match tfind s.ledger i with
    | none => s
    | some e =>
      let ms := rdF s (mbxKey 0x204) 15 0
      if ms = 0 ∨ roundPending s e = true ∨ !elapsedUs s.time e.last (ms * 1000) then s else { s with ledger := tdel s.ledger i }) s

/-- FL_RELEASE (R426). -/
def opFlRelease (s : State) (i : Nat) : State := { s with ledger := tdel s.ledger i }

/-- FL_RELEASE (R426). -/
def execFlRelease (i : LedgerId) (s : State) : Out := effect (fun s => opFlRelease s i) s

/-- FL_READ (R422): the indexed entry is copied into the data registers; a free entry reads 0. -/
def opFlRead (s : State) : State :=
  loadRegs s (mbxKey 0x300) 32 (match tfind s.ledger (rdF s (mbxKey 0x218) 9 0) with
    | some e => ledgerBytes e
    | none => [])

/-- FL_READ (R422). -/
def execFlRead (s : State) : Out := effect opFlRead s

/-- CE_STORM (R416): more corrected errors counted in one second than FL_CE_THRESH. -/
def execCeStorm (b : Block) (s : State) : Out :=
  effect (posting fun s =>
    let p := pageOf b
    let n := (lastSecond s.time (tget [] s.ceCounts p)).length
    if n ≤ rdF s (mbxKey 0x208) 23 0 then s
    else report { s with ceCounts := tdel s.ceCounts p } (localRep s (codeOf b) (instOf b) .ceStorm (codeOf b) (instOf b) n) false) s

end Sys2Proof.Machine
end

