-- ==== Sys2Proof/Machine/Sequencer.lean ====
section
/-! DEFINITION. The sequencer (R174-R178): fetching descriptors, issuing operations under R175, R177 and the interlocks of R88, and the KNOT operations (R192-R195). -/

namespace Sys2Proof.Machine

-- ## Fetching (R174, R178)

/-- Whether a core fetches and issues: it runs a bolt, its clocks run (R387), it has neither stopped nor failed, and its block takes new work (R405). -/
def coreGoes (s : State) (c : Nat) : Bool :=
  let k := coreOf s c
  let p := blkOf s (coreKey c 0)
  !s.board.thermTrip && !k.stopped && k.fail.isNone && !p.pending && !p.resetting && decide (rd s (coreKey c 0x38) ≠ 2)

/-- The running bolt of a core that fetches and issues. -/
def goingBolt (s : State) (c : Nat) : Option (Entry × Bolt) :=
  if !coreGoes s c then none
  else match coreBolt s c with
    | some (e, b) => if e.phase = .running && !b.parked then some (e, b) else none
    | none => none

/-- Whether an operation may be fetched or issued after a stop request (R68). -/
def beforeStop (s : State) (c : Nat) (b : Bolt) (i : Nat) : Bool := !(coreOf s c).stopReq || decide (i ≤ stopOp s c b)

/-- The next descriptor of a core's stage from `fetchAt` on, neither done nor in a slot (R174, R249). -/
def nextDesc (s : State) (c : Nat) (b : Bolt) : Nat → Nat → Option Nat
  | 0, _ => none
  | f + 1, i =>
    let k := coreOf s c
    if decide (descStage s b i = coreStage s c) && !k.done.contains i && !k.slots.any (fun x => decide (x.idx = i)) then some i
    else nextDesc s c b f (i + 1)

/-- Whether a descriptor carries DEFER. -/
def isDefer (ws : List Word32) : Bool := decide (wfld ws 0 9 9 = 1)

/-- Whether a main-window operation of the stage names operation `i` as a predecessor (R178). -/
def namedByMain (s : State) (c : Nat) (b : Bolt) (i : Nat) : Bool :=
  (List.range (boltOps s b)).any fun j =>
    decide (i < j) && decide (descStage s b j = coreStage s c) &&
    (let ws := descWords s b j
     !isDefer ws && (predsOf ws).contains i)

/-- A slot for descriptor `i` (R174, R178, R194): its knot wait may already be satisfied. -/
def newSlot (s : State) (c : Nat) (b : Bolt) (i : Nat) : Slot :=
  let ws := descWords s b i
  let wk := wfld ws 3 15 0
  { idx := i, words := ws, deferred := isDefer ws, promoted := isDefer ws && namedByMain s c b i
    knotMet := decide (wk = 0xFFFF) || decide ((ws.getD 4 0).toNat ≤ (knotOf s wk).toNat) }

/-- Whether a descriptor finds room: 32 slots in all, 16 of them deferred (R174). -/
def slotRoom (k : Core) (defer : Bool) : Bool :=
  decide (k.slots.length < 32) && (!defer || decide ((k.slots.filter Slot.deferred).length < 16))

/-- Whether a core's fetching is stopped (R174): every slot is in use, or the next descriptor carries DEFER and the deferred queue is full. -/
def fetchStops (s : State) (c : Nat) : Bool :=
  let k := coreOf s c
  decide (32 ≤ k.slots.length) ||
  (match coreBolt s c with
   | some (_, b) => (nextDesc s c b (boltOps s b - k.fetchAt) k.fetchAt).any fun i => let df := isDefer (descWords s b i); df && !slotRoom k df
   | none => false)

/-- Whether an operation waits on a knot (R175, R192): its own wait, or a WAIT_GE. -/
def knotWaits (x : Slot) : Bool := !x.knotMet || (x.issued && isKnot 2 x.words && decide (x.pos ≠ 1))

/-- A clock-gated core wakes (R379). -/
def wakeGated (s : State) (c : Nat) : State := if rd s (coreKey c 0x38) = 1 then wr s (coreKey c 0x38) 0 else s

/-- One descriptor fetched; at the bolt's last descriptor fetching ends. -/
def fetchOne (s : State) (c : Nat) (b : Bolt) : State :=
  let k := coreOf s c
  match nextDesc s c b (boltOps s b - k.fetchAt) k.fetchAt with
  | none => setCore s c { k with fetchAt := max k.fetchAt (boltOps s b) }
  | some i =>
    let x := newSlot s c b i
    if !beforeStop s c b i || !slotRoom k x.deferred then s
    else wakeGated (setCore s c { k with slots := k.slots ++ [x], fetchAt := i + 1 }) c

/-- OPERATION_FETCH (R174). -/
def execOperationFetch (c : CoreId) (s : State) : Out :=
  effect (fun s => match goingBolt s c with
    | some (_, b) => fetchOne s c b
    | none => s) s

-- ## Issuing (R175, R177, R88)

/-- The engine of an opcode (R175, R214, R239, R334, R357). -/
def engineOf (o : Nat) : Engine :=
  if o = 0x01 ∨ o = 0x02 ∨ o = 0x08 then .array
  else if isVecOp o then .vector
  else if o = 0x00 ∨ o = 0x28 then .sequencer
  else .shuttle

/-- Whether an operation sits in the main window, or is promoted to it (R178). -/
def isMain (x : Slot) : Bool := !x.deferred || x.promoted

/-- The run of operation `i` on the array, fresh when it has not begun. -/
def arrRun (k : Core) (i : Nat) : ArrayRun := (k.arr.find? fun a => decide (a.op = i)).getD { op := i }

/-- Whether an issued operation `y` keeps operation `x` off the array: an ATTN until its commit begins (R152), a matrix operation until the last pass of its last tile has entered; a deferred one lets a main-window operation in between its tiles (R56, R177). -/
def keepsArray (k : Core) (x y : Slot) : Bool :=
  y.issued && !y.committing && isArrayOp y.words &&
  (decide (opcode y.words = 0x08) ||
   (decide ((arrRun k y.idx).tile < mNT y.words) && !(isMain x && !isMain y && decide ((arrRun k y.idx).pass = 0))))

/-- Whether an issued operation keeps the vector engine (R152, R175). -/
def keepsVector (y : Slot) : Bool := y.issued && (isVecOp (opcode y.words) || (decide (opcode y.words = 0x08) && !y.committing))

/-- Whether an operation's engines are free (R152, R175): an ATTN takes the vector engine and both banks too. -/
def engineFree (k : Core) (x : Slot) : Bool :=
  match engineOf (opcode x.words) with
  | .array => !(k.slots.any (keepsArray k x)) &&
    (decide (opcode x.words ≠ 0x08) || (!(k.slots.any keepsVector) && !k.bankBusy.1 && !k.bankBusy.2))
  | .vector => !(k.slots.any keepsVector)
  | _ => true

/-- Whether an operation is ready (R175): predecessors complete, knot wait satisfied. -/
def opReady (k : Core) (x : Slot) : Bool := !x.issued && x.knotMet && (predsOf x.words).all fun p => k.done.contains p

/-- The lowest-indexed slot of a list. -/
def lowest (xs : List Slot) : Option Slot :=
  xs.foldl (fun b x => match b with
    | none => some x
    | some y => if x.idx < y.idx then some x else some y) none

/-- The operation an engine issues next (R175, R177, R178): main-window and promoted operations first. -/
def issueNext (s : State) (c : Nat) (b : Bolt) (e : Engine) : Option Slot :=
  let k := coreOf s c
  let rs := k.slots.filter fun x => decide (engineOf (opcode x.words) = e) && opReady k x && beforeStop s c b x.idx
  match lowest (rs.filter isMain) with
  | some x => some x
  | none => lowest rs

/-- What the sequencer reads from scratchpad as an operation issues: COUNT and bitmaps (R74, R98), the list's COUNT and the parameter block (R157, R163, R167), a pointer (R181). -/
def issueBytes (s : State) (c : Nat) (ws : List Word32) : List Byte :=
  let o := opcode ws
  if o = 0x01 ∨ o = 0x02 then
    (if mGather ws then spRd s c (spAt ws 12) 4 else [0, 0, 0, 0]) ++
    (if wfld ws 6 12 12 = 1 then spRd s c (wfld ws 11 31 18 * 2048) 2048 else [])
  else if o = 0x08 then spRd s c (spAt ws 10) 4 ++ spRd s c (spAt ws 14) 64
  else if o = 0x09 then spRd s c (spAt ws 14) 64
  else if o = 0x20 ∧ shInd ws then spRd s c (spAt ws 10) 8
  else []

/-- An operation issued: its slot goes behind those issued before it; deferred issues are counted (R177), and the first PROFILE issue copies the counters (R222). -/
def issueSlot (s : State) (c : Nat) (x : Slot) : State :=
  let bs := issueBytes s c x.words
  let k := coreOf s c
  let s1 := if wfld x.words 0 11 11 = 1 ∧ k.prof = none then setCore s c { k with prof := some (profileNow s c) } else s
  let k1 := coreOf s1 c
  let s2 := setCore s1 c { k1 with
    slots := (k1.slots.filter fun y => decide (y.idx ≠ x.idx)) ++ [{ x with issued := true, got := bs }] }
  if x.deferred && !x.promoted then addCnt s2 (coreKey c 0x10C) 1 else s2

/-- OPERATION_ISSUE (R175, R177, R88): an engine issues its next operation when the engine is free and no interlock holds it. -/
def execOperationIssue (c : CoreId) (e : Engine) (s : State) : Out :=
  effect (fun s =>
    match goingBolt s c with
    | none => s
    | some (_, b) =>
      match issueNext s c b e with
      | none => s
      | some x => if engineFree (coreOf s c) x && !heldBack s c x then issueSlot s c x else s) s

-- ## KNOT (R192-R195)

/-- Local address of a knot's record (R191). -/
def knotAddr (i : Nat) : Nat := 0x10800000000 + 64 * i

/-- The KNOT_SIGNAL a REMOTE update sends (R195, R313). -/
def knotMsg (s : State) (x : Slot) (set : Bool) : TapMsg :=
  let v := w64 x.words 8
  { ownReq s .knotSignal (wfld x.words 6 29 16) (knotAddr (wfld x.words 6 15 0)) 8 (toLe 8 v.toNat) with kopSet := set, extra := v }

/-- A REMOTE update (R195): sent once under a KNOT import window, complete when acknowledged. -/
def knotRemote (s : State) (c : Nat) (x : Slot) (set : Bool) : State :=
  let l := coreLoom s c
  let m := knotMsg s x set
  if x.pos = 1 then opComplete s c x
  else if (impFor s l m.dstDev.toNat m.addr.toNat 8 .knot).isNone then opAccessErr s c x ⟨3, none, tapAddr m⟩
  else if !maySend s m || !bucketOpen s l then s
  else match sendReq s l m (.op c x.idx) with
    | (t, some (st, code)) => opAccessErr t c x ⟨st, code, tapAddr m⟩
    | (t, none) => beginCommit (updSlot t c x.idx fun y => { y with pos := 1, waiting := 1 }) c x

/-- ADD or SET, local or REMOTE (R192). A local one applies at the knots block after the updates that arrived before it (R194), or finds it under reset (R406). -/
def knotUpdate (s : State) (c : Nat) (k : Nat) : State :=
  match issuedOp s c (isKnot k) with
  | none => s
  | some x =>
    let set := decide (k = 1)
    if wfld x.words 6 30 30 = 1 then knotRemote s c x set
    else if blockClosed s .knots then opAccessErr s c x ⟨4, some 6, knotAddr (wfld x.words 6 15 0)⟩
    else opFinish (applyKnot (drainKnots s) (wfld x.words 6 15 0) set (w64 x.words 8)) c x

/-- KNOT ADD (R192). -/
def execKnotAdd (c : CoreId) (s : State) : Out := effect (posting fun s => knotUpdate s c 0) s

/-- KNOT SET (R192). -/
def execKnotSet (c : CoreId) (s : State) : Out := effect (posting fun s => knotUpdate s c 1) s

/-- KNOT WAIT_GE (R192, R194): completes once the counter has reached VALUE, even if a later SET lowered it. -/
def execKnotWaitGe (c : CoreId) (s : State) : Out :=
  effect (fun s => match issuedOp s c (isKnot 2) with
    | none => s
    | some x =>
      if x.pos = 1 ∨ (w64 x.words 8).toNat ≤ (knotOf s (wfld x.words 6 15 0)).toNat then opComplete s c x else s) s

end Sys2Proof.Machine
end

