-- ==== Sys2Proof/Machine/Shuttle.lean ====
section
/-! DEFINITION. SHUTTLE operations (R84, R85, R180-R188): LOAD and STORE with their window check, zero compression, remote and coherent transfers; SEND, RECV and the stream ports. -/

namespace Sys2Proof.Machine

/-- Whether a descriptor is a SHUTTLE with an SOP. -/
def isShuttle (sop : Nat) (ws : List Word32) : Bool := decide (opcode ws = 0x20) && decide (shSop ws = sop)

/-- The issued SHUTTLE operations of a core with an SOP that R88 does not hold, in the order they issued; none once the clocks have stopped (R387). -/
def shuttles (s : State) (c sop : Nat) : List Slot :=
  if s.board.thermTrip then [] else (coreOf s c).slots.filter fun x => x.issued && isShuttle sop x.words && !heldBack s c x

/-- The first of a list that can make a step makes it. -/
def firstStep (s : State) (f : Slot → Option State) : List Slot → State
  | [] => s
  | x :: r => match f x with
    | some t => t
    | none => firstStep s f r

/-- A SHUTTLE completes with `n` bytes moved, counted in units of 256 bytes (R197). -/
def finishShuttle (s : State) (c : Nat) (x : Slot) (n : Nat) : State :=
  let k := coreOf s c
  let m := k.shRest + n
  opComplete (addCnt (setCore s c { k with shRest := m % 256 }) (coreKey c 0x114) (m / 256)) c x

/-- Bytes of the block. -/
def shTotal (ws : List Word32) : Nat := shRows ws * shRowBytes ws

-- ## Addresses and the check (R181, R182)

/-- Memory address of row 0 (R181). -/
def shBase (s : State) (c : Nat) (x : Slot) : Nat :=
  let ws := x.words
  let m := if shInd ws then leNat x.got + (ws.getD 11 0).toNat * 256 else w64n ws 10
  (m + coreRank s c * (ws.getD 13 0).toNat * 256) % 2 ^ 64

/-- Memory address of row `r`. -/
def shRow (s : State) (c : Nat) (x : Slot) (r : Nat) : Nat := shBase s c x + r * (x.words.getD 12 0).toNat

/-- Scratchpad offset of row `r` (R181). -/
def shSpRow (ws : List Word32) (r : Nat) : Nat := spAt ws 6 + r * shSpPitch ws

/-- Whether an indirect address breaks the alignment rule (R181). -/
def shMisaligned (s : State) (c : Nat) (x : Slot) : Bool :=
  let a := if shComp x.words then 576 else 256
  shInd x.words && (decide (shBase s c x % 2 ^ 42 % a ≠ 0) || (decide (1 < shRows x.words) && decide ((x.words.getD 12 0).toNat % a ≠ 0)))

/-- The check of the whole block (R182, R191, R271). -/
def shAllowed (s : State) (c : Nat) (x : Slot) : Bool :=
  !shMisaligned s c x && allowed s (coreLoom s c) (shBase s c x) (shMemSpan x.words) (decide (shSop x.words = 1))

-- ## Zero compression (R84, R85, R184)

/-- Element bytes (R180). -/
def shElem (ws : List Word32) : Nat := 2 ^ wfld ws 5 5 4

/-- Header of a 512-byte block of `e`-byte elements (R84). -/
def slotHeader (e : Nat) (b : List Byte) : List Byte :=
  (List.range 64).map fun i =>
    BitVec.ofNat 8 (((List.range 8).map fun j =>
      let k := 8 * i + j
      if k * e < 512 && !zeros b (k * e) (k * e + e) then 2 ^ j else 0).foldl (· + ·) 0)

/-- Whether a header marks element `i` present. -/
def present (h : List Byte) (i : Nat) : Bool := bitOf (byteAt h (i / 8)) (i % 8)

/-- Present bytes of a block (R85). -/
def presentBytes (e : Nat) (h : List Byte) : Nat := ((List.range (512 / e)).filter (present h)).length * e

/-- Bytes of the sectors that follow a header (R85). -/
def sectorBytes (e : Nat) (h : List Byte) : Nat := cdiv (presentBytes e h) 32 * 32

/-- The present elements of a block, packed in element order and filled to whole sectors (R84). -/
def packSlot (e : Nat) (h b : List Byte) : List Byte :=
  slice (((List.range (512 / e)).filter (present h)).flatMap fun i => (b.drop (i * e)).take e) 0 (sectorBytes e h)

/-- A block expanded from its packed elements (R84): `i` is the next element. -/
def expandSlot (e : Nat) (h : List Byte) : Nat → Nat → List Byte → List Byte
  | 0, _, _ => []
  | n + 1, i, d => if present h i then slice d 0 e ++ expandSlot e h n (i + 1) (d.drop e) else List.replicate e 0 ++ expandSlot e h n (i + 1) d

/-- Slots in a row. -/
def rowSlots (ws : List Word32) : Nat := shRowBytes ws / 512

/-- Memory address and scratchpad offset of slot `j` of the whole block. -/
def slotPlace (s : State) (c : Nat) (x : Slot) (j : Nat) : Nat × Nat :=
  let r := j / rowSlots x.words
  let b := j % rowSlots x.words
  (shRow s c x r + 576 * b, shSpRow x.words r + 512 * b)

/-- The bytes a STORE writes for slot `j`: header, ready-made or computed, and sectors (R184). -/
def slotImage (s : State) (c : Nat) (x : Slot) (j : Nat) : List Byte :=
  let e := shElem x.words
  let b := spRd s c (slotPlace s c x j).2 512
  let h := if shHdrs x.words then spRd s c (spAt x.words 14 + 64 * j) 64 else slotHeader e b
  h ++ packSlot e h b

-- ## LOAD and STORE

/-- One row or slot of a LOAD (R181, R184): its bytes reach scratchpad, expanded. -/
def loadPart (s : State) (c l : Nat) (x : Slot) (j : Nat) : State × Option AccErr :=
  let w := coreWho c x.idx
  if shComp x.words then
    let (a, o) := slotPlace s c x j
    let e := shElem x.words
    match loomReadAt s w l a 64 64 with
    | (t, .error er) => (t, some er)
    | (t, .ok h) =>
      let n := sectorBytes e h
      match if n = 0 then (t, .ok []) else loomReadAt t w l (a + 64) n n with
      | (u, .error er) => (u, some er)
      | (u, .ok d) => (spWr u c o (expandSlot e h (512 / e) 0 d), none)
  else match loomRead s w l (shRow s c x j) (shRowBytes x.words) with
    | (t, .error er) => (t, some er)
    | (t, .ok bs) => (spWr t c (shSpRow x.words j) bs, none)

/-- One row or slot of a STORE (R181, R184). -/
def storePart (s : State) (c l : Nat) (x : Slot) (j : Nat) : State × Option AccErr :=
  let w := coreWho c x.idx
  if shComp x.words then
    let img := slotImage s c x j
    loomWriteAt s w l (slotPlace s c x j).1 img img.length
  else loomWrite s w l (shRow s c x j) (spRd s c (shSpRow x.words j) (shRowBytes x.words))

/-- Rows, or slots of compressed rows. -/
def shParts (ws : List Word32) : Nat := if shComp ws then shRows ws * rowSlots ws else shRows ws

/-- One row or slot of a LOAD or a STORE. -/
def movePart (s : State) (c l : Nat) (x : Slot) (j : Nat) : State × Option AccErr :=
  if shSop x.words = 1 then storePart s c l x j else loadPart s c l x j

/-- Corrected reads among the blocks of `soft` that row or slot `j` touches (R285). -/
def noteSoft (s : State) (c : Nat) (x : Slot) (soft : List Nat) (j : Nat) : State :=
  let (a, n) := if shComp x.words then ((slotPlace s c x j).1, 576) else (shRow s c x j, shRowBytes x.words)
  soft.foldl (fun t b => match placeOf t b with
    | .dram st _ => if overlaps (b / 64 * 64) 64 a n && !badBlock t (b / 64) then ceFound t st (b / 64 * 64) else t
    | _ => t) s

/-- Parts of a transfer from `j` on, one by one until one waits: each is checked, moved and acknowledged (R183, R265), the first begins the commit, the last completes the operation. A part that fails aborts it; what it has already written remains. -/
def moveParts (c : Nat) (x : Slot) (soft : List Nat) : Nat → Nat → State → State
  | 0, _, s => finishShuttle s c x (shTotal x.words)
  | n + 1, j, s =>
    match movePart (fresh s) c (coreLoom s c) x j with
    | (t, some e) => (workUnit s (opAccessErr t c x e)).1
    | (t, none) =>
      let u := noteSoft (if j = 0 then beginCommit t c x else t) c x soft j
      match workUnit s (updSlot u c x.idx fun y => { y with pos := j + 1 }) with
      | (v, true) => moveParts c x soft n (j + 1) v
      | (v, false) => v

/-- Whether a transfer touches a host segment that does not translate (R281): every segment is checked before any byte moves. -/
def hostShut (s : State) (c : Nat) (x : Slot) : Bool :=
  match placeOf s (shBase s c x) with
  | .hostWin o => !hostOk s o (shMemSpan x.words)
  | _ => false

/-- One step of a LOAD or STORE whose check passes (R181-R184); none when it can only wait. -/
def memMove (s : State) (c : Nat) (soft : List Nat) (x : Slot) : Option State :=
  if x.pos = 0 && !shAllowed s c x then none
  else if x.pos = 0 && hostShut s c x then some (opAccessErr s c x ⟨4, some 0x10, shBase s c x⟩)
  else
    let t := moveParts c x soft (shParts x.words - x.pos) x.pos s
    if t = s then none else some t

/-- SHUTTLE LOAD (R181, R184, R285). -/
def execShuttleLoad (r : LoadRead) (s : State) : Out :=
  effect (posting fun s => firstStep s (memMove s r.core r.soft) (shuttles s r.core 0)) s

/-- SHUTTLE STORE (R183, R184). -/
def execShuttleStore (c : CoreId) (s : State) : Out :=
  effect (posting fun s => firstStep s (memMove s c []) (shuttles s c 1)) s

/-- ACCESS_FAULT (R182): a LOAD or STORE whose check fails aborts before any byte moves. -/
def execAccessFault (c : CoreId) (s : State) : Out :=
  effect (posting fun s =>
    firstStep s (fun x =>
      if x.pos = 0 && !x.committing && !shAllowed s c x then some (opAccessErr s c x ⟨3, none, shBase s c x⟩) else none)
      ((coreOf s c).slots.filter fun x => x.issued && (isShuttle 0 x.words || isShuttle 1 x.words))) s

-- ## SEND and RECV (R186, R187)

/-- Bytes `[pos, pos + n)` of a block's byte stream, row after row. -/
def blockBytes (s : State) (c : Nat) (ws : List Word32) (pos n : Nat) : List Byte :=
  let rb := shRowBytes ws
  (List.range n).map fun i => cget s.mem (spAddr c (shSpRow ws ((pos + i) / rb) + (pos + i) % rb))

/-- Bytes written into a block's byte stream from `pos` on. -/
def blockWrite (s : State) (c : Nat) (ws : List Word32) (pos : Nat) (bs : List Byte) : State :=
  let rb := shRowBytes ws
  (List.range bs.length).foldl (fun t i =>
    { t with mem := cput t.mem (spAddr c (shSpRow ws ((pos + i) / rb) + (pos + i) % rb)) (bs.getD i 0) }) s

/-- The port an operation produces into, if any (R186): a SEND, a RECV's forwarding, a MATMUL's port commit. -/
def outPort (s : State) (c : Nat) (ws : List Word32) : Option Nat :=
  if isShuttle 2 ws then portDir s c (wfld ws 5 8 6)
  else if isShuttle 3 ws && decide (wfld ws 5 9 9 = 1) then portDir s c (wfld ws 5 12 10)
  else if (opcode ws = 0x01 ∨ opcode ws = 0x02) ∧ mDst ws = 1 then some (wfld ws 6 11 10)
  else none

/-- Whether another operation is in the middle of a producing transfer on a port: transfers do not mix (R186). -/
def portTaken (s : State) (c d i : Nat) : Bool :=
  (coreOf s c).slots.any fun y => y.issued && decide (y.idx ≠ i) && decide (0 < y.pos) && y.committing && decide (outPort s c y.words = some d)

/-- A producing step of `bs` on port `d` at stream position `pos`. -/
def produceBytes (s : State) (c d pos : Nat) (bs : List Byte) (last : Bool) : State := sendBytes c d (bs.length / 2048 + 2) s pos bs last

/-- A transfer of block bytes from scratchpad to a port (R186, R187): as much as the credits allow; none when it can only wait. -/
def sendStep (s : State) (c : Nat) (x : Slot) (port : Option Nat) : Option State :=
  let n := shTotal x.words
  match port with
  | none => some (opFinish s c x)
  | some d =>
    let k := min (n - x.pos) (sendRoom s c d x.pos)
    if k = 0 || portTaken s c d x.idx then none
    else
      let last := decide (x.pos + k = n)
      let t := produceBytes s c d x.pos (blockBytes s c x.words x.pos k) last
      let u := updSlot (if x.committing then t else beginCommit t c x) c x.idx fun y => { y with pos := x.pos + k }
      some (if last then finishShuttle u c x n else u)

/-- SHUTTLE SEND (R183, R186, R187). -/
def execShuttleSend (c : CoreId) (s : State) : Out :=
  effect (fun s => firstStep s (fun x => sendStep s c x (portDir s c (wfld x.words 5 8 6))) (shuttles s c 2)) s

/-- Whether a RECV that issued earlier takes the next bytes of the same port (R186). -/
def recvBefore (s : State) (c d i : Nat) : Bool :=
  ((coreOf s c).slots.find? fun y => y.issued && isShuttle 3 y.words && decide (portDir s c (wfld y.words 5 8 6) = some d)).any
    fun y => decide (y.idx ≠ i)

/-- One step of a RECV (R186, R187): the bytes at hand are taken, written and, with FWD, sent on; none when it can only wait. -/
def recvStep (s : State) (c : Nat) (x : Slot) : Option State :=
  let ws := x.words
  let n := shTotal ws
  let fwd := decide (wfld ws 5 9 9 = 1)
  let out := if fwd then portDir s c (wfld ws 5 12 10) else none
  match portDir s c (wfld ws 5 8 6) with
  | none => if fwd then sendStep s c x out else some (opComplete s c x)
  | some d =>
    let have_ := ((rxOf s c d).map List.length).foldl (· + ·) 0
    let room := match out with
      | some p => if portTaken s c p x.idx then 0 else sendRoom s c p x.pos
      | none => n
    let k := min (min (n - x.pos) have_) room
    if k = 0 || recvBefore s c d x.idx then none
    else
      let bs := ((rxOf s c d).flatMap id).take k
      let last := decide (x.pos + k = n)
      let t := consumeRx (blockWrite s c ws x.pos bs) c d k
      let t1 := match out with
        | some p => produceBytes t c p x.pos bs last
        | none => t
      let u := updSlot (if x.committing then t1 else beginCommit t1 c x) c x.idx fun y => { y with pos := x.pos + k }
      some (if last then finishShuttle u c x n else u)

/-- SHUTTLE RECV (R186, R187). -/
def execShuttleRecv (c : CoreId) (s : State) : Out := effect (fun s => firstStep s (recvStep s c) (shuttles s c 3)) s

/-- Number of a direction (R186). -/
def dirNum : Dir → Nat
  | .north => 0
  | .east => 1
  | .south => 2
  | .west => 3

/-- PORT_CREDIT_RETURN (R186): a credit that core `c` owes for its port goes back to the sender. -/
def execPortCreditReturn (c : CoreId) (d : Dir) (s : State) : Out :=
  effect (fun s =>
    let p := dirNum d
    let k := coreOf s c
    let n := tget 0 k.owe p
    match neighbour c p with
    | none => s
    | some m =>
      if n = 0 then s
      else
        let t := setCore s c { k with owe := tput k.owe p (n - 1) }
        wrF t (portKey m (facing p)) 5 0 (min 32 (txCredits s m (facing p) + 1))) s

end Sys2Proof.Machine
end

