-- ==== Sys2Proof/Machine/Matrix.lean ====
section
/-! DEFINITION. MATMUL and CONV (R30-R34, R48-R109): operand values, passes into the accumulator banks, the epilogue into staging, the commit, and array parity faults. -/

namespace Sys2Proof.Machine

-- ## Stored elements and masks (R70, R74, R75, R97-R101, R104)

/-- Bits of element `col` of row `row` of a packed array in scratchpad, rows of `n` elements (R28, R70). -/
def spElem (s : State) (c base fmt n row col : Nat) : Nat :=
  let b := elemBits fmt
  let sh := col * b % 8
  leNat (spRd s c (base + row * rowBytes fmt n + col * b / 8) (cdiv (sh + b) 8)) / 2 ^ sh % 2 ^ b

/-- One scratchpad byte as a number. -/
def spByte (s : State) (c a : Nat) : Nat := (cget s.mem (spAddr c a)).toNat

/-- Signed 32-bit number of four bytes. -/
def int32 (bs : List Byte) : Int := signed 32 (leNat bs)

/-- COUNT adjusted to `cap`, and whether it was (R74). -/
def adjCount (n : Int) (cap : Nat) : Nat × Bool :=
  if n < 0 then (0, true) else if (cap : Int) < n then (cap, true) else (n.toNat, false)

/-- Bit `i` of the bitmap at byte `o` of what the operation read at issue (R97, R98). -/
def gotBit (x : Slot) (o i : Nat) : Bool := wfld x.words 6 12 12 = 0 || bitOf (byteAt x.got (4 + o + i / 8)) (i % 8)

/-- Effective COUNT of a gather, M_VALID otherwise. -/
def mCount (x : Slot) : Nat × Bool := if mGather x.words then adjCount (int32 (x.got.take 4)) (mM x.words) else (mM x.words, false)

/-- Whether row `m` is streamed (R74, R98). -/
def rowOn (x : Slot) (m : Nat) : Bool := decide (m < mM x.words) && decide (m < (mCount x).1) && gotBit x 0 m

/-- Whether column `n` is valid by its extent and bitmap (R98). -/
def colBit (x : Slot) (n : Nat) : Bool := decide (n < mN x.words) && gotBit x 512 n

/-- Whether column `n` is valid; an MX output decides it by whole blocks (R98, R100). -/
def colOn (x : Slot) (n : Nat) : Bool :=
  if isMx (mOutFmt x.words) then (List.range 32).all fun i => colBit x (n / 32 * 32 + i) else colBit x n

/-- Whether K position `k` is valid (R98). -/
def kOn (x : Slot) (k : Nat) : Bool := decide (k < mK x.words) && gotBit x 1024 k

/-- Streamed rows, in increasing order. -/
def rowsOn (x : Slot) : List Nat := (List.range (mM x.words)).filter (rowOn x)

/-- Valid columns of output tile `t`. -/
def tileCols (x : Slot) (t : Nat) : List Nat := ((List.range 128).map (128 * t + ·)).filter (colOn x)

/-- K-tiles that run a pass: those with a valid position (R99). -/
def liveKTiles (x : Slot) : List Nat := (List.range (mKT x.words)).filter fun q => (List.range 128).any fun i => kOn x (128 * q + i)

/-- K-tiles whose passes output tile `t` runs: none when its columns are all masked or a gather is empty (R76, R99). -/
def tilePasses (x : Slot) (t : Nat) : List Nat :=
  if (tileCols x t).isEmpty || (mGather x.words && decide ((mCount x).1 = 0)) then [] else liveKTiles x

/-- Index entry of logical row `m` (R74). -/
def idxOf (x : Slot) (m : Nat) : Int := int32 ((x.ents.drop (4 * m)).take 4)

/-- The row an index entry names, when it lies in IDX_RANGE (R75). -/
def idxRow (x : Slot) (m : Nat) : Option Nat :=
  let i := idxOf x m
  if 0 ≤ i ∧ i < mRange x.words then some i.toNat else none

/-- Whether a gather raises GATHER_RANGE: an adjusted COUNT, or an entry beyond range that is not −1 (R74, R75). -/
def gatherRange (x : Slot) : Bool :=
  mGather x.words && ((mCount x).2 || (rowsOn x).any fun m => (idxRow x m).isNone && decide (idxOf x m ≠ -1))

/-- An operation as it begins on the array: a gather's entries are read, once, and what they say of GATHER_RANGE is kept (R74, R75, R77; DESIGN CHOICE, log entry 45). -/
def openSlot (s : State) (c : Nat) (x : Slot) : Slot :=
  if mGather x.words then
    let y := { x with ents := spRd s c (spAt x.words 12 + 128) (4 * mM x.words) }
    { y with grange := gatherRange y }
  else x

/-- Input coordinate of an axis for output coordinate `o` and kernel coordinate `q`, if the tap is real (R104). -/
def convIn (w : WinRec) (a o q : Nat) : Option Nat :=
  if w.transposed then
    let v : Int := o + ax w.padLo a - q * ax w.dil a
    if v < 0 ∨ v % ax w.str a ≠ 0 then none
    else
      let i := v.toNat / ax w.str a
      if i < ax w.inE a then some i else none
  else
    let v : Int := o * ax w.str a + q * ax w.dil a - ax w.padLo a
    if v < 0 ∨ (ax w.inE a : Int) ≤ v then none else some v.toNat

/-- Linear input position that tap `t` of output position `p` reads; none for a zero segment (R104). -/
def convPos (w : WinRec) (p t : Nat) : Option Nat :=
  let oh := ax w.outE 1
  let ow := ax w.outE 2
  let kh := ax w.ker 1
  let kw := ax w.ker 2
  match convIn w 0 (p / (oh * ow)) (t / (kh * kw)), convIn w 1 (p / ow % oh) (t / kw % kh), convIn w 2 (p % ow) (t % kw) with
  | some d, some h, some v => some ((d * ax w.inE 1 + h) * ax w.inE 2 + v)
  | _, _, _ => none

/-- Element bits and scale code at channel `ch` of block `b` and position `p` of a convolution input (R101). -/
def convElem (s : State) (c base scales fmt : Nat) (w : WinRec) (b p ch : Nat) : Nat × Nat :=
  let es := elemBits fmt / 8
  (leNat (spRd s c (base + b * w.cbStride + p * w.posStride + ch * es) es),
   if isMx fmt then spByte s c (scales + b * (w.cbStride / 32) + p * (w.posStride / 32)) else 127)

/-- Element bits and scale code of A at logical row `m`, whose stored row is `src`, and position `k`; a zero row or zero segment holds +0 with scale 2^0 (R70, R75, R104). -/
def aElem (s : State) (c : Nat) (x : Slot) (w : WinRec) (src : Option Nat) (m k : Nat) : Nat × Nat :=
  let ws := x.words
  let f := mAFmt ws
  let sc := fun a => if isMx f then spByte s c (spAt ws 10 + a) else 127
  if isConv ws then
    match convPos w (w.oStart + m) (k / w.cb / w.cbCnt) with
    | some p => convElem s c (spAt ws 8) (spAt ws 10) f w (w.cb0 + k / w.cb % w.cbCnt) p (k % w.cb)
    | none => (0, 127)
  else if mPro ws = 1 then (spElem s c (spAt ws 8) f (mMT ws * 128) k m, sc (k / 32 * (mMT ws * 128) + m))
  else match src with
    | some r => (spElem s c (spAt ws 8) f (mKT ws * 128) r k, sc (r * (mKT ws * 4) + k / 32))
    | none => (0, 127)

/-- Element bits and scale code of B at position `k` and column `n` (R70, R72). -/
def bElem (s : State) (c : Nat) (x : Slot) (k n : Nat) : Nat × Nat :=
  let ws := x.words
  let f := mBFmt ws
  let sc := fun a => if isMx f then spByte s c (spAt ws 11 + a) else 127
  if wfld ws 6 2 2 = 1 then (spElem s c (spAt ws 9) f (mKT ws * 128) n k, sc (n * (mKT ws * 4) + k / 32))
  else (spElem s c (spAt ws 9) f (mNT ws * 128) k n, sc (k / 32 * (mNT ws * 128) + n))

-- ## Terms and chains (R30-R34, R60, R61)

/-- The exact term of a summing mode (R30). -/
def sumTerm (mode : Nat) (a b : FVal) : FM FVal := do
  if mode = 0 then mulTerm a b
  else
    let d ← addTerm a (fNeg b)
    if mode = 1 then pure (fAbs d) else mulTerm d d

/-- One chain of terms from `z` on, one rounding per add (R31). -/
def chainSum (z : FVal) (ts : List (FM FVal)) : FM FVal := ts.foldlM (fun a t => do fAdd {} a (← t)) z

/-- Scale of an MX segment product; NaN when a scale is NaN (R32). -/
def segScale (p : FVal) (sa sb : Nat) : FM FVal :=
  if sa = 255 ∨ sb = 255 then do raiseFp fNanIn; pure .nan else scalePow2 p ((sa : Int) + sb - 254)

/-- The selection of MINPLUS and MAXPLUS among exact terms (R30): lowest k on ties, NaN first. -/
def pickTerm (mx : Bool) (b : Option (FVal × Nat)) (t : FVal × Nat) : Option (FVal × Nat) :=
  match b with
  | none => some t
  | some y =>
    if isNan y.1 then b
    else if isNan t.1 then some t
    else if (if mx then decide (0 < fCmp t.1 y.1) else decide (fCmp t.1 y.1 < 0)) then some t else b

/-- An operand pair at one K position: element bits and scale codes of A and B. -/
abbrev Pair := (Nat × Nat) × (Nat × Nat)

/-- An element's value, NAN_IN noted (R43). -/
def operand (fmt w : Nat) : FM FVal := noteNan (decElem fmt w)

/-- An element with its own scale, as the distance modes take it (R30). -/
def scaledOperand (fmt : Nat) (e : Nat × Nat) : FM FVal := noteNan (if isMx fmt then withScale (decElem fmt e.1) e.2 else decElem fmt e.1)

/-- The 128 positions of a K-tile: operands where the position is valid. -/
abbrev KTile := List (Option Pair)

/-- A K-tile's sum in a summing mode, MUL on MX operands apart (R31, R60). -/
def tileSum (mode fa fb : Nat) (ks : KTile) : FM FVal :=
  chainSum fZero (ks.map fun p => match p with
    | none => pure fZero
    | some (a, b) => do sumTerm mode (← scaledOperand fa a) (← scaledOperand fb b))

/-- One segment of MUL on MX operands: its chain and its scaling (R32, R99). -/
def segSum (fa fb : Nat) (ks : KTile) : FM FVal := do
  let p ← chainSum fZero (ks.map fun p => match p with
    | none => pure fZero
    | some (a, b) => do mulTerm (← operand fa a.1) (← operand fb b.1))
  match ks.findSome? id with
  | none => scalePow2 p 0
  | some (a, b) => segScale p a.2 b.2

/-- A K-tile's sum for MUL on MX operands (R32). -/
def tileMx (fa fb : Nat) (ks : KTile) : FM FVal := chainSum fZero ((pieces 32 5 ks).map (segSum fa fb))

/-- A K-tile's selected term and its position within the operation, rounded once (R30, R61). -/
def tileSel (mx : Bool) (fa fb k0 : Nat) (ks : KTile) : FM (FVal × Int) := do
  let ts ← ((List.range ks.length).zip ks).filterMapM fun p => match p.2 with
    | none => pure none
    | some (a, b) => do
      let t ← addTerm (← scaledOperand fa a) (← scaledOperand fb b)
      pure (some (t, k0 + p.1))
  match ts.foldl (pickTerm mx) none with
  | none => pure (.inf mx, -1)
  | some (v, k) => pure (← roundTo fp32 {} v, k)

/-- A K-tile's integer sum (R33). -/
def tileInt (fa fb : Nat) (ks : KTile) : Int :=
  ks.foldl (fun s p => match p with
    | none => s
    | some (a, b) => s + decInt fa a.1 * decInt fb b.1) 0

/-- Accumulator bits of an element, and its index bits with ARGIDX. -/
abbrev AccVal := Nat × Nat

/-- A tile's contribution combined with the bank (R31-R33, R61): `old` is none for the first K-tile. -/
def combineTile (mode fa fb k0 : Nat) (ks : KTile) (old : Option AccVal) : FM AccVal := do
  if isInt fa then
    let v := tileInt fa fb ks
    let o := match old with
      | some y => signed 32 y.1
      | none => 0
    pure (encInt 0xB (v + o), 0)
  else if mode = 3 ∨ mode = 4 then
    let (v, k) ← tileSel (decide (mode = 4)) fa fb k0 ks
    let new : AccVal := (encFloat 0 v, encInt 0xB k)
    match old with
    | none => pure new
    | some y =>
      let o := decFloat 0 y.1
      if isNan o then pure y
      else if isNan v || (if mode = 4 then decide (0 < fCmp v o) else decide (fCmp v o < 0)) then pure new
      else pure y
  else
    let v ← if isMx fa && decide (mode = 0) then tileMx fa fb ks else tileSum mode fa fb ks
    match old with
    | none => pure (encFloat 0 v, 0)
    | some y => do
      let r ← fAdd {} (decFloat 0 y.1) v
      pure (encFloat 0 r, 0)

/-- The accumulator value of a tile that ran no pass (R60, R99). -/
def emptyAcc (ws : List Word32) : AccVal :=
  if isInt (mAFmt ws) then (0, 0)
  else if wfld ws 5 2 0 = 3 then (encFloat 0 (.inf false), encInt 0xB (-1))
  else if wfld ws 5 2 0 = 4 then (encFloat 0 (.inf true), encInt 0xB (-1))
  else (0, 0)

-- ## Passes (R52-R58)

/-- An accumulator word. -/
def accRd (s : State) (c : Nat) (bank : Bool) (row col : Nat) : Nat := leNat (memRd s (accAddr c bank row col) 4)

/-- An accumulator word written. -/
def accWr (s : State) (c : Nat) (bank : Bool) (row col v : Nat) : State := memWr s (accAddr c bank row col) (toLe 4 v)

/-- Adds flags to an operation. -/
def opFlags (s : State) (c i : Nat) (f : BitVec 6) : State :=
  if f = 0 then s else updSlot s c i fun y => { y with flags := y.flags ||| f }

/-- One element of a pass: K-tile `q` of row `m` and column `n` into the bank (R31-R33, R55, R61). -/
def passElem (s : State) (c : Nat) (x : Slot) (w : WinRec) (bank first : Bool) (q m : Nat) (src : Option Nat) (n : Nat) : State :=
  let ws := x.words
  let ks : KTile := (List.range 128).map fun i =>
    let k := 128 * q + i
    if kOn x k then some (aElem s c x w src m k, bElem s c x k n) else none
  let col := n % 128
  let old : Option AccVal := if first then none
    else some (accRd s c bank m col, if mArgIdx ws then accRd s c bank (2048 + m) col else 0)
  let (v, f) := runFM (combineTile (wfld ws 5 2 0) (mAFmt ws) (mBFmt ws) (128 * q) ks old)
  let s1 := accWr s c bank m col v.1
  opFlags (if mArgIdx ws then accWr s1 c bank (2048 + m) col v.2 else s1) c x.idx f

/-- Streaming cycles that CORE_ARRAY_STREAM_CNT counts for `n` rows (R53, R69). -/
def streamCycles (ws : List Word32) (n : Nat) : Nat :=
  let g := fmtGroup (mAFmt ws)
  if g = 3 then cdiv n 2 else if g = 4 then 2 * n else n

/-- One pass (R50-R55): 128 load words, then every streamed row, into a bank. -/
def runPass (s : State) (c : Nat) (x : Slot) (w : WinRec) (t q : Nat) (bank first : Bool) : State :=
  let rows := rowsOn x
  let cols := tileCols x t
  let s1 := addCnt (addCnt s (coreKey c 0x1D0) 128) (coreKey c 0x1CC) (streamCycles x.words rows.length)
  rows.foldl (fun u m =>
    let src := if mGather x.words then idxRow x m else some m
    cols.foldl (fun v n => passElem v c x w bank first q m src n) u) s1

/-- Whether a bank holds a tile. -/
def bankHeld (k : Core) (b : Bool) : Bool := if b then k.bankBusy.2 else k.bankBusy.1

/-- A bank taken or released. -/
def setBank (k : Core) (b v : Bool) : Core :=
  { k with bankBusy := if b then (k.bankBusy.1, v) else (v, k.bankBusy.2) }

/-- The issued matrix operations of a core that have not begun their commit, each with its run. -/
def openMats (s : State) (c : Nat) : List (Slot × ArrayRun) :=
  if s.board.thermTrip then []
  else ((coreOf s c).slots.filter fun x => x.issued && !x.committing && !heldBack s c x && (decide (opcode x.words = 0x01) || decide (opcode x.words = 0x02))).map
    fun x => (x, arrRun (coreOf s c) x.idx)

/-- The matrix operation whose pass is next, and its run: the one in the middle of a tile, else a main-window one, else a deferred one (R56, R177). -/
def arrayOp (s : State) (c : Nat) : Option (Slot × ArrayRun) :=
  let xs := (openMats s c).filter fun p => decide (p.2.tile < mNT p.1.words)
  match xs.find? fun p => decide (0 < p.2.pass) with
  | some p => some p
  | none => match xs.find? fun p => isMain p.1 with
    | some p => some p
    | none => xs.head?

/-- A run kept. -/
def setArrRun (k : Core) (a : ArrayRun) : Core :=
  { k with arr := if k.arr.any (fun y => decide (y.op = a.op)) then k.arr.map (fun y => if y.op = a.op then a else y) else k.arr ++ [a] }

/-- The window record of a core's operation. -/
def opWin (s : State) (c : Nat) (x : Slot) : WinRec :=
  match coreBolt s c with
  | some (_, b) => winRec s b x.words
  | none => winRecOf []

/-- The operation's slot and state as its first step on the array leaves them. -/
def beginRun (s : State) (c : Nat) (x : Slot) : State × Slot :=
  if (coreOf s c).arr.any (fun a => decide (a.op = x.idx)) then (s, x)
  else
    let y := openSlot s c x
    (updSlot s c x.idx fun _ => y, y)

/-- One pass of the current output tile, or a tile without passes handed to the epilogue (R54-R57, R99); none when the bank is still held or no tile is left. -/
def passStep (s : State) (c : Nat) (x : Slot) (a : ArrayRun) : Option State :=
  let ps := tilePasses x a.tile
  if mNT x.words ≤ a.tile then none
  else if ps.isEmpty then
    let k := coreOf (beginRun s c x).1 c
    some (setCore (beginRun s c x).1 c { setArrRun k { a with tile := a.tile + 1, pass := 0 } with epiQ := k.epiQ ++ [(a.op, a.tile, none)] })
  else
    let bank := if a.pass = 0 then (coreOf s c).nextBank else a.bank
    if decide (a.pass = 0) && bankHeld (coreOf s c) bank then none
    else
      let (s1, y) := beginRun s c x
      let k := coreOf s1 c
      let k1 := if a.pass = 0 then { setBank k bank true with nextBank := !bank } else k
      let last := decide (a.pass + 1 = ps.length)
      let a1 := { a with bank := bank, pass := if last then 0 else a.pass + 1, tile := if last then a.tile + 1 else a.tile }
      let k2 := { setArrRun k1 a1 with epiQ := if last then k1.epiQ ++ [(a.op, a.tile, some bank)] else k1.epiQ }
      some (runPass (setCore s1 c k2) c y (opWin s c x) a.tile (ps.getD a.pass 0) bank (decide (a.pass = 0)))

-- ## The epilogue (R57, R78-R84)

/-- Accumulator value of an element. -/
def tileAcc (s : State) (c : Nat) (ws : List Word32) (bank : Option Bool) (m col : Nat) : AccVal :=
  match bank with
  | none => emptyAcc ws
  | some b => (accRd s c b m col, if mArgIdx ws then accRd s c b (2048 + m) col else 0)

/-- Residual element of row `m` and column `n` (R78, R81). -/
def residual (s : State) (c : Nat) (x : Slot) (m n : Nat) : FM FVal :=
  let ws := x.words
  let row := if wfld ws 6 5 5 = 1 then idxRow x m else some m
  match row with
  | some r => operand (mResFmt ws) (spElem s c (spAt ws 13) (mResFmt ws) (mNT ws * 128) r n)
  | none => pure fZero

/-- The stage value of an element (R78-R80). -/
def stageVal (s : State) (c : Nat) (x : Slot) (acc m n : Nat) : FM FVal := do
  let ws := x.words
  if isInt (mAFmt ws) then pure (ofInt (signed 32 acc))
  else
    let a := decFloat 0 acc
    if mResMode ws = 1 then fAdd {} a (← residual s c x m n)
    else if mResMode ws = 2 then
      let t ← convFloat 1 {} a
      convFloat 1 {} (← addTerm t (← residual s c x m n))
    else pure a

/-- Rounding controls of staging element (m, n) (R39, R40, R78). -/
def matCtl (ws : List Word32) (m n : Nat) : RCtl := outCtl (mNum ws) (ws.getD 7 0).toNat (mNT ws * 128) m n

/-- Staging address of row `m`, element bit offset of column `n`. -/
def convStage (ws : List Word32) (m n : Nat) : Nat := spAt ws 14 + m * mRow ws + n * elemBits (mOutFmt ws) / 8

/-- Staging address of the auxiliary row of row `m` (R70). -/
def stageAux (ws : List Word32) (m : Nat) : Nat := spAt ws 14 + mMT ws * 128 * mRow ws + m * mAuxRow ws

/-- One element that is not MX, through residual and conversion, into staging. -/
def epiElem (s : State) (c : Nat) (x : Slot) (bank : Option Bool) (m n : Nat) : State :=
  let ws := x.words
  let a := tileAcc s c ws bank m (n % 128)
  let (v, f) := runFM (do storeElem (mOutFmt ws) (matCtl ws m n) (← stageVal s c x a.1 m n))
  let s1 := spWr s c (convStage ws m n) (toLe (elemBits (mOutFmt ws) / 8) v)
  opFlags (if mArgIdx ws then spWr s1 c (stageAux ws m + 4 * n) (toLe 4 a.2) else s1) c x.idx f

/-- One MX block from column `n` on into staging (R42, R100). -/
def epiBlock (s : State) (c : Nat) (x : Slot) (bank : Option Bool) (m n : Nat) : State :=
  let ws := x.words
  let (r, f) := runFM (do
    let vs ← (List.range 32).mapM fun i => stageVal s c x (tileAcc s c ws bank m ((n + i) % 128)).1 m (n + i)
    storeRow (mOutFmt ws) (fun i => matCtl ws m (n + i)) vs)
  opFlags (spWr (spWr s c (convStage ws m n) r.1) c (stageAux ws m + n / 32) r.2) c x.idx f

/-- Units in which columns are written: single columns, or the first columns of MX blocks. -/
def colUnits (x : Slot) (t : Nat) : List Nat :=
  let cs := tileCols x t
  if isMx (mOutFmt x.words) then cs.filter fun n => decide (n % 32 = 0) else cs

/-- The epilogue of output tile `t` (R57, R78): every streamed row in increasing order. -/
def runEpilogue (s : State) (c : Nat) (x : Slot) (t : Nat) (bank : Option Bool) : State :=
  (rowsOn x).foldl (fun u m => (colUnits x t).foldl (fun v n =>
    if isMx (mOutFmt x.words) then epiBlock v c x bank m n else epiElem v c x bank m n) u) s

/-- The oldest tile whose last pass has written its bank: its operation, tile, bank and what follows it (R57). -/
def epiOp (s : State) (c : Nat) : Option (Slot × Nat × Option Bool × List (Nat × Nat × Option Bool)) :=
  match (coreOf s c).epiQ with
  | [] => none
  | (i, t, bank) :: r => if s.board.thermTrip then none else ((coreOf s c).slots.find? fun x => decide (x.idx = i)).map fun x => (x, t, bank, r)

/-- The epilogue of the oldest finished tile; it releases the bank (R57). -/
def epilogueStep (s : State) (c : Nat) : Option State :=
  match epiOp s c with
  | none => none
  | some (x, t, bank, r) =>
    let u := runEpilogue s c x t bank
    let k := coreOf u c
    let k1 := match bank with
      | some b => setBank k b false
      | none => k
    some (setCore u c { k1 with epiQ := r })

-- ## The commit (R82-R89)

/-- Bytes of one column unit. -/
def unitBytes (ws : List Word32) : Nat := if isMx (mOutFmt ws) then 32 * elemBits (mOutFmt ws) / 8 else elemBits (mOutFmt ws) / 8

/-- Every column unit of the operation that is written. -/
def allUnits (x : Slot) : List Nat := (List.range (mNT x.words)).flatMap (colUnits x)

/-- The destination row of staging row `m` (R82). -/
def destRow (x : Slot) (m : Nat) : Option Nat := if mWMode x.words = 1 then idxRow x m else some m

/-- The auxiliary bytes of staging row `m` written to row `r` of the array at AUX_ADDR. -/
def commitAux (s : State) (c : Nat) (x : Slot) (m r : Nat) : State :=
  let ws := x.words
  if mAuxRow ws = 0 then s
  else (allUnits x).foldl (fun u n =>
    let (o, k) := if isMx (mOutFmt ws) then (n / 32, 1) else (4 * n, 4)
    spWr u c (mAux ws + r * mAuxRow ws + o) (spRd u c (stageAux ws m + o) k)) s

/-- Staging row `m` copied to its destination row (R82, R83). -/
def commitRow (s : State) (c : Nat) (x : Slot) (m : Nat) : State :=
  let ws := x.words
  match destRow x m with
  | none => s
  | some r =>
    let u := (allUnits x).foldl (fun u n =>
      spWr u c (spAt ws 15 + r * mRow ws + n * elemBits (mOutFmt ws) / 8) (spRd u c (convStage ws m n) (unitBytes ws))) s
    commitAux u c x m r

/-- Streamed rows of 128-row block `b`. -/
def blockRows (x : Slot) (b : Nat) : List Nat := (rowsOn x).filter fun m => decide (m / 128 = b)

/-- Presence headers of the output array's 512-byte blocks that the rows `ms` touch, as they stand once those rows are written (R86): no block spans two 128-row commit blocks. -/
def outHeaders (s : State) (c : Nat) (x : Slot) (ms : List Nat) : State :=
  let ws := x.words
  let e := elemBits (mOutFmt ws) / 8
  let touched := ms.foldl (fun t m => (allUnits x).foldl (fun t n => insNat ((m * mRow ws + n * e) / 512) t) t) []
  touched.foldl (fun u j => spWr u c (mAux ws + 64 * j) (slotHeader e (spRd u c (spAt ws 15 + 512 * j) 512))) s

/-- One row as a port commit sends it: masked columns are zero bytes (R87). -/
def portRow (s : State) (c : Nat) (x : Slot) (m : Nat) : List Byte :=
  let ws := x.words
  (allUnits x).foldl (fun l n => patch l (n * elemBits (mOutFmt ws) / 8) (spRd s c (convStage ws m n) (unitBytes ws)))
    (List.replicate (mRow ws) 0)

/-- The byte stream of a port commit (R87). -/
def portStream (s : State) (c : Nat) (x : Slot) : List Byte := (rowsOn x).flatMap (portRow s c x)

/-- Numbers of the `w`-byte pieces of a stream of `n` bytes whose last byte lies in `[pos, pos + k)`. -/
def piecesSent (w n pos k : Nat) : List Nat :=
  (List.range (cdiv n w)).filter fun j => decide (pos < min (w * (j + 1)) n) && decide (min (w * (j + 1)) n ≤ pos + k)

/-- What accompanies bytes `[pos, pos + k)` of a port commit's stream into scratchpad (R86, R87): the headers of the 512-byte blocks, or the auxiliary rows of the rows, that these bytes complete. The auxiliary row of staging row m is row m of its array, under INDEXED too (DESIGN CHOICE, log entry 46). -/
def portAux (s : State) (c : Nat) (x : Slot) (bs : List Byte) (pos k : Nat) : State :=
  let ws := x.words
  let e := elemBits (mOutFmt ws) / 8
  let rows := rowsOn x
  if mWMode ws = 2 then
    (piecesSent 512 bs.length pos k).foldl (fun u j => spWr u c (mAux ws + 64 * j) (slotHeader e (slice bs (512 * j) 512))) s
  else (piecesSent (mRow ws) bs.length pos k).foldl (fun u j => let m := rows.getD j 0; commitAux u c x m m) s

/-- A matrix operation completes: its flags and GATHER_RANGE are contributed (R44, R77). -/
def matFinish (s : State) (c : Nat) (x : Slot) : State :=
  let y := ((coreOf s c).slots.find? fun y => decide (y.idx = x.idx)).getD x
  let s1 := addFlags s c y.flags
  let s2 := if y.grange then addFlagBit (wrB s1 (coreKey c 0x184) 0 true) c 6 else s1
  opComplete s2 c x

/-- Whether the last tile of an operation has passed its epilogue (R66, R87). -/
def stagedAll (k : Core) (x : Slot) (a : ArrayRun) : Bool := decide (mNT x.words ≤ a.tile) && !k.epiQ.any fun p => decide (p.1 = x.idx)

/-- The commit begins: the operation's run is over (R66, R87). -/
def startCommit (s : State) (c : Nat) (x : Slot) : State :=
  let t := beginCommit s c x
  setCore t c (offArray (coreOf t c) x.idx)

/-- One 128-row block delivered to scratchpad with its auxiliary rows and headers (R86); the operation completes with its last (R87). -/
def commitBlock (s : State) (c : Nat) (x : Slot) : State :=
  let t := (blockRows x x.pos).foldl (fun u m => commitRow u c x m) s
  let u := if mWMode x.words = 2 then outHeaders t c x (blockRows x x.pos) else t
  if mMT x.words ≤ x.pos + 1 then matFinish u c x
  else updSlot u c x.idx fun y => { y with pos := x.pos + 1 }

/-- A step of a port commit under credits (R87, R186); none when it can only wait. -/
def commitPort (s : State) (c : Nat) (x : Slot) : Option State :=
  let ws := x.words
  let d := wfld ws 6 11 10
  let bs := portStream s c x
  if bs.isEmpty then some (matFinish s c x)
  else
    let k := min (bs.length - x.pos) (sendRoom s c d x.pos)
    if k = 0 || portTaken s c d x.idx then none
    else
      let s1 := portAux s c x bs x.pos k
      let last := decide (x.pos + k = bs.length)
      let t := produceBytes s1 c d x.pos (slice bs x.pos k) last
      some (if last then matFinish t c x else updSlot t c x.idx fun y => { y with pos := x.pos + k })

/-- The matrix operation of a core whose commit has begun, lowest index first. -/
def committingMat (s : State) (c : Nat) : Option Slot :=
  (coreOf s c).slots.find? fun x => x.issued && x.committing && (decide (opcode x.words = 0x01) || decide (opcode x.words = 0x02))

/-- One step of a commit that has begun, or the start of one (R66, R87, R89). -/
def commitStep (s : State) (c : Nat) : Option State :=
  match committingMat s c with
  | some x => if mDst x.words = 1 then commitPort s c x else some (commitBlock s c x)
  | none =>
    match (openMats s c).find? fun p => stagedAll (coreOf s c) p.1 p.2 with
    | none => none
    | some (x, _) =>
      let t := startCommit s c x
      let y := { x with committing := true }
      some (if mDst x.words = 1 then (commitPort t c y).getD t else commitBlock t c y)

-- ## The rows

/-- One step of a core's matrix work: a commit, else an epilogue, else a pass. -/
def matStep (s : State) (c : Nat) : Option State :=
  match commitStep s c with
  | some t => some t
  | none => match epilogueStep s c with
    | some t => some t
    | none => match arrayOp s c with
      | some (x, a) => passStep s c x a
      | none => none

/-- Steps made until none can be or the operation completes; `i` is the operation. -/
def matLoop (c i : Nat) : Nat → State → State
  | 0, s => s
  | n + 1, s =>
    if (coreOf s c).slots.any fun x => decide (x.idx = i) then
      match matStep s c with
      | some t => matLoop c i n t
      | none => s
    else s

/-- Most steps a core's issued matrix operations can take: passes, epilogues, blocks. -/
def matFuel (k : Core) : Nat :=
  ((k.slots.filter fun x => x.issued && isArrayOp x.words).map fun x => mNT x.words * mKT x.words + 2 * mNT x.words + mMT x.words + 2).foldl (· + ·) 0

/-- The issued matrix operation of an opcode that goes first: the one committing, else the one whose tiles are staged, else the one whose pass is next. -/
def matSlot (s : State) (c o : Nat) : Option Slot :=
  let is := fun (x : Slot) => decide (opcode x.words = o)
  match committingMat s c with
  | some x => if is x then some x else ((openMats s c).map Prod.fst).find? is
  | none => match (arrayOp s c).filter fun p => is p.1 with
    | some p => some p.1
    | none => ((openMats s c).map Prod.fst).find? is

/-- A matrix operation run as far as it goes, when its opcode is `o`. -/
def runMat (s : State) (c o : Nat) : State :=
  match matSlot s c o with
  | some x => matLoop c x.idx (matFuel (coreOf s c)) s
  | none => s

/-- MATMUL (R93). -/
def execMatmul (c : CoreId) (s : State) : Out := effect (fun s => runMat s c 0x01) s

/-- CONV (R102). -/
def execConv (c : CoreId) (s : State) : Out := effect (fun s => runMat s c 0x02) s

/-- ARRAY_PASS (R54): the next pass of the operation that holds the array. -/
def execArrayPass (c : CoreId) (s : State) : Out :=
  effect (fun s => match arrayOp s c with
    | some (x, a) => (passStep s c x a).getD s
    | none => s) s

/-- EPILOGUE (R57): the oldest tile whose last pass has written its bank. -/
def execEpilogue (c : CoreId) (s : State) : Out := effect (fun s => (epilogueStep s c).getD s) s

/-- COMMIT (R87): the next block, or the bytes a port's credits allow. -/
def execCommit (c : CoreId) (s : State) : Out := effect (fun s => (commitStep s c).getD s) s

/-- CORE_ARRAY_ERR and CORE_ARRAY_ERR_LOC of a fault (R69). -/
def arrayErr (s : State) (c : Nat) (acc : Bool) (loc : Nat) : State :=
  let k := coreKey c 0x1C4
  let old := fld (rd s k) 1 0
  let s1 := if old = 0 then wr s (coreKey c 0x1C8) (BitVec.ofNat 32 loc) else wrB s k 2 true
  wrB s1 k (b2n acc) true

/-- Physical columns of a core's logical columns 0-127 (R62): the lowest that no fuse takes out. -/
def arrayCols (s : State) (c : Nat) : List Nat :=
  ((List.range 130).filter fun k => !(tget [] s.fuse.badCols c).contains k).take 128

/-- Whether a matrix operation streams a bank row: one of its rows, or the index row of one (R57, R61). -/
def streamsRow (x : Slot) (row : Nat) : Bool := rowOn x row || (mArgIdx x.words && decide (2048 ≤ row) && rowOn x (row - 2048))

/-- Whether an add or an epilogue still reads an accumulator row (R57, R64): a tile in progress adds into it, a finished tile waits for its epilogue, or an ATTN uses the bank (R152). -/
def accRead (s : State) (c : Nat) (bank : Bool) (row : Nat) : Bool :=
  let k := coreOf s c
  let of := fun i => (k.slots.find? fun x => decide (x.idx = i)).any fun x => streamsRow x row
  k.arr.any (fun a => decide (0 < a.pass) && decide (a.bank = bank) && of a.op) ||
  k.epiQ.any (fun p => decide (p.2.2 = some bank) && of p.1) ||
  (k.attn.any fun a => (k.slots.find? fun x => decide (x.idx = a.op)).any fun x =>
    decide (row % 2048 < aM x.words) && (!bank || decide (row < 2048) || decide (hdRow x.words = 256)))

/-- Whether a pass forms terms from the stationary registers now (R51, R64): the next pass of the array streams a row, or an ATTN runs. -/
def formsTerms (s : State) (c : Nat) : Bool :=
  (coreOf s c).attn.isSome || (arrayOp s c).any fun p => !(tilePasses p.1 p.2.tile).isEmpty && !(rowsOn p.1).isEmpty

/-- Whether the array checks a location (R62, R64, R69): a stationary register of a column in use, while terms form; an element that is still read. -/
def parityAt (s : State) (c : Nat) (acc : Bool) (col : Nat) (bank : Bool) (row : Nat) : Bool :=
  if acc then decide (col < 128) && accRead s c bank row else (arrayCols s c).contains col && formsTerms s c

/-- ARRAY_PARITY_FAULT (R64, R65): a corrupted register or element that the array checks. Both banks are discarded, operations that have not begun their commit abort, the core is retired. One that nothing reads is never found. -/
def execArrayParityFault (c : CoreId) (acc : Bool) (col : BitVec 8) (row : BitVec 7) (bank : Bool) (accRow : BitVec 12) (s : State) : Out :=
  effect (fun s =>
    if !parityAt s c acc col.toNat bank accRow.toNat then s
    else
      let loc := if acc then col.toNat + 2 ^ 15 * b2n bank + 2 ^ 16 * accRow.toNat else col.toNat + 2 ^ 8 * row.toNat
      retireCore (memZero (arrayErr s c acc loc) (accAddr c false 0 0) 0x400000) c .arrayParity) s

end Sys2Proof.Machine
end

