-- ==== Sys2Proof/Machine/Special.lean ====
section
/-! DEFINITION. The special functions (R119-R121): exact and limiting results as R120 lists them; elsewhere a free value held within the bound of R120 by a high-precision computation (log entry 8). -/

namespace Sys2Proof.Machine

-- ## High-precision reals: fixed point with 320 fraction bits

/-- 2^320. -/
def hpOne : Nat := 2 ^ 320

/-- ln 2 × 2^320, cut. -/
def hpLn2 : Nat := 1480553391661173448385607439722553250922680800745876974795605978609098082859138712941075737848984

/-- √(2/π) × 2^320, cut. -/
def hpGelu : Nat := 1704271078036369527640793026491347494927463643304879350637741155034799905963359738391626168040302

/-- 1/√(2π) × 2^320, cut. -/
def hpPhi : Nat := 852135539018184763820396513245673747463731821652439675318870577517399952981679869195813084020151

/-- A finite FP32 value × 2^320, exactly. -/
def hpOf (x : FVal) : Int :=
  match x with
  | .fin s m e => scaledInt s m (e + 320)
  | _ => 0

/-- Σ r^n / n! × 2^320 for r in [0, 1), from term `t` of index `i` on. -/
def hpExpSum (r : Nat) : Nat → Nat → Nat → Nat → Nat
  | 0, _, _, acc => acc
  | f + 1, i, t, acc => hpExpSum r f (i + 1) (t * r / hpOne / i) (acc + t)

/-- e^r × 2^320 for r = `r` / 2^320 in [0, 1). -/
def hpExp01 (r : Nat) : Nat := hpExpSum r 80 1 hpOne 0

/-- e^x as an exact value, for x × 2^320. -/
def hpExp (x : Int) : FVal :=
  let k := x / (hpLn2 : Int)
  .fin false (hpExp01 (x % (hpLn2 : Int)).toNat) (k - 320)

/-- 2^x as an exact value, for x × 2^320. -/
def hpExp2 (x : Int) : FVal :=
  let k := x / (hpOne : Int)
  .fin false (hpExp01 ((x % (hpOne : Int)).toNat * hpLn2 / hpOne)) (k - 320)

/-- Σ t^(2n+1) / (2n+1) × 2^320 from power `p` of odd index `i` on; `t2` is t². -/
def hpAtanhSum (t2 : Int) : Nat → Int → Int → Int → Int
  | 0, _, _, acc => acc
  | f + 1, i, p, acc => hpAtanhSum t2 f (i + 2) (Int.tdiv (p * t2) hpOne) (acc + Int.tdiv p i)

/-- ln of a positive finite value: the significand in [3/4, 3/2). -/
def hpLog (x : FVal) : FVal :=
  match x with
  | .fin _ m e =>
    let l := Nat.log2 m
    let up := decide (3 * 2 ^ l ≤ 2 * m)
    let d := if up then l + 1 else l
    let t : Int := ((m : Int) - 2 ^ d) * hpOne / ((m : Int) + 2 ^ d)
    ofScaled ((e + d) * hpLn2 + 2 * hpAtanhSum (t * t / hpOne) 80 1 t 0) (-320)
  | y => y

/-- Quotient of positive values, cut far below the precision in use. -/
def hpDiv (a b : FVal) : FVal :=
  match a, b with
  | .fin s ma ea, .fin _ mb eb => if mb = 0 then .nan else .fin s (ma * 2 ^ 700 / mb) (ea - eb - 700)
  | _, _ => .nan

/-- 1 / (1 + e^−x), for x × 2^320. -/
def hpLogistic (x : Int) : FVal :=
  if 0 ≤ x then hpDiv fOne (exactAdd fOne (hpExp (-x)))
  else hpDiv (hpExp x) (exactAdd fOne (hpExp x))

/-- tanh x, for |x| × 2^320 and a sign. -/
def hpTanh (neg : Bool) (x : Int) : FVal :=
  let u := hpExp (-(2 * x))
  let r := hpDiv (exactAdd fOne (fNeg u)) (exactAdd fOne u)
  if neg then fNeg r else r

/-- Σ x^(2n+1) / (1·3···(2n+1)) × 2^320 from term `t` of index `i` on; `x2` is x². -/
def hpErfSum (x2 : Nat) : Nat → Nat → Nat → Nat → Nat
  | 0, _, _, acc => acc
  | f + 1, i, t, acc => hpErfSum x2 f (i + 2) (t * x2 / hpOne / i) (acc + t)

/-- Φ(x) for a finite value of magnitude below 15. -/
def hpCdf (x : FVal) : FVal :=
  let h := (hpOf x).natAbs
  let x2 := h * h / hpOne
  let q := exactMul (exactMul (.fin false hpPhi (-320)) (hpExp (-(x2 / 2 : Nat)))) (.fin false (hpErfSum x2 700 3 h 0) (-320))
  exactAdd (.fin false 1 (-1)) (if isNeg x then fNeg q else q)

/-- √(2/π) (x + 0.044715 x³), × 2^320. -/
def hpGeluArg (x : FVal) : Int :=
  let h := hpOf x
  let h3 := h * h / hpOne * h / hpOne
  (h + h3 * 44715 / 1000000) * hpGelu / hpOne

-- ## The functions (R116, R120)

/-- Whether a finite value is at most `n / 10^d`. -/
def leDec (x : FVal) (n : Int) (d : Nat) : Bool := decide (fCmp (exactMul x (.fin false (10 ^ d) 0)) (ofInt n) ≤ 0)

/-- Whether a finite value is below `n / 10^d`. -/
def ltDec (x : FVal) (n : Int) (d : Nat) : Bool := decide (fCmp (exactMul x (.fin false (10 ^ d) 0)) (ofInt n) < 0)

/-- An exact result: only FTZ and its flags can act on it (R36). -/
def exactRes (c : RCtl) (x : FVal) : FM FVal := roundTo fp32 { c with rm := .rne, sat := false } x

/-- A result that is not exact although its value is given: INEXACT, and UNDERFLOW when it is tiny (R41, R43). -/
def inexactRes (c : RCtl) (x : FVal) : FM FVal := do
  raiseFp fInexact
  match x with
  | .fin s m e =>
    if m = 0 || belowNormal fp32 m e then
      raiseFp fUnderflow
      pure (if c.ftz then .fin s 0 0 else x)
    else pure x
  | y => pure y

/-- An overflow to infinity. -/
def overRes : FM FVal := do
  raiseFp (fOverflow ||| fInexact)
  pure (.inf false)

/-- Whether `r` lies within `b` units in the last place of `y` (R120): the unit is that of `y`, 2^−149 in the subnormal range. -/
def withinUlp (b : Nat) (y r : FVal) : Bool :=
  let u : Int := max (floorLog2 y) (-126) - 23
  match r with
  | .fin _ _ _ => decide (fCmp (fAbs (exactAdd r (fNeg y))) (.fin false b u) ≤ 0)
  | _ => false

/-- The free result of function `fn` on `x`, held within `b` units of the exact value `y`: the free value where it lies there, else the nearest one. -/
def freeRes (fn : Nat) (c : RCtl) (b : Nat) (x y : FVal) : FM FVal :=
  let r := ofF32 (Config.specialFn fn (toF32 x))
  inexactRes c (if withinUlp b y r then r else (runFM (roundTo fp32 {} y)).1)

/-- The smallest positive FP32 value, whose EXP and LOG R47 fixes. -/
def isTiny (x : FVal) : Bool := decide (fCmp x (.fin false 1 (-149)) = 0)

/-- EXP; of 2^−149 it is 1.0 (R47). -/
def spExp (c : RCtl) (x : FVal) : FM FVal :=
  match x with
  | .nan => pure .nan
  | .inf s => pure (if s then fZero else .inf false)
  | _ =>
    if isZero x then pure fOne
    else if !leDec x 88722839 6 then overRes
    else if leDec x (-103972084) 6 then inexactRes c fZero
    else if isTiny x then inexactRes c fOne
    else freeRes 0x10 c 1 x (hpExp (hpOf x))

/-- EXP2. -/
def spExp2 (c : RCtl) (x : FVal) : FM FVal :=
  match x with
  | .nan => pure .nan
  | .inf s => pure (if s then fZero else .inf false)
  | _ =>
    if !ltDec x 128 0 then overRes
    else if leDec x (-150) 0 then inexactRes c fZero
    else
      let h := hpOf x
      if h % (hpOne : Int) = 0 then exactRes c (.fin false 1 (h / hpOne)) else freeRes 0x11 c 1 x (hpExp2 h)

/-- LOG; of 2^−149 it is the correctly rounded value (R47). -/
def spLog (c : RCtl) (x : FVal) : FM FVal :=
  match x with
  | .nan => pure .nan
  | .inf s => if s then do raiseFp fInvalid; pure .nan else pure (.inf false)
  | _ =>
    if isZero x then do raiseFp fDivZero; pure (.inf true)
    else if isNeg x then do raiseFp fInvalid; pure .nan
    else if fCmp x fOne = 0 then pure fZero
    else if isTiny x then roundTo fp32 { c with rm := .rne, sat := false } (hpLog x)
    else freeRes 0x12 c 1 x (hpLog x)

/-- RECIP, correctly rounded. -/
def spRecip (c : RCtl) (x : FVal) : FM FVal :=
  let r := { c with rm := .rne, sat := false : RCtl }
  match x with
  | .nan => pure .nan
  | .inf s => pure (.fin s 0 0)
  | _ => if isZero x then do raiseFp fDivZero; pure (.inf (isNeg x)) else fDiv r fOne x

/-- RSQRT, correctly rounded. -/
def spRsqrt (c : RCtl) (x : FVal) : FM FVal :=
  match x with
  | .nan => pure .nan
  | .inf s => if s then do raiseFp fInvalid; pure .nan else pure fZero
  | .fin s m e =>
    if m = 0 then do raiseFp fDivZero; pure (.inf s)
    else if s then do raiseFp fInvalid; pure .nan
    else
      let e0 := e - e % 2
      let n := m * 2 ^ (e % 2).toNat
      let k := Nat.log2 n + 128
      let q := 2 ^ (2 * k) / n
      let r := isqrt q
      roundFin fp32 { c with rm := .rne, sat := false } false r (-(e0 / 2) - k) (decide (r * r * n ≠ 2 ^ (2 * k)))

/-- RELU. -/
def spRelu (c : RCtl) (x : FVal) : FM FVal :=
  match x with
  | .nan => pure .nan
  | .inf s => pure (if s then fZero else .inf false)
  | _ => if isNeg x then pure fZero else exactRes c x

/-- TANH. -/
def spTanh (c : RCtl) (x : FVal) : FM FVal :=
  match x with
  | .nan => pure .nan
  | .inf s => pure (.fin s 1 0)
  | _ =>
    if isZero x then pure x
    else if fCmp (fAbs x) (.fin false 1 (-12)) ≤ 0 then inexactRes c x
    else if !ltDec (fAbs x) 90109375 7 then inexactRes c (.fin (isNeg x) 1 0)
    else freeRes 0x18 c 2 x (hpTanh (isNeg x) (hpOf (fAbs x)))

/-- LOGISTIC. -/
def spLogistic (c : RCtl) (x : FVal) : FM FVal :=
  match x with
  | .nan => pure .nan
  | .inf s => pure (if s then fZero else fOne)
  | _ =>
    if isZero x then pure (.fin false 1 (-1))
    else if !ltDec x 175 1 then inexactRes c fOne
    else if leDec x (-103973) 3 then inexactRes c fZero
    else freeRes 0x19 c 2 x (hpLogistic (hpOf x))

/-- The smooth rectifiers: `hi` and `lo` (in tenths, negative) bound the range outside which the result is x or −0. -/
def spRect (fn : Nat) (c : RCtl) (hi lo : Int) (y : FVal → FVal) (x : FVal) : FM FVal :=
  match x with
  | .nan => pure .nan
  | .inf s => pure (if s then .fin true 0 0 else .inf false)
  | _ =>
    if isZero x then pure x
    else if !ltDec x hi 1 then inexactRes c x
    else if leDec x lo 1 then inexactRes c (.fin true 0 0)
    else freeRes fn c 4 x (y x)

/-- The special function of a VOP (R116, R120, R121). -/
def special (fn : Nat) (c : RCtl) (x : FVal) : FM FVal :=
  match fn with
  | 0x10 => spExp c x
  | 0x11 => spExp2 c x
  | 0x12 => spLog c x
  | 0x13 => spRecip c x
  | 0x14 => spRsqrt c x
  | 0x15 => spRelu c x
  | 0x18 => spTanh c x
  | 0x19 => spLogistic c x
  | 0x1A => spRect fn c 60 (-145) (fun x => exactMul x (hpCdf x)) x
  | 0x1B => spRect fn c 60 (-115) (fun x => exactMul x (hpLogistic (2 * hpGeluArg x))) x
  | _ => spRect fn c 180 (-1100) (fun x => exactMul x (hpLogistic (hpOf x))) x

/-- Function group a VOP needs (R119): 0 sigmoidal, 1 smooth-rectifier; none when it is always available. -/
def sfuGroup (fn : Nat) : Option Nat :=
  if fn = 0x18 ∨ fn = 0x19 then some 0 else if 0x1A ≤ fn ∧ fn ≤ 0x1C then some 1 else none

end Sys2Proof.Machine
end

