-- ==== Sys2Proof/Machine/Vector.lean ====
section
/-! DEFINITION. The vector engine's element-wise operations, reductions, softmax, rotary encoding, pooling, optimiser steps and delta selection (R109, R112-R126, R133-R143). Rows are taken in increasing order, each read whole before it is written (log entry 23). -/

namespace Sys2Proof.Machine

-- ## Loading and storing rows (R114, R115)

/-- What a vector operation has done so far: state, flags, GATHER_RANGE, FULLY_MASKED. -/
structure VAcc where
  st : State
  fl : BitVec 6 := 0
  gr : Bool := false
  fm : Bool := false

/-- DAZ of a descriptor. -/
def vDaz (ws : List Word32) : Bool := ncDaz (vNum ws)

/-- Controls of a rounding that a rule names as RNE (R36, R115). -/
def vc (ws : List Word32) : RCtl := { ftz := ncFtz (vNum ws) }

/-- Controls of ADD, SUB, MUL, FMA and AXPB: RND, with SR taken as RNE (R115). -/
def vcArith (ws : List Word32) : RCtl := { rm := if ncRnd (vNum ws) = 1 then .rtz else .rne, ftz := ncFtz (vNum ws) }

/-- An element's FP32 value from its bits and scale code (R36, R43, R115). -/
def vLoad (ws : List Word32) (fmt : Nat) (e : Nat × Nat) : FM FVal := do
  let v := dazElem (vDaz ws) fmt e.1
  let x ← noteNan (if isMx fmt then withScale v e.2 else v)
  if isMx fmt || decide (fmt = 0xB) then roundTo fp32 (vc ws) x else pure x

/-- An FP32 input beside the element arrays: a scalar or a table value. -/
def vScalar (ws : List Word32) (w : Word32) : FM FVal := vLoad ws 0 (w.toNat, 127)

/-- First byte of row `m`, with the pitch field `p` and `bits` per element (R114). -/
def rowAt (base p n bits m : Nat) : Nat := base + m * pitchOf p n bits

/-- Element bits of a stored row, with the scale codes at `sc`. -/
def rowBits (s : State) (c a fmt n sc : Nat) : List (Nat × Nat) :=
  (List.range n).map fun i => (spElem s c a fmt 0 0 i, if isMx fmt then spByte s c (sc + i / 32) else 127)

/-- Row `m` of A. -/
def aRow (s : State) (c : Nat) (ws : List Word32) (m : Nat) : FM (List FVal) :=
  (rowBits s c (rowAt (spAt ws 8) (wfld ws 8 31 18) (vLen ws) (elemBits (vAFmt ws)) m) (vAFmt ws) (vLen ws)
    (spAt ws 12 + m * cdiv (vLen ws) 32)).mapM (vLoad ws (vAFmt ws))

/-- Row `m` of B as an array. -/
def bRow (s : State) (c : Nat) (ws : List Word32) (m : Nat) : FM (List FVal) :=
  (rowBits s c (rowAt (spAt ws 9) (wfld ws 9 31 18) (vLen ws) (elemBits (vBFmt ws)) m) (vBFmt ws) (vLen ws) 0).mapM
    (vLoad ws (vBFmt ws))

/-- First byte of row `m` of the output. -/
def outAt (ws : List Word32) (m : Nat) : Nat := rowAt (spAt ws 10) (wfld ws 10 31 18) (vLen ws) (vBits ws (vOutFmt ws)) m

/-- Bytes of row `m` delivered in OUT_FMT (R37, R40, R115). -/
def outRow (ws : List Word32) (m : Nat) (xs : List FVal) : FM (List Byte × List Byte) := do
  let r ← storeRow (vOutFmt ws) (fun i => outCtl (vNum ws) (ws.getD 7 0).toNat (vLen ws) m i) xs
  pure (r.1.take (rowBytes (vOutFmt ws) xs.length), r.2)

/-- FP32 values at a scratchpad address, `n` of them. -/
def f32At (s : State) (c : Nat) (ws : List Word32) (a n : Nat) : FM (List FVal) :=
  (List.range n).mapM fun i => vScalar ws (BitVec.ofNat 32 (leNat (spRd s c (a + 4 * i) 4)))

/-- The lists' elements at the same positions combined; a longer second list is cut. -/
def zipFM (f : FVal → FVal → FM FVal) : List FVal → List FVal → FM (List FVal)
  | x :: xs, y :: ys => do pure ((← f x y) :: (← zipFM f xs ys))
  | xs, _ => pure xs

/-- Values written as FP32 bytes; they are FP32 values already. -/
def wrF32 (s : State) (c a : Nat) (xs : List FVal) : State := spWr s c a (f32Bytes xs)

-- ## The order of R117

/-- Combination at the same positions, the rest of the first list kept. -/
def zipLanes {α : Type} (f : α → α → FM α) : List α → List α → FM (List α)
  | p :: ps, x :: xs => do pure ((← f p x) :: (← zipLanes f ps xs))
  | ps, _ => pure ps

/-- The lane tree from half width `2^k` down. -/
def laneTree {α : Type} (f : α → α → FM α) : Nat → List α → FM (List α)
  | 0, ps => pure ps
  | k + 1, ps => do laneTree f k (← zipLanes f (ps.take (2 ^ k)) (ps.drop (2 ^ k)))

/-- A row combined in the order of R117: lanes in increasing element order, then the tree. -/
def laneReduce {α : Type} (f : α → α → FM α) (z : α) (xs : List α) : FM α := do
  let ps ← (pieces 128 (xs.length + 1) xs).foldlM (zipLanes f) (List.replicate 128 z)
  pure ((← laneTree f 7 ps).headD z)

/-- Sum of a row. -/
def laneSum (c : RCtl) (xs : List FVal) : FM FVal := laneReduce (fAdd c) fZero xs

/-- Maximum of a row. -/
def laneMax (xs : List FVal) : FM FVal := laneReduce (fun a b => pure (fMax a b)) (.inf true) xs

/-- Index of the first maximum; the first NaN wins (R117). -/
def argMax (xs : List FVal) : Nat :=
  (((List.range xs.length).zip xs).foldl (fun (b : Option (Nat × FVal)) p => match b with
    | none => some p
    | some q => if isNan q.2 then b else if isNan p.2 || fLess q.2 p.2 then some p else b) none).elim 0 Prod.fst

-- ## Finishing (R44, R77, R118, R125)

/-- A vector operation run over its rows: its commit begins with its first write, and its flags are contributed as it completes. -/
def vecRun (s : State) (c : Nat) (x : Slot) (rows : Nat) (row : VAcc → Nat → VAcc) (last : VAcc → VAcc) (cycles : Nat) : State :=
  let r := last ((List.range rows).foldl row { st := beginCommit s c x })
  let s1 := addFlags (addCnt r.st (coreKey c 0x194) cycles) c r.fl
  let s2 := if r.gr then addFlagBit (wrB s1 (coreKey c 0x184) 0 true) c 6 else s1
  let s3 := if r.fm then addFlagBit (wrB s2 (coreKey c 0x18C) 0 true) c 7 else s2
  opComplete s3 c x

/-- One row's computation: what it writes, and its flags. -/
def rowStep (f : FM (State → State)) (a : VAcc) : VAcc :=
  let (w, fl) := runFM f
  { a with st := w a.st, fl := a.fl ||| fl }

/-- The vector operation of opcode `o` that a core has issued, its commit not begun. -/
def vecOp (s : State) (c o : Nat) : Option Slot := issuedOp s c fun ws => decide (opcode ws = o)

/-- Lane groups of a row (R112). -/
def laneGroups (ws : List Word32) : Nat := max 1 (cdiv (vLen ws) 128)

-- ## VEC (R116)

/-- One element of a VEC. -/
def vecElem (ws : List Word32) (s0 s1 : FVal) (a : FVal × FVal × FVal) : FM FVal :=
  let (x, y, o) := a
  let c := vcArith ws
  match vVop ws with
  | 0 => fAdd c x y
  | 1 => fSub c x y
  | 2 => fMul c x y
  | 3 => fFma c x y o
  | 4 => pure (fMin x y)
  | 5 => pure (fMax x y)
  | 6 => pure x
  | 7 => fFma c x s0 s1
  | f => special f (vc ws) x

/-- One row of a VEC: A, then B where it is used, then OUT for FMA. -/
def vecRow (s : State) (c : Nat) (ws : List Word32) (m : Nat) : FM (State → State) := do
  let v := vVop ws
  let xs ← aRow s c ws m
  let s0 ← if vOpt ws 19 || v = 7 then vScalar ws (ws.getD 13 0) else pure fZero
  let s1 ← if v = 7 then vScalar ws (ws.getD 14 0) else pure fZero
  let ys ← if vecB ws then bRow s c ws (if vOpt ws 18 then 0 else m) else pure (xs.map fun _ => s0)
  let os ← if v = 3 then (rowBits s c (outAt ws m) (vOutFmt ws) (vLen ws) 0).mapM (vLoad ws (vOutFmt ws)) else pure (xs.map fun _ => fZero)
  let rs ← (xs.zip (ys.zip os)).mapM (vecElem ws s0 s1)
  let (bs, sc) ← outRow ws m rs
  pure fun t => spWr (spWr t c (outAt ws m) bs) c (spAt ws 11 + m * cdiv (vLen ws) 32) sc

/-- Core cycles of a VEC (R112). The half cycle of an odd number of BF16 lane groups is rounded up once for the operation (DESIGN CHOICE, log entry 49). -/
def vecCycles (ws : List Word32) : Nat :=
  let g := laneGroups ws
  let v := vVop ws
  let bf := decide (vAFmt ws = 1) && decide (vOutFmt ws = 1) && (!vecB ws || decide (vBFmt ws = 1))
  if 0x10 ≤ v ∧ v ≠ 0x15 then vRows ws * 2 * g else if bf then cdiv (vRows ws * g) 2 else vRows ws * g

/-- The special-function unit reloaded for a group it does not hold (R119). -/
def sfuLoad (s : State) (c : Nat) (fn : Nat) : State :=
  match sfuGroup fn with
  | some g => if (coreOf s c).sfu = g then s
    else addCnt (setCore s c { coreOf s c with sfu := g }) (coreKey c 0x190) 1
  | none => s

/-- VEC (R116). -/
def execVec (c : CoreId) (s : State) : Out :=
  effect (fun s => match vecOp s c 0x10 with
    | none => s
    | some x =>
      let ws := x.words
      vecRun (sfuLoad s c (vVop ws)) c x (vRows ws) (fun a m => rowStep (vecRow a.st c ws m) a) id (vecCycles ws)) s

-- ## REDUCE (R117)

/-- One row's reduction. -/
def reduceVal (ws : List Word32) (xs : List FVal) : FM FVal :=
  match vVop ws with
  | 0 => laneSum (vc ws) xs
  | 2 => laneReduce (fun a b => pure (fMin a b)) (.inf false) xs
  | 3 => do laneSum (vc ws) (← xs.mapM fun x => fMul (vc ws) x x)
  | _ => laneMax xs

/-- One row of a REDUCE. -/
def reduceRow (s : State) (c : Nat) (ws : List Word32) (m : Nat) : FM (State → State) := do
  let xs ← aRow s c ws m
  let (bs, _) ← outRow ws m [← reduceVal ws xs]
  pure fun t =>
    let u := spWr t c (outAt ws m) bs
    if vVop ws = 4 then spWr u c (spAt ws 11 + 4 * m) (toLe 4 (argMax xs)) else u

/-- REDUCE (R117). -/
def execReduce (c : CoreId) (s : State) : Out :=
  effect (fun s => match vecOp s c 0x11 with
    | none => s
    | some x =>
      let ws := x.words
      vecRun s c x (vRows ws) (fun a m => rowStep (reduceRow a.st c ws m) a) id (vRows ws * (laneGroups ws + 7))) s

-- ## SOFTMAX (R124, R125)

/-- −2^125, to which finite scaled values are raised (R124). -/
def clampLow : FVal := .fin true 1 125

/-- Scaling and clamping (R124). -/
def scaleClamp (c : RCtl) (x k : FVal) : FM FVal := do
  let v ← fMul c x k
  match v with
  | .fin _ _ _ => pure (if fCmp v clampLow < 0 then clampLow else v)
  | y => pure y

/-- Whether element `j` of row `m` is masked (R124). -/
def smMasked (s : State) (c : Nat) (ws : List Word32) (m j : Nat) : Bool :=
  let mode := wfld ws 12 19 18
  if mode = 1 then !bitOf (spByte s c (spAt ws 11 + m * cdiv (vLen ws) 128 * 16 + j / 8)) (j % 8)
  else if mode = 2 then decide ((m : Int) + signed 32 (vParam ws) < j)
  else false

/-- exp(v − mx), both steps FP32; a masked term is +0 without a flag (R124). -/
def expTerm (c : RCtl) (mx : FVal) (v : Option FVal) : FM FVal :=
  match v with
  | none => pure fZero
  | some y => do spExp c (← fSub c y mx)

/-- A softmax over a row whose masked values are none (R124, R125): outputs, lse and FULLY_MASKED; lse is formed when it is written. -/
def softmaxVals (c : RCtl) (lse : Bool) (vs : List (Option FVal)) : FM (List FVal × FVal × Bool) := do
  let mx ← laneMax (vs.map fun v => v.getD (.inf true))
  if mx = .inf true then
    set (0 : BitVec 6)
    pure (vs.map fun _ => fZero, .inf true, true)
  else if isNan mx || mx = .inf false then
    if !isNan mx then raiseFp fInvalid
    pure (vs.map fun _ => .nan, .nan, false)
  else
    let es ← vs.mapM (expTerm c mx)
    let t ← laneSum c es
    let os ← es.mapM fun e => fDiv c e t
    let l ← if lse then fAdd c mx (← spLog c t) else pure fZero
    pure (os, l, false)

/-- One row of a SOFTMAX. -/
def softmaxRow (s : State) (c : Nat) (ws : List Word32) (m : Nat) : FM (Bool × (State → State)) := do
  let bits := rowBits s c (rowAt (spAt ws 8) (wfld ws 8 31 18) (vLen ws) (elemBits (vAFmt ws)) m) (vAFmt ws) (vLen ws) 0
  let vs ← ((List.range bits.length).zip bits).mapM fun p => do
    if smMasked s c ws m p.1 then pure none
    else pure (some (← scaleClamp (vc ws) (← vLoad ws (vAFmt ws) p.2) (← vScalar ws (ws.getD 13 0))))
  let (os, l, full) ← softmaxVals (vc ws) (vOpt ws 20) vs
  let (bs, _) ← outRow ws m os
  pure (full, fun t =>
    let u := spWr t c (outAt ws m) bs
    if vOpt ws 20 then spWr u c (spAt ws 12 + 8 * m) (f32Bytes [l] ++ toLe 4 (b2n full)) else u)

/-- SOFTMAX (R124). -/
def execSoftmax (c : CoreId) (s : State) : Out :=
  effect (fun s => match vecOp s c 0x12 with
    | none => s
    | some x =>
      let ws := x.words
      vecRun s c x (vRows ws) (fun a m =>
        let ((full, w), fl) := runFM (softmaxRow a.st c ws m)
        { a with st := w a.st, fl := a.fl ||| fl, fm := a.fm || full }) id (vRows ws * (5 * laneGroups ws + 14))) s

-- ## ROPE (R122, R123)

/-- A (cos, sin) entry: entry `i` of a table at `a`. -/
def ropeEntry (s : State) (c a i : Nat) : Word32 × Word32 :=
  (BitVec.ofNat 32 (leNat (spRd s c (a + 8 * i) 4)), BitVec.ofNat 32 (leNat (spRd s c (a + 8 * i + 4) 4)))

/-- Position of row `m` (R122). -/
def ropePos (s : State) (c : Nat) (ws : List Word32) (m : Nat) : Int :=
  if vOpt ws 20 then int32 (spRd s c (spAt ws 9 + 4 * m) 4) else signed 32 (vParam ws) + m

/-- Table addresses and entries of the pairs of row `m`; none when its position or a table index is out of range (R122). PARAM is an INT32, and its quotient is rounded down (DESIGN CHOICE, log entry 49). -/
def ropeIndex (s : State) (c : Nat) (ws : List Word32) (m : Nat) : Option (Nat → Nat × Nat) :=
  let p := ropePos s c ws m
  let par := signed 32 (vParam ws)
  let rows := wfld ws 9 31 18
  if p < 0 then none
  else if vOpt ws 18 then
    let gh := wfld ws 13 15 0
    let gw := wfld ws 13 31 16
    let st := wfld ws 14 7 0
    let sh := wfld ws 14 15 8
    let sw := wfld ws 14 23 16
    let t : Int := p / ((gh * gw : Nat) : Int) - par / ((gh * gw : Nat) : Int)
    let h := (p.toNat / gw) % gh
    let w := p.toNat % gw
    if gh = 0 ∨ gw = 0 ∨ t < 0 ∨ (rows : Int) ≤ t then none
    else some fun i =>
      if i < st then (spAt ws 11, t.toNat * st + i)
      else if i < st + sh then (spAt ws 12, h * sh + (i - st))
      else (spAt ws 12 + gh * sh * 8, w * sw + (i - st - sh))
  else
    let r := p - par
    if r < 0 ∨ (rows : Int) ≤ r then none else some fun i => (spAt ws 11, r.toNat * ropePairs ws + i)

/-- The rotation of one pair (R123). -/
def rotate (k : RCtl) (a b cs sn : FVal) : FM (FVal × FVal) := do
  let x ← fFma k a cs (fNeg (← fMul k b sn))
  let y ← fFma k a sn (← fMul k b cs)
  pure (x, y)

/-- One element of a ROPE row: its pair rotated, its own half kept. -/
def ropeElem (s : State) (c : Nat) (ws : List Word32) (ix : Option (Nat → Nat × Nat)) (xs : List FVal) (j : Nat) : FM FVal := do
  let n := ropePairs ws
  let hd := j / (2 * n) * (2 * n)
  let o := j % (2 * n)
  let (i, second) := if vOpt ws 19 then (o % n, decide (n ≤ o)) else (o / 2, decide (o % 2 = 1))
  let (ja, jb) := if vOpt ws 19 then (hd + i, hd + i + n) else (hd + 2 * i, hd + 2 * i + 1)
  let (cs, sn) ← match ix with
    | none => pure (fOne, fZero)
    | some f => do
      let (cw, sw) := ropeEntry s c (f i).1 (f i).2
      pure (← vScalar ws cw, ← vScalar ws sw)
  let (x, y) ← rotate (vc ws) (xs.getD ja fZero) (xs.getD jb fZero) cs sn
  pure (if second then y else x)

/-- One row of a ROPE. -/
def ropeRow (s : State) (c : Nat) (ws : List Word32) (m : Nat) : FM (State → State) := do
  let xs ← aRow s c ws m
  let ys ← (List.range (vLen ws)).mapM (ropeElem s c ws (ropeIndex s c ws m) xs)
  let (bs, _) ← outRow ws m ys
  pure fun t => spWr t c (outAt ws m) bs

/-- ROPE (R122, R123). -/
def execRope (c : CoreId) (s : State) : Out :=
  effect (fun s => match vecOp s c 0x15 with
    | none => s
    | some x =>
      let ws := x.words
      vecRun s c x (vRows ws) (fun a m =>
        { rowStep (ropeRow a.st c ws m) a with gr := a.gr || (ropeIndex a.st c ws m).isNone }) id (vRows ws * (2 * laneGroups ws))) s

-- ## POOL (R109, R133)

/-- The real taps of channel `e` at output position `p`, in increasing t (R104, R109). -/
def poolTaps (s : State) (c : Nat) (ws : List Word32) (w : WinRec) (p e : Nat) : FM (List FVal) :=
  (List.range (vol w.ker)).filterMapM fun t => match convPos w p t with
    | none => pure none
    | some q => do pure (some (← vLoad ws (vAFmt ws) (convElem s c (spAt ws 8) (spAt ws 9) (vAFmt ws) w (w.cb0 + e / w.cb) q (e % w.cb))))

/-- One pooled value (R109): +0 for a window with no real tap. The sum of an average starts from +0 (DESIGN CHOICE, log entry 49). -/
def poolVal (ws : List Word32) (w : WinRec) (ts : List FVal) : FM FVal :=
  if ts.isEmpty then pure fZero
  else if vVop ws = 0 then
    pure (if ts.any isNan then .nan
      else ts.tail.foldl (fun b x => if 0 < fCmp x b then x else b) (ts.headD fZero))
  else do
    let t ← ts.foldlM (fAdd (vc ws)) fZero
    fDiv (vc ws) t (ofInt (if w.countPad then vol w.ker else ts.length))

/-- One output position. -/
def poolRow (s : State) (c : Nat) (ws : List Word32) (w : WinRec) (m : Nat) : FM (State → State) := do
  let ys ← (List.range (vLen ws)).mapM fun e => do poolVal ws w (← poolTaps s c ws w (w.oStart + m) e)
  let (bs, _) ← outRow ws m ys
  pure fun t => spWr t c (outAt ws m) bs

/-- POOL (R109, R133). -/
def execPool (c : CoreId) (s : State) : Out :=
  effect (fun s => match vecOp s c 0x16 with
    | none => s
    | some x =>
      let ws := x.words
      let w := opWin s c x
      vecRun s c x (vRows ws) (fun a m => rowStep (poolRow a.st c ws w m) a) id (vRows ws * (vol w.ker * laneGroups ws))) s

-- ## OPTIM (R134)

/-- One element of an OPTIM: parameter, first and second moment after the step; `h` holds lr, β1, β2, eps, wd, c1, c2. -/
def optimElem (k : RCtl) (adam : Bool) (h : List FVal) (p g m v : FVal) : FM (FVal × FVal × FVal) := do
  let e := fun i => h.getD i fZero
  if adam then
    let m1 ← fFma k (e 1) m (← fMul k (← fSub k fOne (e 1)) g)
    let v1 ← fFma k (e 2) v (← fMul k (← fSub k fOne (e 2)) (← fMul k g g))
    let u ← fDiv k (← fMul k m1 (e 5)) (← fAdd k (← fSqrt k (← fMul k v1 (e 6))) (e 3))
    pure (← fSub k p (← fMul k (e 0) (← fFma k (e 4) p u)), m1, v1)
  else
    let m1 ← fFma k (e 1) m g
    pure (← fSub k p (← fMul k (e 0) (← fFma k (e 4) p m1)), m1, fZero)

/-- One row of an OPTIM: parameters, gradient, moments; all written back. -/
def optimRow (s : State) (c : Nat) (ws : List Word32) (m : Nat) : FM (State → State) := do
  let n := vLen ws
  let adam := decide (vVop ws = 0)
  let h ← f32At s c ws (wfld ws 15 17 0 * 128) 7
  let ps ← aRow s c ws m
  let gs ← bRow s c ws m
  let ms ← f32At s c ws (spAt ws 11 + 4 * n * m) n
  let vs ← if adam then f32At s c ws (spAt ws 12 + 4 * n * m) n else pure (ms.map fun _ => fZero)
  let rs ← ((ps.zip gs).zip (ms.zip vs)).mapM fun q => optimElem (vc ws) adam h q.1.1 q.1.2 q.2.1 q.2.2
  pure fun t =>
    let u := wrF32 (wrF32 t c (outAt ws m) (rs.map (·.1))) c (spAt ws 11 + 4 * n * m) (rs.map (·.2.1))
    if adam then wrF32 u c (spAt ws 12 + 4 * n * m) (rs.map (·.2.2)) else u

/-- OPTIM (R134). -/
def execOptim (c : CoreId) (s : State) : Out :=
  effect (fun s => match vecOp s c 0x18 with
    | none => s
    | some x =>
      let ws := x.words
      vecRun s c x (vRows ws) (fun a m => rowStep (optimRow a.st c ws m) a) id (vRows ws * (6 * laneGroups ws))) s

-- ## DELTA_SELECT (R137-R143, R151)

/-- The row metric; it sets no flag (R139, R141). -/
def deltaMetric (ws : List Word32) (ds : List FVal) : FVal :=
  (runFM (if vVop ws = 0 then laneMax (ds.map fAbs) else do laneSum {} (← ds.mapM fun d => fMul {} d d))).1

/-- Whether a row is emitted (R139). -/
def deltaEmit (ws : List Word32) (m : FVal) : Bool :=
  let t := ofF32 (ws.getD 13 0)
  let th := if vVop ws = 0 then t else (runFM (fMul {} t t)).1
  vOpt ws 19 || isNan m || decide (0 < fCmp m th)

/-- Δ row bytes and updated reference bytes of an emitted row (R140). -/
def deltaParts (ws : List Word32) (m : Nat) (ds bs : List FVal) : FM (List Byte × List Byte) := do
  let (q, _) ← outRow ws m ds
  let dq := (List.range ds.length).map fun i => decElem (vOutFmt ws) (elemAt (elemBits (vOutFmt ws)) q i)
  let rs ← (bs.zip dq).mapM fun p => do storeElem (vBFmt ws) {} (← fAdd {} p.1 p.2)
  pure (q, packElems (elemBits (vBFmt ws)) rs)

/-- One row of a DELTA_SELECT; `n` rows have been emitted before. -/
def deltaRow (c : Nat) (ws : List Word32) (a : VAcc × Nat) (m : Nat) : VAcc × Nat :=
  let s := a.1.st
  let ((bs, ds), f1) := runFM (do
    let xs ← aRow s c ws m
    let bs ← bRow s c ws m
    pure (bs, ← zipFM (fSub {}) xs bs))
  let mt := deltaMetric ws ds
  let s1 := if vOpt ws 18 then wrF32 s c (spAt ws 12 + 4 * m) [mt] else s
  if !deltaEmit ws mt then ({ a.1 with st := s1 }, a.2)
  else
    let ((q, r), f2) := runFM (deltaParts ws m ds bs)
    let s2 := spWr s1 c (outAt ws m) q
    let s3 := spWr s2 c (rowAt (spAt ws 9) (wfld ws 9 31 18) (vLen ws) (elemBits (vBFmt ws)) m) r
    ({ a.1 with st := spWr s3 c (spAt ws 11 + 128 + 4 * a.2) (toLe 4 m), fl := a.1.fl ||| f1 ||| f2 }, a.2 + 1)

/-- The rows of a DELTA_SELECT, and how many were emitted. -/
def deltaRows (c : Nat) (ws : List Word32) (s : State) : VAcc × Nat :=
  (List.range (vRows ws)).foldl (deltaRow c ws) ({ st := s }, 0)

/-- DELTA_SELECT (R139): rows, then the list header, then the counters (R151). -/
def execDeltaSelect (c : CoreId) (s : State) : Out :=
  effect (fun s => match vecOp s c 0x17 with
    | none => s
    | some x =>
      let ws := x.words
      let (r, n) := deltaRows c ws (beginCommit s c x)
      let g := laneGroups ws
      vecRun r.st c x 0 (fun a _ => a) (fun a =>
        { a with st := addCnt (addCnt (spWr a.st c (spAt ws 11) (toLe 4 n ++ List.replicate 124 0)) (coreKey c 0x198) (vRows ws)) (coreKey c 0x19C) n
                 fl := r.fl }) (vRows ws * (g + 7) + n * g)) s

end Sys2Proof.Machine
end

