-- ==== Sys2Proof/Machine/Attention.lean ====
section
/-! DEFINITION. Attention and bobbins (R152-R173): bobbin tables and free rings, fetching, the online-softmax operation, KV_WRITE, and the spill engine. -/

namespace Sys2Proof.Machine

-- ## Bobbin table entries (R166)

/-- A bobbin table entry of 16 bytes. -/
structure BobEnt where
  addr : Nat
  tier : Nat
  valid : Bool
  pinned : Bool
  dirty : Bool
  busy : Bool
  fill : Nat
  age : Nat
  deriving DecidableEq, Repr

/-- An entry read from its bytes. -/
def bobOf (b : List Byte) : BobEnt :=
  let f := byteAt b 8
  { addr := fieldLe b 0 8, tier := f % 4, valid := bitOf f 2, pinned := bitOf f 3, dirty := bitOf f 4, busy := bitOf f 5
    fill := fieldLe b 10 2, age := fieldLe b 12 4 }

/-- Bytes of an entry. -/
def bobEntBytes (e : BobEnt) : List Byte :=
  toLe 8 e.addr ++ toLe 1 (e.tier % 4 + 4 * b2n e.valid + 8 * b2n e.pinned + 16 * b2n e.dirty + 32 * b2n e.busy) ++
  toLe 1 0 ++ toLe 2 e.fill ++ toLe 4 e.age

/-- AGE of now: bits 47..16 of the timestamp. -/
def ageNow (s : State) : Nat := bitsOf s.time.toNat 47 16

-- ## Free rings (R168)

/-- Key of a bobbin register of tier `t` (1-3): `o` 0 BASE_LO, 4 BASE_HI, 8 POOL, 0xC FREE. -/
def tierKey (l t o : Nat) : Nat := loomKey l (0x410 + 0x10 * (t - 1) + o)

/-- SLOTS of POOL. -/
def poolOf (s : State) (l t : Nat) : Nat := rdF s (tierKey l t 8) 24 0

/-- SLOTS of FREE. -/
def freeOf (s : State) (l t : Nat) : Nat := rdF s (tierKey l t 0xC) 24 0

/-- Address of ring position `i` of a tier. -/
def ringSlotAt (s : State) (l t i : Nat) : Nat :=
  rdF s (tierKey l t 0) 31 8 * 256 + (rd s (tierKey l t 4)).toNat * 2 ^ 32 + 8 * (i % poolOf s l t)

/-- Result of a step on memory: a value, a failed access, or nothing to take. -/
inductive Got (α : Type) where
  | val (a : α)
  | err (e : AccErr)
  | wait
  deriving DecidableEq, Repr

/-- A slot address popped from a tier's ring; `wait` when the ring is empty. A slot whose address cannot be read is dropped from the ring (R171). -/
def popSlot (s : State) (w : Who) (l t : Nat) : State × Got Nat :=
  let n := freeOf s l t
  let h := tget 0 (loomOf s l).freeHead t
  let taken := fun (u : State) =>
    wrF (setLoom u l { loomOf u l with freeHead := tput (loomOf u l).freeHead t (h + 1) }) (tierKey l t 0xC) 24 0 (n - 1)
  if n = 0 then (s, .wait)
  else match loomRead s w l (ringSlotAt s l t h) 8 with
    | (u, .error e) => (taken u, .err e)
    | (u, .ok b) => (taken u, .val (leNat b))

/-- A slot address pushed onto a tier's ring. -/
def pushSlot (s : State) (w : Who) (l t a : Nat) : State × Option AccErr :=
  let h := tget 0 (loomOf s l).freeTail t
  match loomWrite s w l (ringSlotAt s l t h) (toLe 8 a) with
  | (u, some e) => (u, some e)
  | (u, none) =>
    (wrF (setLoom u l { loomOf u l with freeTail := tput (loomOf u l).freeTail t (h + 1) }) (tierKey l t 0xC) 24 0 (freeOf s l t + 1), none)

/-- T1 slots in use (R170). -/
def usedT1 (s : State) (l : Nat) : Nat := poolOf s l 1 - freeOf s l 1

/-- LOOM_BOB_HIGH. -/
def bobHigh (s : State) (l : Nat) : Nat := rdF s (loomKey l 0x408) 24 0

/-- LOOM_BOB_LOW; above HIGH it is taken as HIGH (R170). -/
def bobLow (s : State) (l : Nat) : Nat := min (rdF s (loomKey l 0x40C) 24 0) (bobHigh s l)

/-- Bit of LOOM_BOB_CTRL. -/
def bobCtrl (s : State) (l i : Nat) : Bool := fbit (rd s (loomKey l 0x400)) i

/-- The tier a spilled bobbin goes to: T2 when it is enabled and not empty, else T3 (R170). -/
def spillTier (s : State) (l : Nat) : Option Nat :=
  if bobCtrl s l 1 && decide (0 < freeOf s l 2) then some 2
  else if bobCtrl s l 2 && decide (0 < freeOf s l 3) then some 3 else none

/-- STALL and its event (R171): set once when the pool is above HIGH and nothing can be taken, cleared when that ends. -/
def stallCheck (s : State) (l : Nat) : State :=
  let k := loomKey l 0x404
  if bobCtrl s l 0 && decide (bobHigh s l < usedT1 s l) && (spillTier s l).isNone then
    if fbit (rd s k) 1 then s
    else produce (wrB s k 1 true) l 0x0010 0x025 l (BitVec.ofNat 64 (usedT1 s l)) 0
  else if fbit (rd s k) 1 then wrB s k 1 false else s

-- ## Moves between tiers (R169, R170, R171)

/-- A table entry written by its 16-byte update (R166). -/
def putEnt (s : State) (w : Who) (l a : Nat) (e : BobEnt) : State × Option AccErr := loomWrite s w l a (bobEntBytes e)

/-- An access fault of a move, reported to the loom only (R171). -/
def moveErr (s : State) (l : Nat) (e : AccErr) : State := postErr s l e 0x025 l

/-- A move of `n` bytes to tier `t` begins (R169 step 4): a slot is taken and the entry reads BUSY. -/
def startMove (s : State) (w : Who) (l ea : Nat) (e : BobEnt) (t n : Nat) : State × Option Move :=
  match popSlot s w l t with
  | (u, .wait) => (u, none)
  | (u, .err er) => (moveErr u l er, none)
  | (u, .val a) =>
    match putEnt u w l ea { e with busy := true } with
    | (v, some er) => (moveErr v l er, none)
    | (v, none) => (v, some { loom := l, ent := ea, src := e.addr, srcTier := e.tier, dst := a, dstTier := t, len := n })

/-- A move that met an access fault (R171): the bobbin stays where it is, no longer BUSY; the slot is not returned to its ring. -/
def moveBack (s : State) (w : Who) (m : Move) (er : AccErr) : State :=
  match loomRead s w m.loom m.ent 16 with
  | (t, .error _) => moveErr t m.loom er
  | (t, .ok b) => moveErr (putEnt t w m.loom m.ent { bobOf b with busy := false }).1 m.loom er

/-- The end of a move (R169 step 4): the entry names the new place, the count rises, the slot left behind returns to its ring. -/
def moveDone (s : State) (w : Who) (m : Move) : State :=
  match loomRead s w m.loom m.ent 16 with
  | (t, .error er) => moveErr t m.loom er
  | (t, .ok b) =>
    match putEnt t w m.loom m.ent { bobOf b with addr := m.dst, tier := m.dstTier, busy := false } with
    | (u, some er) => moveErr u m.loom er
    | (u, none) =>
      match pushSlot (addCnt u (loomKey m.loom (if m.dstTier = 1 then 0x444 else 0x440)) 1) w m.loom m.srcTier m.src with
      | (v, some er) => moveErr v m.loom er
      | (v, none) => v

/-- A move carried out: the bobbin copied, its entry rewritten. -/
def finishMove (s : State) (w : Who) (m : Move) : State :=
  match loomRead s w m.loom m.src m.len with
  | (t, .error er) => moveBack t w m er
  | (t, .ok bs) =>
    match loomWrite t w m.loom m.dst bs with
    | (u, some er) => moveBack u w m er
    | (u, none) => moveDone u w m

-- ## Parameter block and list (R157, R163)

/-- Field of the parameter block that the sequencer read at issue; `o` bytes precede it in what was read. -/
def prm (x : Slot) (o off n : Nat) : Nat := fieldLe x.got (o + off) n

/-- Address of table entry `j`: bits 3..0 of TABLE are taken as 0. -/
def entAddr (x : Slot) (o j : Nat) : Nat := prm x o 0 8 / 16 * 16 + 16 * j

/-- TABLE_LEN as taken. -/
def tableLen (x : Slot) (o : Nat) : Nat := min 65536 (prm x o 8 4)

/-- Effective COUNT of the bobbin list, and whether it was adjusted. -/
def listCount (x : Slot) : Nat × Bool := adjCount (int32 (x.got.take 4)) (listCap x.words)

/-- List entry `e`. -/
def listEnt (s : State) (c : Nat) (x : Slot) (e : Nat) : Int := int32 (spRd s c (spAt x.words 10 + 128 + 4 * e) 4)

-- ## An ATTN under way (R152, R161)

/-- The ATTN that a core runs. -/
def attnOp (s : State) (c : Nat) : Option Slot := issuedOp s c (isOp 0x08)

/-- Accumulator word of output row `r`, element `d`: bank B, the second 128 columns in rows 2,048 on (R152). -/
def oRd (s : State) (c r d : Nat) : Nat := accRd s c true (r + 2048 * (d / 128)) (d % 128)

/-- The same written. -/
def oWr (s : State) (c r d v : Nat) : State := accWr s c true (r + 2048 * (d / 128)) (d % 128) v

/-- Query positions per head. -/
def qPer (ws : List Word32) : Nat := aM ws / (wfld ws 6 15 12 + 1)

/-- Query position of row `r` (R156). -/
def qPos (x : Slot) (r : Nat) : Nat := prm x 4 12 4 + r % qPer x.words

/-- Whether an ATTN raises GATHER_RANGE from what it read at issue: an adjusted COUNT, a long table, a query position beyond the last (R157, R158, R163). -/
def attnRange0 (x : Slot) : Bool :=
  (listCount x).2 || decide (65536 < prm x 4 8 4) || (List.range (aM x.words)).any fun r => decide (16777215 < qPos x r)

/-- A pair of a stored state: running maximum and sum of row and head `i` (R161). -/
def stateMl (s : State) (c : Nat) (ws : List Word32) (i : Nat) : Word32 × Word32 :=
  let a := spAt ws 15 + aM ws * hdRow ws * 4 + 8 * i
  (BitVec.ofNat 32 (leNat (spRd s c a 4)), BitVec.ofNat 32 (leNat (spRd s c (a + 4) 4)))

/-- Element of O in a stored state (R161). -/
def stateO (s : State) (c : Nat) (ws : List Word32) (r d : Nat) : Nat := leNat (spRd s c (spAt ws 15 + 4 * (r * hdRow ws + d)) 4)

/-- Flags of reading a stored state, of row and head `i`: NAN_IN (R43). -/
def stateFlags (s : State) (c : Nat) (ws : List Word32) (i : Nat) : BitVec 6 :=
  let r := i / headsOf ws
  let w := hdRow ws / headsOf ws
  let m := stateMl s c ws i
  (runFM (do
    let _ ← noteNan (ofF32 m.1)
    let _ ← noteNan (ofF32 m.2)
    (List.range w).mapM fun d => noteNan (decFloat 0 (stateO s c ws r (w * (i % headsOf ws) + d))))).2

/-- The state an ATTN starts with (R161): from STATE_IN, or −∞, +0 and an empty O. -/
def attnStart (s : State) (c : Nat) (x : Slot) : State × AttnRun :=
  let ws := x.words
  let n := aM ws * headsOf ws
  let t := (List.range (aM ws)).foldl (fun u r => (List.range (hdRow ws)).foldl (fun v d =>
    oWr v c r d (if stIn ws then stateO v c ws r d else 0)) u) s
  let ml := (List.range n).map fun i => if stIn ws then stateMl s c ws i else (toF32 (.inf true), 0)
  let fl := (List.range n).map fun i => if stIn ws then stateFlags s c ws i else 0
  (updSlot t c x.idx fun y => { y with grange := y.grange || attnRange0 x }, { op := x.idx, ml := ml, fl := fl })

/-- An ATTN's run so far, started when it has none. -/
def attnRun (s : State) (c : Nat) (x : Slot) : State × AttnRun :=
  match (coreOf s c).attn with
  | some a => if a.op = x.idx then (s, a) else attnStart s c x
  | none => attnStart s c x

/-- The run kept. -/
def setAttn (s : State) (c : Nat) (a : AttnRun) : State := setCore s c { coreOf s c with attn := some a }

-- ## Fetching (R169)

/-- Fetch depth: PF_DEPTH, or 1 from shedding level S1 on. -/
def fetchDepth (s : State) (ws : List Word32) : Nat := if 1 ≤ shedLevel s then 1 else pfDepth ws

/-- Scratchpad offset of slot `i` of the slot ring. -/
def t0Slot (ws : List Word32) (i : Nat) : Nat := spAt ws 11 + i * bobBytes ws

/-- A bobbin's FILL rows of K and V, from memory `a` into slot offset `o` (R165, R169). -/
def bobParts (ws : List Word32) (a o fill : Nat) : List (Nat × Nat × Nat) :=
  let k := kvRow ws
  [(a, o, fill * k), (a + 256 * k, o + 256 * k, fill * k)]

/-- Rows copied into scratchpad. -/
def copyIn (w : Who) (c l : Nat) : List (Nat × Nat × Nat) → State → State × Option AccErr
  | [], s => (s, none)
  | (a, o, n) :: r, s =>
    match loomRead s w l a n with
    | (t, .error e) => (t, some e)
    | (t, .ok bs) => copyIn w c l r (spWr t c o bs)

/-- A core as the unit that promotes a bobbin. -/
def promoWho (c : Nat) : Who := ⟨0x040, c, 2 ^ 32⟩

/-- Whether a fetched bobbin is promoted (R169 step 4): PROMOTE is set, it is an unpinned T2 or T3 bobbin, and the core promotes no other. -/
def wantsPromo (s : State) (c : Nat) (x : Slot) (e : BobEnt) : Bool :=
  decide (wfld x.words 5 26 26 = 1) && !e.pinned && (decide (e.tier = 2) || decide (e.tier = 3)) && (coreOf s c).promo.isNone

/-- A promotion begins (R169 step 4). -/
def beginPromo (s : State) (c l : Nat) (x : Slot) (ea : Nat) (e : BobEnt) : State :=
  if !wantsPromo s c x e then s
  else
    let (t, m) := startMove s (promoWho c) l ea e 1 (bobBytes x.words)
    setCore t c { coreOf t c with promo := m }

/-- The bobbin of table entry `e` fetched (R169): AGE, then K and V into the slot ring, then its promotion begins. -/
def fetchBob (s : State) (c l : Nat) (x : Slot) (a : AttnRun) (j ea : Nat) (e : BobEnt) : State :=
  let slot := a.fetched % (pfDepth x.words + 1)
  let fill := min 256 e.fill
  let e1 := { e with age := ageNow s }
  let w := coreWho c x.idx
  match putEnt s w l ea e1 with
  | (t, some er) => opAccessErr t c x er
  | (t, none) =>
    match copyIn w c l (bobParts x.words e.addr (t0Slot x.words slot) fill) t with
    | (u, some er) => opAccessErr u c x er
    | (u, none) =>
      let v := setAttn u c { a with fetchAt := a.fetchAt + 1, fetched := a.fetched + 1, ready := a.ready ++ [(a.fetchAt, j, fill, slot)] }
      stallCheck (beginPromo v c l x ea e1) l

/-- GATHER_RANGE noted. -/
def noteRange (s : State) (c : Nat) (x : Slot) : State := updSlot s c x.idx fun y => { y with grange := true }

/-- The list walked to the next bobbin that is fetched (R157). -/
def fetchNext (c l : Nat) (x : Slot) : Nat → State → AttnRun → State
  | 0, s, a => setAttn s c a
  | f + 1, s, a =>
    if (listCount x).1 ≤ a.fetchAt then setAttn s c a
    else
      let j := listEnt s c x a.fetchAt
      let skip := { a with fetchAt := a.fetchAt + 1 }
      if j = -1 then fetchNext c l x f s skip
      else if j < 0 ∨ (tableLen x 4 : Int) ≤ j then fetchNext c l x f (noteRange s c x) skip
      else
        let ea := entAddr x 4 j.toNat
        match loomRead s (coreWho c x.idx) l ea 16 with
        | (t, .error er) => opAccessErr t c x er
        | (t, .ok b) =>
          let e := bobOf b
          if !e.valid || e.fill = 0 then fetchNext c l x f t skip
          else if e.tier = 0 then fetchNext c l x f (noteRange t c x) skip
          else if e.busy then setAttn t c a
          else fetchBob t c l x a j.toNat ea e

/-- The promotion a core has under way carried on (R169 step 4); the Boolean tells whether none is left. -/
def promoStep (s : State) (c : Nat) : State × Bool :=
  match (coreOf s c).promo with
  | none => (s, true)
  | some m =>
    let (t, ok) := workUnit s (finishMove (fresh s) (promoWho c) m)
    if ok then (stallCheck (setCore t c { coreOf t c with promo := none }) m.loom, true) else (t, false)

/-- The next bobbin of a core's ATTN fetched when its slot ring has room (R169). -/
def fetchStep (s : State) (c : Nat) : State :=
  match attnOp s c with
  | none => s
  | some x =>
    let (t, a) := attnRun s c x
    if fetchDepth s x.words + 1 ≤ a.ready.length then setAttn t c a
    else fetchNext c (coreLoom s c) x (listCap x.words + 1) t a

/-- BOBBIN_FETCH (R169): the promotion under way goes on, and the next bobbin is fetched. -/
def execBobbinFetch (c : CoreId) (s : State) : Out :=
  effect (posting fun s =>
    let t := (promoStep s c).1
    asking (fun u => fetchStep u c) t) s

-- ## Position tiles (R153, R157-R159)

/-- Positions of a tile (R155). -/
def tileLen (ws : List Word32) : Nat := if headsOf ws = 2 then 64 else 128

/-- Whether key position `pk` of list entry `en` is visible to row `r` (R158). -/
def visible (s : State) (c : Nat) (x : Slot) (en r pk : Nat) : Bool :=
  let ws := x.words
  let pq := qPos x r
  let mp := prm x 4 16 4
  if 16777215 < pq then false
  else match wfld ws 5 24 22 with
    | 0 => true
    | 1 => decide (pk ≤ pq)
    | 2 => decide (mp ≠ 0) && decide (pk / mp ≤ pq / mp)
    | 3 => decide (mp ≠ 0) && (decide (pk < prm x 4 20 4) || decide (pq - pk + (pk - pq) < mp)) && (!(wfld ws 5 27 27 = 1) || decide (pk ≤ pq))
    | _ => bitOf (spByte s c (spAt ws 13 + (en * aM ws + r) * 32 + pk % 256 / 8)) (pk % 8)

/-- The score of row `r` and head `h` against slot row `p`: a chain over the head's dimensions, a second K-tile added for HD = 256 (R31, R153). -/
def score (s : State) (c : Nat) (ws : List Word32) (o r h p : Nat) : FM FVal :=
  let qf := wfld ws 5 3 0
  let kf := wfld ws 5 7 4
  let n := hdRow ws
  let term := fun d => do
    mulTerm (← operand qf (spElem s c (spAt ws 8) qf n r d)) (← operand kf (spElem s c o kf n p d))
  let chain := fun d0 k => chainSum fZero ((List.range k).map fun i => term (d0 + i))
  if n = 256 then do
    let a ← chain 0 128
    fAdd {} a (← chain 128 128)
  else chain (64 * h) (n / headsOf ws)

/-- One row and head against one tile (R126, R153), as the code of R126 stands: a NaN maximum leaves the row unchanged (log entry 24). The new (mr, lr), the factor for O, and the terms P in KV_FMT; none when the row is unchanged. -/
def tileUpdate (kf : Nat) (mr lr : FVal) (vs : List (Option FVal)) : FM (Option (FVal × FVal × FVal × List (Option FVal))) := do
  let mt ← laneMax (vs.map fun v => v.getD (.inf true))
  if isNan mt || mt = .inf true then pure none
  else
    let mn := fMax mr mt
    let a ← if mr = .inf true then pure fZero else do spExp {} (← fSub {} mr mn)
    let es ← vs.mapM (expTerm {} mn)
    let l1 ← fAdd {} (← fMul {} lr a) (← laneSum {} es)
    let ps ← (vs.zip es).mapM fun q => match q.1 with
      | none => pure none
      | some _ => do pure (some (← convFloat kf {} q.2))
    pure (some (mn, l1, a, ps))

/-- The output columns of head `h` of row `r` after a tile: rescaled by `a`, then the tile's PV chain added (R31, R153). -/
def outUpdate (s : State) (c : Nat) (ws : List Word32) (o p0 r h : Nat) (a : FVal) (ps : List (Option FVal)) : State × BitVec 6 :=
  let kf := wfld ws 5 7 4
  let n := hdRow ws
  let w := n / headsOf ws
  (List.range w).foldl (fun (u : State × BitVec 6) i =>
    let d := w * h + i
    let (v, f) := runFM (do
      let old ← fMul {} (decFloat 0 (oRd u.1 c r d)) a
      let t ← chainSum fZero (((List.range ps.length).zip ps).map fun q => match q.2 with
        | none => pure fZero
        | some p => do mulTerm p (← operand kf (spElem s c (o + 256 * kvRow ws) kf n (p0 + q.1) d)))
      fAdd {} old t)
    (oWr u.1 c r d (encFloat 0 v), u.2 ||| f)) (s, 0)

/-- Scores of one row and head written into its score tile in bank A (R152): even position tiles in rows 0-2,047, odd ones from 2,048 on. -/
def putScores (s : State) (c : Nat) (ws : List Word32) (p0 r h : Nat) (vs : List FVal) : State :=
  let row := r + 2048 * (p0 / tileLen ws % 2)
  ((List.range vs.length).zip vs).foldl (fun u q => accWr u c false row (tileLen ws * h + q.1) (encFloat 0 q.2)) s

/-- The scores of one row and head and what they make of its running state (R126, R153); positions at or beyond FILL hold no data (R157). -/
def tileScores (s : State) (c : Nat) (x : Slot) (o en j fill p0 r h : Nat) (ml : Word32 × Word32) :
    FM (List FVal × Option (FVal × FVal × FVal × List (Option FVal))) := do
  let ws := x.words
  let sc := ofF32 (BitVec.ofNat 32 (prm x 4 24 4))
  let vs ← (List.range (min (tileLen ws) (fill - p0))).mapM fun i => score s c ws o r h (p0 + i)
  let us ← (List.range (tileLen ws)).mapM fun i => do
    match vs[i]? with
    | some v => if visible s c x en r (256 * j + p0 + i) then pure (some (← scaleClamp {} v (← noteNan sc))) else pure none
    | none => pure none
  pure (vs, ← tileUpdate (wfld ws 5 7 4) (ofF32 ml.1) (ofF32 ml.2) us)

/-- One row and head of a tile, slot positions `p0` on: its scores, its running state, its part of O. -/
def tileRow (s : State) (c : Nat) (x : Slot) (o en j fill p0 r h : Nat) (ml : Word32 × Word32) : State × BitVec 6 × (Word32 × Word32) :=
  let ((vs, res), f) := runFM (tileScores s c x o en j fill p0 r h ml)
  let s1 := putScores s c x.words p0 r h vs
  match res with
  | none => (s1, f, ml)
  | some (mn, l1, a, ps) =>
    let (t, g) := outUpdate s1 c x.words o p0 r h a ps
    (t, f ||| g, (toF32 mn, toF32 l1))

/-- Whether a tile has a position visible to some row (R159). -/
def tileSeen (s : State) (c : Nat) (x : Slot) (en j fill p0 : Nat) : Bool :=
  (List.range (tileLen x.words)).any fun i => decide (p0 + i < fill) &&
    (List.range (aM x.words)).any fun r => visible s c x en r (256 * j + p0 + i)

/-- Counters of a tile (R160): passes of 128 load words and S streaming cycles, and the vector engine's cycles. -/
def tileCounts (s : State) (c : Nat) (ws : List Word32) : State :=
  let two := decide (hdRow ws = 256)
  let passes := if two then 4 else 2
  let m := aM ws
  let st := if fmtGroup (wfld ws 5 7 4) = 4 then 2 * m else m
  addCnt (addCnt (addCnt s (coreKey c 0x1D0) (128 * passes)) (coreKey c 0x1CC) (passes * st)) (coreKey c 0x194) ((if two then 4 else 3) * m)

/-- What an ATTN carries from tile to tile: (mr, lr) and flags of each row and head. -/
abbrev Rows := List (Word32 × Word32) × List (BitVec 6)

/-- One position tile over every row and head. -/
def runTile (s : State) (c : Nat) (x : Slot) (o en j fill p0 : Nat) (rows : Rows) : State × Rows :=
  if !tileSeen s c x en j fill p0 then (s, rows)
  else
    let h := headsOf x.words
    let (t, ml, fl) := ((List.range rows.1.length).zip (rows.1.zip rows.2)).foldl (fun (u : State × Rows) q =>
      let (t, f, y) := tileRow u.1 c x o en j fill p0 (q.1 / h) (q.1 % h) q.2.1
      (t, u.2.1 ++ [y], u.2.2 ++ [q.2.2 ||| f])) (s, [], [])
    (tileCounts t c x.words, ml, fl)

/-- One bobbin's tiles in increasing position. -/
def runBobbin (s : State) (c : Nat) (x : Slot) (q : Nat × Nat × Nat × Nat) (rows : Rows) : State × Rows :=
  let (en, j, fill, slot) := q
  let n := tileLen x.words
  (List.range (256 / n)).foldl (fun u i => runTile u.1 c x (t0Slot x.words slot) en j fill (n * i) u.2) (s, rows)

-- ## The end of an ATTN (R125, R153, R161)

/-- Output row `r`: O divided by lr, or +0.0 for a fully masked head (R125). -/
def attnOutRow (s : State) (c : Nat) (ws : List Word32) (ml : List (Word32 × Word32)) (r : Nat) : FM (List Byte) := do
  let n := hdRow ws
  let w := n / headsOf ws
  let vs ← (List.range n).mapM fun d => do
    let lr := ofF32 (ml.getD (r * headsOf ws + d / w) (0, 0)).2
    if isZero lr then pure fZero else fDiv {} (decFloat 0 (oRd s c r d)) lr
  pure (← storeRow (wfld ws 5 11 8) (fun d => outCtl (wfld ws 5 19 12) (ws.getD 7 0).toNat n r d) vs).1

/-- LSE record of one row and head (R124, R125). -/
def lseRecord (m : Word32 × Word32) : FM (List Byte) := do
  let lr := ofF32 m.2
  if isZero lr then pure (f32Bytes [.inf true] ++ toLe 4 1)
  else do pure (f32Bytes [← fAdd {} (ofF32 m.1) (← spLog {} lr)] ++ toLe 4 0)

/-- Output and LSE records written. -/
def attnOutputs (s : State) (c : Nat) (x : Slot) (ml : List (Word32 × Word32)) : State :=
  let ws := x.words
  let nb := rowBytes (wfld ws 5 11 8) (hdRow ws)
  let t := (List.range (aM ws)).foldl (fun u r =>
    let (bs, f) := runFM (attnOutRow u c ws ml r)
    opFlags (spWr u c (spAt ws 9 + r * nb) (bs.take nb)) c x.idx f) s
  let u := if wfld ws 5 25 25 = 1 then
      let (rs, f) := runFM (ml.mapM lseRecord)
      opFlags (spWr t c (spAt ws 12) (rs.flatMap id)) c x.idx f
    else t
  if ml.any fun m => isZero (ofF32 m.2) then updSlot u c x.idx fun y => { y with fmasked := true } else u

/-- The state written (R161): O, then the pairs. -/
def attnState (s : State) (c : Nat) (ws : List Word32) (ml : List (Word32 × Word32)) : State :=
  let n := hdRow ws
  let o := (List.range (aM ws * n)).flatMap fun i => toLe 4 (oRd s c (i / n) (i % n))
  spWr s c (spAt ws 15) (o ++ ml.flatMap fun m => toLe 4 m.1.toNat ++ toLe 4 m.2.toNat)

/-- Flags that an ATTN's rows contribute (R125, R161): a row that ends with lr = +0 takes the result of R125, which sets none, unless the operation passes its state on. -/
def rowFlags (ws : List Word32) (a : AttnRun) : BitVec 6 :=
  (a.ml.zip a.fl).foldl (fun f q => if !stOut ws && isZero (ofF32 q.1.2) then f else f ||| q.2) 0

/-- An ATTN commits and completes: its flags are contributed and both banks are free, A next (R44, R55, R77, R125, R152). -/
def attnFinish (s : State) (c : Nat) (x : Slot) (a : AttnRun) : State :=
  let s1 := opFlags (beginCommit s c x) c x.idx (rowFlags x.words a)
  let s2 := if stOut x.words then attnState s1 c x.words a.ml else attnOutputs s1 c x a.ml
  let y := ((coreOf s2 c).slots.find? fun y => decide (y.idx = x.idx)).getD x
  let s3 := addFlags s2 c y.flags
  let s4 := if y.grange then addFlagBit (wrB s3 (coreKey c 0x184) 0 true) c 6 else s3
  let s5 := if y.fmasked then addFlagBit (wrB s4 (coreKey c 0x18C) 0 true) c 7 else s4
  opComplete (setCore s5 c { offArray (coreOf s5 c) x.idx with nextBank := false }) c x

/-- Whether the list has nothing left: no entry to fetch, none waiting. -/
def attnDone (x : Slot) (a : AttnRun) : Bool := decide ((listCount x).1 ≤ a.fetchAt) && a.ready.isEmpty

/-- ATTN (R153): the bobbins in the slot ring are consumed in list order; after the last one the operation commits. -/
def execAttn (c : CoreId) (s : State) : Out :=
  effect (fun s => match attnOp s c with
    | none => s
    | some x =>
      let (t, a) := attnRun s c x
      let (u, ml, fl) := a.ready.foldl (fun p q => runBobbin p.1 c x q p.2) (t, a.ml, a.fl)
      let a1 := { a with ready := [], ml := ml, fl := fl }
      if attnDone x a1 then attnFinish u c x a1 else setAttn u c a1) s

-- ## KV_WRITE (R167, R171)

/-- POS0 and the bobbins a KV_WRITE touches, first and count. -/
def kvSpan (ws : List Word32) : Nat × Nat :=
  let p := (ws.getD 15 0).toNat
  (p / 256, (p + aM ws - 1) / 256 - p / 256 + 1)

/-- Rows of a KV_WRITE that lie in bobbin `j`: first row, position in the bobbin, count. -/
def kvRows (ws : List Word32) (j : Nat) : Nat × Nat × Nat :=
  let p := (ws.getD 15 0).toNat
  let lo := max p (256 * j)
  let hi := min (p + aM ws) (256 * j + 256)
  (lo - p, lo - 256 * j, hi - lo)

/-- The memory writes of a KV_WRITE in bobbin `j` at address `a`: memory address, scratchpad offset, length; K, then V. -/
def kvParts (ws : List Word32) (j a : Nat) : List (Nat × Nat × Nat) :=
  let (r, p, n) := kvRows ws j
  let k := kvRow ws
  [(a + p * k, spAt ws 8 + r * k, n * k), (a + (256 + p) * k, spAt ws 9 + r * k, n * k)]

/-- Rows written to memory. -/
def copyOut (w : Who) (c l : Nat) : List (Nat × Nat × Nat) → State → State × Option AccErr
  | [], s => (s, none)
  | (a, o, n) :: r, s =>
    match loomWrite s w l a (spRd s c o n) with
    | (t, some e) => (t, some e)
    | (t, none) => copyOut w c l r t

/-- The entry after its rows are written (R167 step 4). -/
def kvEntry (s : State) (ws : List Word32) (j : Nat) (e : BobEnt) : BobEnt :=
  let (_, p, n) := kvRows ws j
  { e with fill := max e.fill (p + n), dirty := true, busy := false, age := ageNow s }

/-- The entry of bobbin `j` made valid in T1 when it is not (R167 step 1); `wait` when it is BUSY or the T1 ring is empty. -/
def kvPlace (s : State) (c l : Nat) (x : Slot) (j : Nat) : State × Got BobEnt :=
  let w := coreWho c x.idx
  match loomRead s w l (entAddr x 0 j) 16 with
  | (t, .error e) => (t, .err e)
  | (t, .ok b) =>
    let e := bobOf b
    if e.valid then (t, if e.busy then .wait else .val e)
    else match popSlot t w l 1 with
      | (u, .wait) => (stallCheck u l, .wait)
      | (u, .err er) => (u, .err er)
      | (u, .val a) => (stallCheck u l, .val { e with addr := a, tier := 1, valid := true, busy := false, fill := 0 })

/-- A KV_WRITE completes; positions beyond the table, or a table longer than 65,536 entries, raise GATHER_RANGE (R163, log entry 24). -/
def kvFinish (s : State) (c : Nat) (x : Slot) : State :=
  let y := ((coreOf s c).slots.find? fun y => decide (y.idx = x.idx)).getD x
  opComplete (if y.grange || decide (65536 < prm x 0 8 4) then addFlagBit (wrB s (coreKey c 0x184) 0 true) c 6 else s) c x

/-- One bobbin of a KV_WRITE (R167): its entry made valid, its rows written, then FILL, DIRTY and AGE. The Boolean tells whether the next bobbin's turn has come. -/
def kvOne (s : State) (c l : Nat) (x : Slot) (j : Nat) : State × Bool :=
  let w := coreWho c x.idx
  let next := fun (t : State) => updSlot t c x.idx fun y => { y with pos := y.pos + 1 }
  if tableLen x 0 ≤ j then (next (noteRange s c x), true)
  else match kvPlace s c l x j with
    | (t, .wait) => (t, false)
    | (t, .err e) => (opAccessErr t c x e, false)
    | (t, .val e) =>
      match copyOut w c l (kvParts x.words j e.addr) (if x.committing then t else beginCommit t c x) with
      | (u, some er) => (opAccessErr u c x er, false)
      | (u, none) => match putEnt u w l (entAddr x 0 j) (kvEntry u x.words j e) with
        | (v, some er) => (opAccessErr v c x er, false)
        | (v, none) => (next v, true)

/-- A KV_WRITE carried on bobbin by bobbin, until one waits. -/
def kvLoop (c : Nat) : Nat → State → State
  | 0, s => s
  | f + 1, s =>
    match issuedOp s c (isOp 0x09) with
    | none => s
    | some x =>
      if (kvSpan x.words).2 ≤ x.pos then kvFinish s c x
      else
        let r := kvOne (fresh s) c (coreLoom s c) x ((kvSpan x.words).1 + x.pos)
        let (t, ok) := workUnit s r.1
        if ok && r.2 then kvLoop c f t else t

/-- KV_WRITE (R167). -/
def execKvWrite (c : CoreId) (s : State) : Out := effect (posting fun s => kvLoop c 10 s) s

-- ## Spill (R170, R171)

/-- SPILL_START (R170): the engine starts while its loom is RUNNING. -/
def execSpillStart (l : LoomId) (s : State) : Out :=
  effect (awake <| posting fun s =>
    let k := l.val
    let t := stallCheck s k
    if decide (loomSt s k = 2) && bobCtrl s k 0 && decide (bobHigh s k < usedT1 s k) then wrB t (loomKey k 0x404) 0 true else t) s

/-- The spill engine of a loom as the unit that makes its accesses. -/
def spillWho (l : Nat) : Who := ⟨0x025, l, 0⟩

/-- A read of the spill engine; a failed one is reported and reads as nothing. -/
def spillRead (s : State) (l a n : Nat) : State × List Byte :=
  match loomRead s (spillWho l) l a n with
  | (t, .error e) => (moveErr t l e, List.replicate n 0)
  | (t, .ok b) => (t, b)

/-- Table records of a loom's directories, in order: base and entry count. -/
def spillTables (s : State) (l : Nat) : State × List (Nat × Nat) :=
  let es := ((s.creel.map Prod.fst).foldl (fun b i => insNat i b) []).filterMap fun i => match tfind s.creel i with
    | some e => if e.loom = l ∧ 1 ≤ e.state ∧ e.state ≤ 4 then some e.bobbinPtr.toNat else none
    | none => none
  es.foldl (fun u p =>
    let (t, h) := spillRead u.1 l p 16
    (List.range (min 4096 (fieldLe h 0 4))).foldl (fun v i =>
      let (w, r) := spillRead v.1 l (p + 16 + 16 * i) 16
      (w, v.2 ++ [(fieldLe r 0 8, fieldLe r 8 4)])) (t, u.2)) (s, [])

/-- Whether the spill engine may move an entry's bobbin (R170). -/
def spillable (e : BobEnt) : Bool := decide (e.tier = 1) && e.valid && !e.pinned && !e.busy

/-- Candidates: entry address and age, oldest first, ties in scanning order (R170, R20). -/
def spillPick (s : State) (l : Nat) (ts : List (Nat × Nat)) : State × List (Nat × Nat) :=
  ts.foldl (fun u p => (List.range p.2).foldl (fun v i =>
    let a := p.1 + 16 * i
    let (w, b) := spillRead v.1 l a 16
    let e := bobOf b
    let d := (ageNow s + 2 ^ 32 - e.age) % 2 ^ 32
    if spillable e then
      (w, v.2.takeWhile (fun q => decide (d ≤ q.2)) ++ (a, d) :: v.2.dropWhile (fun q => decide (d ≤ q.2)))
    else (w, v.2)) u) (s, [])

/-- Up to 64 candidates chosen. -/
def spillScan (s : State) (l : Nat) : State :=
  let (t, ts) := spillTables s l
  let (u, cs) := spillPick t l ts
  setLoom u l { loomOf u l with cands := (cs.take 64).map Prod.fst }

/-- The move of the first candidate begins (R170); one that may no longer move, or whose access fails, is passed over. -/
def spillBegin (s : State) (l ea t : Nat) : State :=
  let s1 := setLoom s l { loomOf s l with cands := (loomOf s l).cands.drop 1 }
  let (u, b) := spillRead s1 l ea 16
  let e := bobOf b
  if !spillable e then u
  else
    let (v, m) := startMove u (spillWho l) l ea e t (65536 * 2 ^ rdF s (loomKey l 0x400) 5 4)
    setLoom v l { loomOf v l with spill := m }

/-- One step of the engine (R170, R171): the move in progress is finished; otherwise, while the loom runs and the slots in use are not below LOW, the next candidate's begins. The Boolean tells whether there may be more to do now. -/
def spillStep (s : State) (l : Nat) : State × Bool :=
  match (loomOf s l).spill with
  | some m =>
    let (t, ok) := workUnit s (finishMove (fresh s) (spillWho l) m)
    (if ok then stallCheck (setLoom t l { loomOf t l with spill := none }) l else t, ok)
  | none =>
    if !fbit (rd s (loomKey l 0x404)) 0 || decide (loomSt s l ≠ 2) then (s, false)
    else if usedT1 s l < bobLow s l then (setLoom (wrB s (loomKey l 0x404) 0 false) l { loomOf s l with cands := [] }, false)
    else match (loomOf s l).cands, spillTier s l with
      | _, none => (stallCheck s l, false)
      | [], some _ =>
        let (t, ok) := workUnit s (spillScan (fresh s) l)
        (t, ok && !(loomOf t l).cands.isEmpty)
      | ea :: _, some t => workUnit s (spillBegin (fresh s) l ea t)

/-- The engine carried on until a step waits. -/
def spillLoop (l : Nat) : Nat → State → State
  | 0, s => s
  | f + 1, s =>
    let (t, more) := spillStep s l
    if more then spillLoop l f t else t

/-- SPILL_MOVE (R170): up to 64 candidates; the engine stops below LOW. -/
def execSpillMove (l : LoomId) (s : State) : Out := effect (awake <| posting fun s => spillLoop l.val 130 s) s

/-- A POOL register written (R168): every address in the ring is free. Ignored unless the loom is CREATED or QUIESCED. -/
def poolWrite (s : State) (l t : Nat) (v : Word32) : State :=
  if loomSt s l = 1 ∨ loomSt s l = 4 then
    let k := loomOf s l
    let s1 := setLoom s l { k with freeHead := tput k.freeHead t 0, freeTail := tput k.freeTail t 0 }
    wrF (wr s1 (tierKey l t 8) (v &&& 0x1FFFFFF)) (tierKey l t 0xC) 24 0 (fld v 24 0)
  else s

/-- LOOM_BOB_POOL_WRITE (R168). -/
def execLoomBobPoolWrite (l : LoomId) (tier : Fin 3) (v : Word32) (s : State) : Out := effect (onPage (loomKey l 0) (0x418 + 0x10 * tier.val) fun s => poolWrite s l.val (tier.val + 1) v) s

end Sys2Proof.Machine
end

