-- ==== Sys2Proof/Machine/Codec.lean ====
section
/-! DEFINITION. The sixteen codec channels (R350-R375): sessions, the command queues, band reads, slices, decoded pictures, stalls and faults. What the codec computes is a free value (log entry 9); how it moves and records it is the spec's. -/

namespace Sys2Proof.Machine

/-- Field of a channel's session record (R358). -/
def sess (k : Codec) (off n : Nat) : Nat := fieldLe (k.session.getD []) off n

/-- Encode channels are 8-15 (R350). -/
def isEnc (n : Nat) : Bool := decide (8 ≤ n)

/-- A channel as the unit that makes its accesses. -/
def codecWho (n : Nat) : Who := ⟨0x070, n, 0⟩

/-- Whether a channel's clock runs and no fault or reset stops it (R373, R387). -/
def codecClock (s : State) (n : Nat) : Bool :=
  !s.board.thermTrip && !fbit (rd s (codecKey n 0x100)) 10 && !(blkOf s (codecKey n 0)).resetting

/-- Whether a channel may begin new work: not paused at S4 (R372). -/
def codecRuns (s : State) (n : Nat) : Bool := codecClock s n && decide (shedLevel s < 4)

/-- Units of the syntax buffers a session works with (R352, R356): 1,024 for each channel. -/
def synRoom (k : Codec) : Nat := if k.session.any sessGang then 4096 else 1024

/-- Whether the producer holds back units that find no free one (R352). -/
def synFull (k : Codec) : Bool := decide (synRoom k < k.syn)

/-- Units that lie in a channel's own buffer (R352, R375): a gang fills its members' buffers in turn (log entry 9). -/
def synOcc (s : State) (n : Nat) : Nat :=
  if ganged s n then min 1024 ((codecOf s (leaderOf n)).syn - 1024 * (n - leaderOf n)) else min 1024 (codecOf s n).syn

/-- CODEC_STAT, CODEC_SYN_OCC and BLK_PWR_STATE of one channel brought up to date (R375, R442). -/
def syncChan (s : State) (n : Nat) : State :=
  let k := codecOf s n
  let closing := k.session.isSome && match k.cmds with
    | x :: _ => decide (opcode x.words = 0x38) || (decide (opcode x.words = 0x3B) && decide (wfld x.words 5 4 4 = 1))
    | [] => false
  let work := !k.cmds.isEmpty || k.cur.isSome || !k.held.isEmpty
  let st := if !k.on then 0 else if closing then 3 else if work then 2 else 1
  let g := ganged s n
  let a := codecKey n 0x100
  let s1 := wrB (wrB (wrF s a 1 0 st) a 2 k.session.isSome) a 3 g
  let s2 := wrF (wrB (wrF s1 a 7 4 (if g then leaderOf n else 0)) a 8 k.waitSince.isSome) a 15 11 k.cmds.length
  let s3 := wrF (wrB s2 a 9 (codecPaused s n)) (codecKey n 0x104) 10 0 (synOcc s n)
  wrF s3 (codecKey n 0x38) 1 0 (if k.on then 0 else 2)

/-- The registers of a channel and its gang brought up to date. -/
def syncGang (s : State) (n : Nat) : State := (List.range 4).foldl (fun t i => syncChan t (leaderOf n + i)) s

/-- Bitstream bytes counted in units of 4 KiB (R375). -/
def codecBytes (s : State) (n m : Nat) : State :=
  let k := codecOf s n
  addCnt (setCodec s n { k with bytes := (k.bytes + m) % 4096 }) (codecKey n 0x114) ((k.bytes + m) / 4096)

/-- Whether a knot field names no knot or one of the loom's (R358). -/
def knotFieldOk (s : State) (l v : Nat) : Bool := decide (v = 0xFFFF) || knotInLoom s l v

/-- Whether a session record breaks a rule of R358 for channel `n` of loom `l`. The highest encode level is 5.1, or 6 when ganged (R354). -/
def sessionBad (s : State) (l n : Nat) (b : List Byte) : Bool :=
  let std := byteAt b 0 % 4
  let gang := sessGang b
  let w := fieldLe b 4 2
  let h := fieldLe b 6 2
  let r := fieldLe b 36 4
  let common := decide (std = 3) || decide (16 ≤ byteAt b 0) || (bitOf (byteAt b 0) 3 && !(decide (std = 1) && !isEnc n)) ||
    (gang && !(decide (leaderOf n = n) && (List.range 4).all fun i => bitOf (lvF s l 0x128 15 0) (leaderOf n + i))) ||
    decide (2 ^ 18 ≤ r) || !(decide (ringLoom s r = some l) && decide ((ringOf s r).kind = 4)) ||
    !knotFieldOk s l (fieldLe b 88 2) || !zeros b 52 56 || !zeros b 75 80 || !zeros b 90 256
  if isEnc n then
    let chroma := bitOf (byteAt b 1) 0
    let depth := bitOf (byteAt b 1) 1
    let level := byteAt b 2 % 128
    let qmax := if std = 0 then 51 else 255
    common || decide (std = 2) || decide (4 ≤ byteAt b 1) || (decide (std = 1) && chroma && !depth) ||
    decide ((if std = 0 then (if gang then 60 else 51) else (if gang then 16 else 13)) < level) ||
    decide (byteAt b 3 / 4 % 4 ≠ 0) || decide (w % 8 ≠ 0) || decide (h % 8 ≠ 0) ||
    decide ((if gang then 35651584 else 8912896) < w * h) || decide ((if gang then 16888 else 8448) < max w h) ||
    decide (qmax < byteAt b 28) || decide (qmax < byteAt b 29) || decide (qmax < byteAt b 30) ||
    decide (fieldLe b 48 4 % 4096 ≠ 0) || decide (fieldLe b 48 4 < 0x100000) ||
    !knotFieldOk s l (fieldLe b 70 2) || decide (fieldLe b 68 2 < 2 + byteAt b 3 / 16)
  else
    common || !zeros b 1 36 || !zeros b 40 52 || !zeros b 70 72

/-- The 64 bytes of an output record (R371). -/
def codecRecord (s : State) (n kind flags addr len errs : Nat) (pts : Word64) (w h sliceIdx : Nat) : List Byte :=
  let k := codecOf s n
  toLe 1 kind ++ toLe 1 flags ++ toLe 2 n ++ toLe 4 k.picSeq ++ toLe 8 addr ++ toLe 4 len ++ toLe 4 errs ++
  toLe 8 pts.toNat ++ toLe 8 (sess k 80 8) ++ toLe 2 w ++ toLe 2 h ++ toLe 4 sliceIdx ++ toLe 8 0 ++ toLe 8 s.time.toNat

/-- A record written into OUT_RING, or nothing while it waits (R371). -/
def codecPush (s : State) (n : Nat) (bs : List Byte) : State × Bool :=
  let k := codecOf s n
  tryPush s (codecWho n) k.loom (sess k 36 3 % 2 ^ 18) bs

/-- Whether OUT_RING takes a record of a channel now (R371). -/
def outReady (s : State) (n : Nat) : Bool :=
  let k := codecOf s n
  ringOpen s (codecWho n) k.loom (sess k 36 3 % 2 ^ 18) 1

/-- Whether the next write to OUT_RING fails its check (R201). -/
def outBad (s : State) (n : Nat) : Bool :=
  let k := codecOf s n
  (badSlot s k.loom (sess k 36 3 % 2 ^ 18)).isSome

/-- Ranges whose records RP has not passed (R371). -/
def stillUsed (s : State) (k : Codec) : List (Word32 × Nat × Nat) :=
  let g := ringOf s (sess k 36 3 % 2 ^ 18)
  k.used.filter fun u => decide ((u.1 - g.rp).toNat < ringHeld g)

/-- PIC_KNOT or SRC_DONE_KNOT of the session signalled by 1 (R363, R371). -/
def codecKnot (s : State) (v : Nat) : State := if v = 0xFFFF then s else queueKnot s v false 1

/-- A channel's command ends: it leaves the queue and its operation completes (R359). -/
def endCodecCmd (s : State) (n : Nat) : State :=
  let k := codecOf s n
  match k.cmds with
  | [] => s
  | x :: r =>
    let s1 := setCodec s n { k with cmds := r }
    match (coreOf s1 x.core).slots.find? fun y => decide (y.idx = x.idx) && y.committing with
    | some y => opComplete s1 x.core y
    | none => s1

/-- A command refused (R360, R374): the event alone reports it. -/
def refuseCmd (s : State) (n cause : Nat) : State :=
  endCodecCmd (wrF (codecEvent s n 0x100 cause) (codecKey n 0x118) 7 0 cause) n

/-- Whether every picture of the session has been coded (R359, R360). -/
def flushed (s : State) (n : Nat) : Bool :=
  let k := codecOf s n
  if isEnc n then k.held.isEmpty && k.cur.isNone
  else k.discard || decide (Config.pictureCount (k.session.getD []) (k.stream ++ [[]]) ≤ k.picSeq)

/-- The session gone; the channel keeps its queue (R359, R360). -/
def dropSession (s : State) (n : Nat) (stayOn : Bool) : State :=
  let k := codecOf s n
  setCodec s n { cmds := k.cmds, loom := k.loom, on := stayOn, bytes := k.bytes }

/-- CONFIG with no session open (R358): the record is read, checked, and opens the session or is refused. -/
def openSession (s : State) (n : Nat) (x : CodecCmd) : State :=
  let l := (codecOf s n).loom
  let s0 := setCodec s n { codecOf s n with on := true }
  match loomRead s0 (codecWho n) l (w64 x.words 6).toNat 256 with
  | (t, .error e) =>
    refuseCmd (if e.status = 3 then postAccessFault t l e.addr x.idx x.core 0x070 n else postFetchError t l e 0x070 n) n 2
  | (t, .ok b) =>
    if sessionBad t l n b then refuseCmd t n 2
    else endCodecCmd (setCodec t n { codecOf t n with session := some b }) n

/-- DECODE (R352, R357): the chunk is fetched, and the entropy engine makes its syntax. A chunk that cannot be read is reported and lost. -/
def takeChunk (s : State) (n : Nat) (x : CodecCmd) : State :=
  let l := (codecOf s n).loom
  match loomRead s (codecWho n) l (w64 x.words 6).toNat (x.words.getD 8 0).toNat with
  | (t, .error e) =>
    endCodecCmd (if e.status = 3 then postAccessFault t l e.addr x.idx x.core 0x070 n else postFetchError t l e 0x070 n) n
  | (t, .ok bs) =>
    let k := codecOf t n
    let pos := (k.stream.map List.length).sum
    let stream := k.stream.dropLast ++ [(k.stream.getLast?.getD []) ++ bs]
    codecBytes (setCodec t n { k with
      stream := stream
      marks := k.marks ++ [(pos, w64 x.words 10)]
      stallPosted := false
      waitSince := none
      cmds := { x with read := true } :: k.cmds.drop 1
      syn := k.syn + Config.chunkUnits (k.session.getD []) stream }) n bs.length

/-- The entropy engine has read the chunk's last byte (R359, R370): its DECODE completes, and without another command the engine waits for input. -/
def chunkRead (s : State) (n : Nat) : State :=
  let k := codecOf s n
  endCodecCmd (setCodec s n { k with waitSince := if k.cmds.length ≤ 1 then some s.time else none }) n

/-- Lookahead in force (R364): 0 while shedding level S1 or higher is in force. -/
def lookahead (s : State) (k : Codec) : Nat := if 1 ≤ shedLevel s then 0 else byteAt (k.session.getD []) 3 / 16

/-- CTB rows of a picture of the session (R363). -/
def ctbRows (k : Codec) : Nat := cdiv (sess k 6 2) 64

/-- ENCODE at the front of the queue (R363, R365): its picture begins, key by GOP or FORCE_KEY. -/
def beginPicture (k : Codec) (x : CodecCmd) : Codec :=
  let gop := sess k 32 4
  let first := k.coded.isEmpty && k.held.isEmpty
  let force := decide (wfld x.words 5 4 4 = 1)
  let key := first || force || (decide (0 < gop) && decide (gop ≤ k.sinceKey))
  { k with cur := some { pts := w64 x.words 10, force := force, key := key }, sinceKey := if key then 1 else k.sinceKey + 1 }

/-- Record of the band that the picture in progress reads next (R363). -/
def bandRecord (s : State) (n : Nat) (x : CodecCmd) : State × Except AccErr (List Byte) :=
  loomRead s (codecWho n) (codecOf s n).loom ((w64 x.words 6).toNat + 32 * x.band) 32

/-- Whether a band's knot condition holds (R363). -/
def bandReady (s : State) (b : List Byte) : Bool :=
  decide (fieldLe b 20 2 = 0xFFFF) || decide (fieldLe b 24 8 ≤ (knotOf s (fieldLe b 20 2)).toNat)

/-- Whether the encoder waits for input: its next band's knot is not reached (R370). -/
def bandWaits (s : State) (n : Nat) (x : CodecCmd) : Bool :=
  match bandRecord (fresh s) n x with
  | (t, .ok b) => t.trip.need.isNone && !bandReady s b
  | _ => false

/-- A wait for input begins, or goes on (R370). -/
def noteWait (s : State) (n : Nat) (waits : Bool) : State :=
  let k := codecOf s n
  setCodec s n (if waits then { k with waitSince := some (k.waitSince.getD s.time) } else { k with waitSince := none, stallPosted := false })

/-- FLUSH whose pictures are all coded, or the flush of a CONFIG on an open session (R359, R360, R371): the END record. None while the ring has no space. -/
def flushEnd (s : State) (n : Nat) : State × Bool :=
  match codecPush s n (codecRecord s n 2 0 0 0 0 0 0 0 0) with
  | (t, true) =>
    let k := codecOf t n
    (setCodec t n { k with stream := if isEnc n then k.stream else k.stream ++ [[]], syn := 0, eaten := 0, waitSince := none, stallPosted := false }, true)
  | (t, false) => (t, false)

-- ## The slice coded next (R352, R363-R365)

/-- The picture coded next, and whether it may be coded now (R363, R364): directly from its bands, or, with lookahead, once LOOKAHEAD pictures are held and another arrives or a flush asks for it. -/
def codable (s : State) (k : Codec) : Option CodecPic :=
  let begun := k.made || decide (0 < k.slice)
  match k.held with
  | p :: _ =>
    if p.err || begun || decide (lookahead s k = 0) || (decide (lookahead s k ≤ k.held.length) && !k.cmds.isEmpty) ||
       (match k.cmds with
        | x :: _ => decide (opcode x.words ≠ 0x3A)
        | [] => false) then some p else none
  | [] => if begun || decide (lookahead s k = 0) then k.cur else none

/-- CTB rows that slices up to `i` cover (R363): SLICE_ROWS 0 means one slice per picture. -/
def rowsTo (k : Codec) (i : Nat) : Nat :=
  let r := byteAt (k.session.getD []) 31
  if r = 0 then ctbRows k else min ((i + 1) * r) (ctbRows k)

/-- The source pictures on which the slice coded next depends (R365): their samples, FORCE_KEY, and the lookahead applied. -/
def sources (s : State) (k : Codec) (p : CodecPic) : List (List Byte × Bool × Nat) :=
  let la := min (lookahead s k) k.held.length
  k.coded ++ if la = 0 then [((p.bands.take (rowsTo k k.slice)).flatten, p.force, 0)]
             else k.held.map fun q => (q.bands.flatten, q.force, la)

/-- The bytes of the slice coded next (R365). -/
def nextSlice (s : State) (k : Codec) (p : CodecPic) : List Byte :=
  Config.codedSlice (k.session.getD []) (sources s k p) k.coded.length k.slice

/-- The pixel engine begins the slice coded next once its rows are there (R352, R363, R372): it makes the slice's syntax. -/
def startSlice (s : State) (n : Nat) : State :=
  let k := codecOf s n
  if !codecRuns s n || !isEnc n || k.session.isNone || k.made then s
  else match codable s k with
  | none => s
  | some p =>
    if p.err || decide (p.bands.length < rowsTo k k.slice) then s
    else setCodec s n { k with made := true, syn := Config.sliceUnits (k.session.getD []) (sources s k p) k.coded.length k.slice }

-- ## The command queue (R357, R359, R360)

/-- Whether the front command ends the input (R370): a FLUSH, or a CONFIG on the open session. -/
def inputEnds (k : Codec) : Bool :=
  match k.cmds with
  | x :: _ => decide (opcode x.words = 0x3B) || decide (opcode x.words = 0x38)
  | [] => false

/-- One step of the front command of a channel (R360): the state after it, and whether the next may follow; none while the command waits. -/
def chanStep (s : State) (n : Nat) : Option (State × Bool) :=
  let k := codecOf s n
  match k.cmds with
  | [] => none
  | x :: _ =>
    let op := opcode x.words
    if !codecRuns s n then none
    else if ganged s n ∧ leaderOf n ≠ n then some (refuseCmd s n 5, true)
    else if k.session.isNone then some (if op = 0x38 then openSession s n x else refuseCmd s n 1, true)
    else if op = 0x38 then
      if !flushed s n then none
      else match flushEnd s n with
        | (t, true) => some (dropSession t n true, true)
        | (t, false) => some (t, false)
    else if op = 0x39 then
      if isEnc n then some (refuseCmd s n 6, true)
      else if !x.read then some (takeChunk s n x, true)
      else if synFull k then none
      else some (chunkRead s n, true)
    else if op = 0x3A then
      if !isEnc n then some (refuseCmd s n 6, true)
      else if wfld x.words 8 8 0 ≠ ctbRows k then some (refuseCmd s n 2, true)
      else
        let s1 := if k.cur.isNone then setCodec s n (beginPicture k x) else s
        some (noteWait s1 n (bandWaits s1 n x), false)
    else
      if !flushed s n then none
      else match flushEnd s n with
        | (t, true) =>
          let t1 := endCodecCmd t n
          some (if wfld x.words 5 4 4 = 1 then dropSession t1 n false else t1, true)
        | (t, false) => some (t, false)

/-- Commands of a channel carried out in order as far as they can be (R360): each step when its accesses are served. -/
def chanRun : Nat → State → Nat → State
  | 0, s, _ => s
  | f + 1, s, n =>
    match chanStep (fresh s) n with
    | none => s
    | some (t, more) => match workUnit s t with
      | (u, true) => if more then chanRun f u n else u
      | (u, false) => u

/-- A channel's commands carried out, its pixel engine at work, its registers up to date. Each of its at most 16 commands takes at most three rounds. -/
def chanGo (s : State) (n : Nat) : State := syncGang (startSlice (chanRun 50 s n) n) n

/-- A command of one channel: `f` once its accesses are served, then what the channel can do; at S5 its clock is off (R393). -/
def chanEffect (n : Nat) (f : State → State) (s : State) : Out := effect (awake <| posting fun s => chanGo (asking f s) n) s

/-- A codec operation issued by a core (R357, R359): it commits at once and its command enters the channel's queue of 16; it waits while the queue is full or the channel accepts no commands (R373). -/
def takeCmd (s : State) (c op : Nat) : State :=
  match issuedFresh s c (isOp op) with
  | none => s
  | some x =>
    let n := wfld x.words 5 3 0
    let k := codecOf s n
    if 16 ≤ k.cmds.length ∨ (blkOf s (codecKey n 0)).pending ∨ (blkOf s (codecKey n 0)).resetting then s
    else setCodec (beginCommit s c x) n { k with cmds := k.cmds ++ [{ core := c, idx := x.idx, words := x.words }], loom := coreLoom s c }

/-- A core's codec operation issued, and the channels that hold commands of the core at work. -/
def codecIssue (s : State) (c op : Nat) : State :=
  (List.range 16).foldl (fun t n => if (codecOf t n).cmds.any fun x => decide (x.core = c) then chanGo t n else t) (takeCmd s c op)

/-- CODEC_CONFIG (R358, R360). -/
def execCodecConfig (c : CoreId) (s : State) : Out := effect (awake <| posting fun s => codecIssue s c 0x38) s

/-- CODEC_DECODE (R352, R357, R359). -/
def execCodecDecode (c : CoreId) (s : State) : Out := effect (awake <| posting fun s => codecIssue s c 0x39) s

/-- CODEC_ENCODE (R363). -/
def execCodecEncode (c : CoreId) (s : State) : Out := effect (awake <| posting fun s => codecIssue s c 0x3A) s

/-- CODEC_FLUSH (R359, R360). -/
def execCodecFlush (c : CoreId) (s : State) : Out := effect (awake <| posting fun s => codecIssue s c 0x3B) s

-- ## Encode (R363-R365)

/-- Bytes of one sample (R362). -/
def encSample (k : Codec) : Nat := if bitOf (byteAt (k.session.getD []) 1) 1 then 2 else 1

/-- Bytes of one row of either plane (R362). -/
def encRow (k : Codec) : Nat := sess k 4 2 * encSample k

/-- Luma and chroma rows of band `b` (R362, R363). -/
def bandRows (k : Codec) (b : Nat) : Nat × Nat :=
  let r := min 64 (sess k 6 2 - 64 * b)
  (r, if bitOf (byteAt (k.session.getD []) 1) 0 then r else r / 2)

/-- Bits [15:10] of a 10-bit sample are ignored (R362). -/
def cleanRow (k : Codec) (bs : List Byte) : List Byte :=
  if encSample k = 2 then (List.range bs.length).map fun i => if i % 2 = 1 then bs.getD i 0 &&& 3 else bs.getD i 0 else bs

/-- `rows` rows of a band read from `a` on. -/
def readRows (s : State) (n pitch w : Nat) : Nat → Nat → State × Except AccErr (List (List Byte))
  | 0, _ => (s, .ok [])
  | r + 1, a =>
    match loomRead s (codecWho n) (codecOf s n).loom a w with
    | (t, .error e) => (t, .error e)
    | (t, .ok bs) => match readRows t n pitch w r (a + pitch) with
      | (u, .ok xs) => (u, .ok (bs :: xs))
      | (u, .error e) => (u, .error e)

/-- Pitch of a picture buffer's planes (R362). -/
def bufPitch (rowBytes : Nat) : Nat := roundUp rowBytes 256

/-- Rows written into a plane at `a`; the first failing write is told. -/
def writeRows (s : State) (w : Who) (l pitch : Nat) : Nat → List (List Byte) → State × Option AccErr
  | _, [] => (s, none)
  | a, b :: r => match loomWrite s w l a b with
    | (t, some e) => (t, some e)
    | (t, none) => writeRows t w l pitch (a + pitch) r

/-- A band copied into its lookahead slot (R362, R364): slot 2 + picture mod LOOKAHEAD. -/
def copyBand (s : State) (n b : Nat) (luma chroma : List (List Byte)) : State × Option AccErr :=
  let k := codecOf s n
  let la := byteAt (k.session.getD []) 3 / 16
  if lookahead s k = 0 then (s, none)
  else
    let base := sess k 56 8 + (2 + (k.coded.length + k.held.length) % la) * sess k 64 4
    let p := bufPitch (encRow k)
    let cb := base + p * roundUp (sess k 6 2) 64
    match writeRows s (codecWho n) k.loom p (base + p * 64 * b) luma with
    | (t, some e) => (t, some e)
    | (t, none) => writeRows t (codecWho n) k.loom p (cb + p * ((bandRows k 0).2 * b)) chroma

/-- The picture in progress is complete, or ended by an error; its ENCODE completes (R359, R363). -/
def endReading (s : State) (n : Nat) (p : CodecPic) : State :=
  let k := codecOf s n
  endCodecCmd (setCodec s n { k with cur := none, held := k.held ++ [p], waitSince := none, stallPosted := false }) n

/-- A band that is missing or fails its check ends the picture, and the access is reported (R363). -/
def failPicture (s : State) (n : Nat) (x : CodecCmd) (p : CodecPic) (e : AccErr) : State :=
  let l := (codecOf s n).loom
  let s1 := if e.status = 3 then postAccessFault s l e.addr x.idx x.core 0x070 n else postFetchError s l e 0x070 n
  endReading s1 n { p with err := true }

/-- One band read (R363): once its knot is reached and, with lookahead, a slot is free (R364). -/
def bandRead (s : State) (n : Nat) : State :=
  let k := codecOf s n
  match k.cmds, k.cur with
  | x :: _, some p =>
    if !codecRuns s n ∨ opcode x.words ≠ 0x3A then s
    else if 0 < lookahead s k ∧ lookahead s k ≤ k.held.length then s
    else match bandRecord s n x with
      | (t, .error e) => failPicture t n x p e
      | (t, .ok b) =>
        let wk := fieldLe b 20 2
        if !knotFieldOk t k.loom wk then failPicture t n x p ⟨3, none, (w64 x.words 6).toNat + 32 * x.band⟩
        else if !bandReady t b then noteWait t n true
        else
          let pitch := fieldLe b 16 4
          match readRows t n pitch (encRow k) (bandRows k x.band).1 (fieldLe b 0 8) with
          | (u, .error e) => failPicture u n x p e
          | (u, .ok luma0) => match readRows u n pitch (encRow k) (bandRows k x.band).2 (fieldLe b 8 8) with
            | (v, .error e) => failPicture v n x p e
            | (v, .ok chroma0) =>
              let luma := luma0.map (cleanRow k)
              let chroma := chroma0.map (cleanRow k)
              match copyBand v n x.band luma chroma with
              | (w, some e) => failPicture w n x p e
              | (w, none) =>
                let p1 := { p with bands := p.bands ++ [(luma ++ chroma).flatten] }
                let w1 := codecKnot w (sess k 70 2)
                if x.band + 1 = ctbRows k then endReading w1 n p1
                else
                  let k1 := codecOf w1 n
                  let w2 := setCodec w1 n { k1 with cur := some p1, cmds := { x with band := x.band + 1 } :: k1.cmds.drop 1 }
                  noteWait w2 n (bandWaits w2 n { x with band := x.band + 1 })
  | _, _ => s

/-- CODEC_BAND_READ (R363). -/
def execCodecBandRead (n : ChanId) (s : State) : Out := chanEffect n (fun s => bandRead s n) s

/-- The last slice of a picture is recorded (R365, R371): the picture joins the coded ones, is counted, and PIC_KNOT is signalled. -/
def pictureCoded (s : State) (n : Nat) (p : CodecPic) (err : Bool) : State :=
  let k := codecOf s n
  let la := min (lookahead s k) k.held.length
  let s1 := setCodec s n { k with held := k.held.drop 1, coded := k.coded ++ [(p.bands.flatten, p.force, la)], slice := 0, made := false, syn := 0, picSeq := k.picSeq + 1 }
  let s2 := addCnt s1 (codecKey n 0x108) 1
  let s3 := if err then addCnt s2 (codecKey n 0x10C) 1 else s2
  codecKnot s3 (sess k 88 2)

/-- A picture whose slice cannot be written is ended by the error (R363): it is read no further. -/
def failCoding (s : State) (n : Nat) (p : CodecPic) : State :=
  let k := codecOf s n
  match k.held with
  | _ :: r => setCodec s n { k with held := { p with err := true } :: r, made := false, syn := 0 }
  | [] => endReading (setCodec s n { k with made := false, syn := 0 }) n { p with err := true }

/-- Bytes written into the bitstream buffer from `pos` on, continued at its base (R371). -/
def writeBitstream (s : State) (n pos : Nat) (bs : List Byte) : State × Option AccErr :=
  let k := codecOf s n
  let base := sess k 40 8
  let head := bs.take (sess k 48 4 - pos)
  match loomWrite s (codecWho n) k.loom (base + pos) head with
  | (t, some e) => (t, some e)
  | (t, none) => if head.length = bs.length then (t, none) else loomWrite t (codecWho n) k.loom base (bs.drop head.length)

/-- The record of a coded slice pushed, once its bytes are written (R371): space in use, position and count move on. -/
def slicePushed (s : State) (n : Nat) (p : CodecPic) (mark len : Nat) (last : Bool) : State :=
  let k := codecOf s n
  let pos := k.bsPos
  match codecPush s n (codecRecord s n 1 (8 * b2n last + mark) (sess k 40 8 + pos) len 0 p.pts 0 0 k.slice) with
  | (t, false) => t
  | (t, true) =>
    let k1 := codecOf t n
    let t1 := codecBytes (setCodec t n { k1 with
      used := k1.used ++ [((ringOf s (sess k 36 3 % 2 ^ 18)).wp, pos, len)]
      bsPos := (pos + len) % sess k 48 4, slice := k.slice + 1, made := false, syn := 0 }) n len
    if last then pictureCoded t1 n p false else t1

/-- One slice coded, written and recorded (R352, R363, R371, R372): the entropy engine takes its syntax; it waits for ring and buffer space. A slice in progress is finished at S4 too. A picture ended by an error gets its last record, with no bytes. -/
def sliceDone (s0 : State) (n : Nat) : State :=
  let s1 := startSlice s0 n
  let s := setCodec s1 n { codecOf s1 n with used := stillUsed s1 (codecOf s1 n) }
  let k := codecOf s n
  if !codecClock s n || !isEnc n || k.session.isNone || (!codecRuns s n && !k.made) || !outReady s n then s0
  else match codable s k with
  | none => s0
  | some p =>
    let red := decide (1 ≤ shedLevel s) && decide (0 < byteAt (k.session.getD []) 3 / 16)
    let mark := 16 * b2n p.key + 32 * b2n red
    if p.err then
      match codecPush s n (codecRecord s n 1 (1 + 8 + mark) (sess k 40 8 + k.bsPos) 0 0 p.pts 0 0 k.slice) with
      | (t, true) => pictureCoded t n p true
      | (t, false) => t
    else if !k.made then s0
    else
      let bs := nextSlice s k p
      if sess k 48 4 < (k.used.map fun u => u.2.2).sum + bs.length then s0
      else if outBad s n then (codecPush s n []).1
      else match writeBitstream s n k.bsPos bs with
        | (t, some e) => failCoding (postErr t k.loom e 0x070 n) n p
        | (t, none) => slicePushed t n p mark bs.length (decide (rowsTo k k.slice = ctbRows k))

/-- CODEC_SLICE_DONE (R352, R363, R365, R371). -/
def execCodecSliceDone (n : ChanId) (s : State) : Out := chanEffect n (fun s => sliceDone s n) s

-- ## Decode (R362, R366-R371)

/-- The error map of a picture `bw` by `bh` blocks (R367): one bit per damaged block, each row padded to whole bytes; 1,024 bytes. -/
def errorMap (bw bh : Nat) (damage : List Nat) : List Byte :=
  let rb := cdiv bw 8
  (List.range 1024).map fun i =>
    BitVec.ofNat 8 (((List.range 8).map fun b =>
      let x := i % rb * 8 + b
      if decide (0 < rb) && decide (x < bw) && decide (i / rb < bh) && damage.contains (i / rb * bw + x) then 2 ^ b else 0).sum)

/-- Damaged blocks of a picture (R367). -/
def errBlocks (bw bh : Nat) (damage : List Nat) : Nat := ((List.range (bw * bh)).filter damage.contains).length

/-- PTS of the chunk that holds a stream offset (R357). -/
def ptsAt (marks : List (Nat × Word64)) (o : Nat) : Word64 :=
  marks.foldl (fun v m => if m.1 ≤ o then m.2 else v) 0

/-- The free picture buffer a picture goes into (R371): the decoder's choice among the free ones. -/
def freeBuffer (k : Codec) : Option Nat :=
  let free := (List.range (sess k 68 2)).filter fun i => !k.used.any fun u => decide (u.2.1 = i)
  let want := Config.pictureBuffer (k.session.getD []) k.stream k.picSeq
  if free.isEmpty then none else some (if free.contains want then want else free.headD 0)

/-- The rows of a decoded picture's plane, `w` bytes each, from layout byte `o` on. -/
def decodedRows (k : Codec) (pitch w : Nat) (o rows : Nat) : List (List Byte) :=
  (List.range rows).map fun r => (List.range w).map fun i => Config.decodedByte (k.session.getD []) k.stream k.picSeq (o + r * pitch + i)

/-- A decoded picture written to its buffer, with its error map (R362, R367). -/
def writePicture (s : State) (n : Nat) (k : Codec) (base : Nat) (damage : List Nat) : State × Option AccErr :=
  let (w, h, c422, wide) := Config.pictureGeometry (k.session.getD []) k.stream k.picSeq
  let row := w * (if wide then 2 else 1)
  let p := bufPitch row
  let cb := p * roundUp h 64
  let ch := if c422 then h else h / 2
  match writeRows s (codecWho n) k.loom p base (decodedRows k p row 0 h) with
  | (t, some e) => (t, some e)
  | (t, none) => match writeRows t (codecWho n) k.loom p (base + cb) (decodedRows k p row cb ch) with
    | (u, some e) => (u, some e)
    | (u, none) =>
      let mo := cb + p * ch
      let ms := cdiv w 16 * cdiv h 16 * 16
      match writeRows u (codecWho n) k.loom 0 (base + mo) (decodedRows k 0 ms mo 1) with
      | (v, some e) => (v, some e)
      | (v, none) => loomWrite v (codecWho n) k.loom (base + sess k 64 4 - 1024) (errorMap (cdiv w 64) (cdiv h 64) damage)

/-- Units of syntax that the pixel engine still needs for the picture it decodes (R352): no more than the entropy engine has made, once the input ends. -/
def unitsNeeded (k : Codec) : Nat :=
  let v := Config.pictureUnits (k.session.getD []) k.stream k.picSeq - k.eaten
  if inputEnds k then min v k.syn else v

/-- A decoded picture's record pushed, once its bytes are written (R371): its buffer is in use, it is counted, PIC_KNOT is signalled. -/
def picturePushed (s : State) (n i nerr : Nat) (refMissing hashBad : Bool) : State :=
  let k := codecOf s n
  let (w, h, _, _) := Config.pictureGeometry (k.session.getD []) k.stream k.picSeq
  let (off, key) := Config.pictureStart (k.session.getD []) k.stream k.picSeq
  let err := decide (0 < nerr)
  let flags := b2n err + 2 * b2n refMissing + 4 * b2n hashBad + 16 * b2n key
  match codecPush s n (codecRecord s n 0 flags (sess k 56 8 + i * sess k 64 4) i nerr (ptsAt k.marks off) w h 0) with
  | (t, false) => t
  | (t, true) =>
    let k1 := codecOf t n
    let t1 := setCodec t n { k1 with
      used := k1.used ++ [((ringOf s (sess k 36 3 % 2 ^ 18)).wp, i, 1)], picSeq := k.picSeq + 1, discard := false
      syn := k.syn - unitsNeeded k, eaten := 0 }
    let t2 := addCnt t1 (codecKey n 0x108) 1
    let t3 := if err then addCnt t2 (codecKey n 0x10C) 1 else t2
    let t4 := if refMissing then addCnt t3 (codecKey n 0x110) 1 else t3
    codecKnot t4 (sess k 88 2)

/-- A decoded picture is complete (R352, R366-R368, R371): the pixel engine takes its syntax, or what there is of it and waits; then the picture is written to a free buffer, and recorded once the ring has space. -/
def pictureDone (s0 : State) (n : Nat) (damage : List Nat) (refMissing hashBad : Bool) : State :=
  let s := setCodec s0 n { codecOf s0 n with used := stillUsed s0 (codecOf s0 n) }
  let k := codecOf s n
  if !codecRuns s n || isEnc n || k.session.isNone || k.stream.isEmpty || (ganged s n && decide (leaderOf n ≠ n)) then s0
  else if k.syn < unitsNeeded k then setCodec s n { k with eaten := k.eaten + k.syn, syn := 0 }
  else if !outReady s n then s0
  else match freeBuffer k with
  | none => s0
  | some i =>
    let (w, h, _, _) := Config.pictureGeometry (k.session.getD []) k.stream k.picSeq
    if outBad s n then (codecPush s n []).1
    else match writePicture s n k (sess k 56 8 + i * sess k 64 4) damage with
      | (t, some e) => postErr t k.loom e 0x070 n
      | (t, none) => picturePushed t n i (errBlocks (cdiv w 64) (cdiv h 64) damage) refMissing hashBad

/-- CODEC_PICTURE_DONE (R366-R368, R371): the concealed blocks, the missing reference and the hash mismatch are what the decoder finds. -/
def execCodecPictureDone (n : ChanId) (damage : List Nat) (refMissing hashBad : Bool) (s : State) : Out :=
  chanEffect n (fun s => pictureDone s n damage refMissing hashBad) s

/-- A sequence header that asks for what the channel cannot do (R369). -/
def seqUnsupported (s : State) (n : Nat) (size : Bool) : State :=
  let k := codecOf s n
  if !codecRuns s n || isEnc n || k.session.isNone || k.stream.isEmpty then s
  else
    let (w, h, _, _) := Config.pictureGeometry (k.session.getD []) k.stream k.picSeq
    let (off, _) := Config.pictureStart (k.session.getD []) k.stream k.picSeq
    match codecPush s n (codecRecord s n 3 64 0 0 0 (ptsAt k.marks off) w h 0) with
    | (t, false) => t
    | (t, true) =>
      let cause := if size then 4 else 3
      let t1 := wrF (codecEvent t n 0x100 cause) (codecKey n 0x118) 7 0 cause
      setCodec t1 n { codecOf t1 n with discard := true, syn := 0, eaten := 0 }

/-- SEQUENCE_UNSUPPORTED (R369, R374). -/
def execSequenceUnsupported (n : ChanId) (size : Bool) (s : State) : Out := chanEffect n (fun s => seqUnsupported s n size) s

-- ## Stalls and faults (R370, R373)

/-- CODEC_STALL (R370): after STALL_US of continuous waiting, once until input resumes. -/
def execCodecStall (n : ChanId) (s : State) : Out :=
  effect (awake <| posting fun s =>
    let k := codecOf s n
    match k.waitSince with
    | none => s
    | some t =>
      let us := sess k 72 3
      if k.session.isNone ∨ us = 0 ∨ k.stallPosted ∨ !elapsedUs s.time t us then s
      else
        let info := if isEnc n then (match k.cmds with
          | x :: _ => x.band
          | [] => 0) else (k.stream.map List.length).sum
        setCodec (codecEvent s n 0x101 info) n { k with stallPosted := true }) s

/-- CODEC_FAULT (R373): the channel stops until it is reset. -/
def execCodecFault (n : ChanId) (errBits : BitVec 8) (s : State) : Out :=
  effect (awake <| posting fun s =>
    if fbit (rd s (codecKey n 0x100)) 10 then s
    else
      let s1 := (List.range 8).foldl (fun t i => if errBits.getLsbD i then blkError t (codecKey n 0) i 0 else t) s
      let l := (ownerOfPage s1 (codecKey n 0)).getD (codecOf s1 n).loom
      let bits := rdF s1 (codecKey n 0x10) 7 0
      let s2 := setCodec s1 n { codecOf s1 n with loom := l }
      wrB (codecEvent s2 n 0x103 bits) (codecKey n 0x100) 10 true) s

end Sys2Proof.Machine
end

