-- ==== Sys2Proof/Machine/Verify.lean ====
section
/-! DEFINITION. What the bolt loader checks of one descriptor: the structural checks of R216 and the mapping checks of R111, each in table order, the first failure giving the code. -/

namespace Sys2Proof.Machine

/-- The first code whose condition holds; 0 when none does. -/
def firstCode : List (Nat × Bool) → Nat
  | [] => 0
  | (c, b) :: r => if b then c else firstCode r

-- ## Structural checks (R212, R213, R216)

/-- The opcodes of R213. -/
def opcodeOk (o : Nat) : Bool :=
  decide (o ≤ 2) || decide (o = 8) || decide (o = 9) || isVecOp o || decide (o = 0x20) || decide (o = 0x28) ||
  (decide (0x30 ≤ o) && decide (o ≤ 0x32)) || (decide (0x38 ≤ o) && decide (o ≤ 0x3B)) || (decide (0x40 ≤ o) && decide (o ≤ 0x47))

/-- All 32 bits. -/
def allBits : Nat := 0xFFFFFFFF

/-- Reserved bits of words 5 to 15 of an opcode's descriptor: bits that the spec calls reserved, and for KV_WRITE, RING_PUT, PICK_GET and CREEL_ADVANCE the bits that no field takes (DESIGN CHOICE, log entry 47) (R10, R37, R93, R102, R114, R162, R167, R180, R192, R213, R214, R239, R240, R335, R357). -/
def reservedMasks (o : Nat) (indirect : Bool) : List Nat :=
  if o = 0x00 then List.replicate 11 allBits
  else if o = 0x01 then [0xFE000000, 0x2000, 0, 0x80000000, 0x80000000, 0x80000000, 0, 0, 0xFFFC0000, 0xFFFC0000, 0xFFFC0000]
  else if o = 0x02 then [0xFE000000, 0x2000, 0, 0x80000000, 0x80000000, 0x80000000, 0, 0xFFFF0000, 0xFFFC0000, 0xFFFC0000, 0xFFFC0000]
  else if o = 0x08 then [0x000E0000, 0, 0, 0xFFFC0000, 0xFFFC0000, 0, 0xFFFC0000, 0xFFFC0000, 0xFFFC0000, 0xFFFC0000, 0xFFFC0000]
  else if o = 0x09 then [0xFFCFFF0F, 0xFFFFF000, allBits, 0xFFFC0000, 0xFFFC0000, allBits, allBits, allBits, allBits, 0xFFFC0000, 0]
  else if isVecOp o then [0xFE000000, 0xC0000000, 0, 0, 0, 0, 0xFFFC0000, 0, 0, 0, 0]
  else if o = 0x20 then [0xFFFFC000, 0xFFFC0000, 0xFFFE0000, 0xFF000000, 0xFF000000, if indirect then 0xFFFC0000 else 0, 0, 0, 0, 0xFFFC0000, allBits]
  else if o = 0x28 then [0xFFFFFFFC, 0x80000000, allBits, 0, 0] ++ List.replicate 6 allBits
  else if o = 0x30 then [0xFFFC0000, 0xFFFC0000, 0xFFFE0000] ++ List.replicate 8 allBits
  else if o = 0x31 then 0xFFFC0000 :: List.replicate 10 allBits
  else if o = 0x32 then [0xFFFC0000, 0xFFFFFE00] ++ List.replicate 9 allBits
  else if o = 0x38 then [0xFFFFFFF0, 0, 0] ++ List.replicate 8 allBits
  else if o = 0x39 then [0xFFFFFFF0, 0, 0, 0, allBits, 0, 0] ++ List.replicate 4 allBits
  else if o = 0x3A then [0xFFFFFFE0, 0, 0, 0xFFFFFE00, allBits, 0, 0] ++ List.replicate 4 allBits
  else if o = 0x3B then 0xFFFFFFE0 :: List.replicate 10 allBits
  else if opcodeOk o then [0xFFC00080, 0xFFFFC000, 0, 0, 0, 0, 0, 0, 0, 0, allBits]
  else []

/-- Whether a descriptor has a reserved bit set, or KEEP without SHED (R212, R216). -/
def reservedBad (ws : List Word32) : Bool :=
  decide (wfld ws 0 15 13 ≠ 0) || (decide (wfld ws 0 12 12 = 1) && decide (wfld ws 0 8 8 = 0)) ||
  ((List.range 11).zip (reservedMasks (opcode ws) (decide (opcode ws = 0x20) && shInd ws))).any
    fun p => decide (ws.getD (5 + p.1) 0 &&& BitVec.ofNat 32 p.2 ≠ 0)

/-- Whether a knot lies in the range a bolt declares (R210). -/
def knotIn (s : State) (b : Bolt) (k : Nat) : Bool := within k 1 (hdr s b 20 2) (hdr s b 24 4)

/-- Whether a knot field of the common words, or a local KNOT, breaks its range (R216). -/
def knotBad (s : State) (b : Bolt) (ws : List Word32) : Bool :=
  let wk := wfld ws 3 15 0
  let sk := wfld ws 3 31 16
  (decide (wk ≠ 0xFFFF) && !knotIn s b wk) || (decide (sk ≠ 0xFFFF) && !knotIn s b sk) ||
  (decide (wk = 0xFFFF) && decide (ws.getD 4 0 ≠ 0)) ||
  (decide (opcode ws = 0x28) && decide (wfld ws 6 30 30 = 0) && !knotIn s b (wfld ws 6 15 0))

/-- Whether a RING_PUT names a ring it may not (R214, R216). -/
def ringBad (s : State) (l : Nat) (ws : List Word32) : Bool :=
  let g := ringOf s (wfld ws 5 17 0)
  decide (opcode ws = 0x30) &&
  (!within (wfld ws 5 17 0) 1 (lvF s l 0x110 17 0) (lvF s l 0x114 18 0) || !g.enable || !(decide (g.kind = 0) || decide (g.kind = 3)))

/-- The structural code of descriptor `i` (R216); 0 when it passes. -/
def structCode (s : State) (l : Nat) (b : Bolt) (i : Nat) : Nat :=
  let ws := descWords s b i
  let sel := wfld ws 0 31 16
  firstCode [
    (0x05, reservedBad ws),
    (0x06, !opcodeOk (opcode ws)),
    (0x07, !b.stages.any fun g => decide (g.sel = sel)),
    (0x08, (predsOf ws).any fun p => decide (i ≤ p) || decide (descStage s b p ≠ sel)),
    (0x09, knotBad s b ws),
    (0x0A, ringBad s l ws)]

-- ## Formats (R26, R29, R37)

/-- Whether a NUM_CTRL use is illegal (R37). -/
def numBad (nc out : Nat) (vec : Bool) : Bool :=
  decide (ncRnd nc = 3) || (decide (ncRnd nc = 2) && !([1, 3, 4, 5, 6].contains out)) || (!vec && (ncDaz nc || ncFtz nc))

/-- FP32, BF16, FP16, E4M3 or E5M2. -/
def plainFloat (c : Nat) : Bool := decide (c ≤ 4)

-- ## Ports (R187)

/-- Whether a port may be named on every core of a stage (R187). -/
def portOk (s : State) (l : Nat) (b : Bolt) (ws : List Word32) (p : Nat) (fwd : Bool) : Bool :=
  match b.stages.find? fun g => decide (g.sel = wfld ws 0 31 16) with
  | none => true
  | some g =>
    if p < 4 then g.cores.all fun c => match neighbour c p with
      | some n => coreEnabled s n && inCoreSet s l n
      | none => false
    else fwd || (g.chain && decide (2 ≤ g.cores.length))

-- ## Window records (R102, R103, R107, R109)

/-- Output extent of an axis (R107). -/
def outExtent (w : WinRec) (i : Nat) : Int :=
  let k : Int := ax w.dil i * (ax w.ker i - 1 : Nat)
  let n : Int := ax w.inE i
  let lo : Int := ax w.padLo i
  let hi : Int := ax w.padHi i
  let st : Int := ax w.str i
  if w.transposed then (n - 1) * st + k + 1 - lo - hi else (n + lo + hi - k - 1).fdiv st + 1

/-- Whether an axis breaks R103 or R107. -/
def axisBad (w : WinRec) (i : Nat) : Bool :=
  let unused := decide (w.dims = 2 ∧ i = 0) || decide (w.dims = 1 ∧ i ≤ 1)
  decide (ax w.inE i = 0) || decide (ax w.outE i = 0) || decide (ax w.ker i = 0) || decide (7 < ax w.ker i) ||
  decide (ax w.str i = 0) || decide (8 < ax w.str i) || decide (ax w.dil i = 0) || decide (8 < ax w.dil i) ||
  decide (ax w.dil i * (ax w.ker i - 1) < ax w.padLo i) || decide (ax w.dil i * (ax w.ker i - 1) < ax w.padHi i) ||
  decide (outExtent w i ≠ ax w.outE i) ||
  (unused && !(decide (ax w.inE i = 1) && decide (ax w.outE i = 1) && decide (ax w.ker i = 1) && decide (ax w.str i = 1) &&
    decide (ax w.dil i = 1) && decide (ax w.padLo i = 0) && decide (ax w.padHi i = 0)))

/-- Whether a window record is refused (R103, R107, R111). -/
def winRecBad (w : WinRec) (conv : Bool) : Bool :=
  decide (w.dims = 0) || !w.reservedOk || decide (w.cbCnt = 0) || axisBad w 0 || axisBad w 1 || axisBad w 2 ||
  (conv && w.countPad) || (!conv && w.transposed)

-- ## MATMUL and CONV

/-- Whether fields that R93 sets to 0 for their case are non-zero. -/
def matUnused (ws : List Word32) : Bool :=
  (decide (mResMode ws = 0) && (decide (mResFmt ws ≠ 0) || decide (wfld ws 13 17 0 ≠ 0))) ||
  (decide (ncRnd (mNum ws) ≠ 2) && decide (ws.getD 7 0 ≠ 0)) ||
  (decide (mDst ws = 0) && decide (wfld ws 6 11 10 ≠ 0)) ||
  (!mAuxUsed ws && decide (mAux ws ≠ 0)) ||
  (!isMx (mAFmt ws) && decide (wfld ws 10 17 0 ≠ 0)) || (!isMx (mBFmt ws) && decide (wfld ws 11 17 0 ≠ 0)) ||
  (!isConv ws && !mGather ws && decide (ws.getD 12 0 ≠ 0))

/-- OPERAND_PATH of a MATMUL or CONV (R73, R80-R82, R86, R87, R93, R94, R102, R145, R187). -/
def matPathBad (s : State) (l : Nat) (b : Bolt) (ws : List Word32) : Bool :=
  let narrow := fun c => decide (c = 7) || decide (c = 8) || decide (c = 9)
  let mx := isMx (mOutFmt ws)
  decide (mPro ws = 3) || (decide (mPro ws = 1) && narrow (mAFmt ws)) || (decide (wfld ws 6 2 2 = 1) && narrow (mBFmt ws)) ||
  decide (mResMode ws = 3) || (decide (mResMode ws ≠ 0) && (!plainFloat (mResFmt ws) || decide (fmtGroup (mAFmt ws) = 5))) ||
  (decide (wfld ws 6 5 5 = 1) && !mGather ws) || decide (mWMode ws = 3) || (decide (mWMode ws = 1) && !mGather ws) ||
  (decide (mWMode ws = 2) && mx) || decide (2 ≤ mDst ws) || (decide (mDst ws = 1) && decide (wfld ws 15 17 0 ≠ 0)) ||
  (decide (mDst ws = 1) && !portOk s l b ws (wfld ws 6 11 10) false) ||
  (mx && (mArgIdx ws || decide (mWMode ws = 2))) || (mArgIdx ws && decide (mWMode ws = 2)) ||
  (mGather ws && decide (mRange ws = 0)) || matUnused ws ||
  (decide (mResMode ws ≠ 0) && decide (mDst ws = 0) && decide (wfld ws 13 17 0 = wfld ws 15 17 0) && decide (mResFmt ws ≠ mOutFmt ws)) ||
  (isConv ws && (decide (mPro ws ≠ 0) || decide (wfld ws 6 5 5 = 1) || mArgIdx ws || !(decide (mWMode ws = 0) || decide (mWMode ws = 2))))

/-- Whether output arrays overlap input arrays (R91). -/
def inPlace (outs ins : List Rng) : Bool := outs.any fun o => ins.any (rngHit o)

/-- RESTARTABLE (R212). -/
def restartable (ws : List Word32) : Bool := decide (wfld ws 0 10 10 = 1)

/-- ALIAS of a MATMUL or CONV (R90, R91, R98). -/
def matAliasBad (ws : List Word32) (w : WinRec) : Bool :=
  let ins := matReads ws w
  let outs := matOut ws ++ matAux ws
  (ins ++ outs).any (rngHit (matStage ws)) || (restartable ws && inPlace outs ins) ||
  (decide (mResMode ws ≠ 0) && (match ins.getLast?, matOut ws with
    | some r, [o] => rngHit o r && decide (o ≠ r)
    | _, _ => false))

/-- Whether any range reaches beyond the header's scratchpad bytes (R111). -/
def beyondSp (s : State) (b : Bolt) (rs : List Rng) : Bool := rs.any fun r => decide (0 < r.2) && decide (hdr s b 8 4 < r.1 + r.2)

/-- The window record that a descriptor names; the empty one when WIN_IDX lies beyond the table, which INDEX answers after the checks of R111 that come before it. -/
def namedWin (s : State) (b : Bolt) (ws : List Word32) : WinRec :=
  if winIdx ws < hdr s b 56 4 then winRec s b ws else winRecOf []

/-- The mapping code of a MATMUL or CONV (R111). -/
def matCode (s : State) (l : Nat) (b : Bolt) (ws : List Word32) : Nat :=
  let cv := isConv ws
  let a := mAFmt ws
  let g := fmtGroup a
  let mode := wfld ws 5 2 0
  let wOk := !cv || decide (winIdx ws < hdr s b 56 4)
  let w := namedWin s b ws
  let inRange := fun n => decide (1 ≤ n) && decide (n ≤ 4096)
  firstCode [
    (0x20, decide (0xC < mOutFmt ws) || decide (0xC < mResFmt ws) || decide (g = 0) || decide (g ≠ fmtGroup (mBFmt ws)) ||
      numBad (mNum ws) (mOutFmt ws) false || (cv && !([1, 2, 3, 4, 5, 6, 0xA, 0xC].contains a)) ||
      (cv && wOk && isMx a && decide (w.cb = 16))),
    (0x21, decide (4 < mode) || (decide (mode ≠ 0) && (decide (g = 3) || decide (g = 5))) || (mArgIdx ws && decide (mode < 3)) ||
      (cv && decide (mode ≠ 0))),
    (0x22, !inRange (mM ws) || !inRange (mN ws) || !inRange (mK ws) || (mArgIdx ws && decide (2048 < mM ws)) ||
      (cv && wOk && decide (mK ws ≠ vol w.ker * w.cbCnt * w.cb))),
    (0x23, (decide (wfld ws 6 12 12 = 0) && decide (wfld ws 11 31 18 ≠ 0)) || (isMx (mOutFmt ws) && decide (mN ws % 32 ≠ 0))),
    (0x24, matPathBad s l b ws),
    (0x25, matAliasBad ws w),
    (0x26, cv && wOk && (decide (w.cbStride % 16 ≠ 0) || decide (w.posStride % 16 ≠ 0))),
    (0x27, beyondSp s b (matStage ws :: matReads ws w ++ matOut ws ++ matAux ws)),
    (0x29, cv && (!wOk || decide (vol w.outE < w.oStart + mM ws))),
    (0x2A, cv && wOk && winRecBad w true)]

-- ## Vector operations

/-- Whether OPTS bits outside a set are non-zero; the set lists bit numbers of word 12. -/
def optsBad (ws : List Word32) (allowed : List Nat) : Bool :=
  (List.range 14).any fun i => vOpt ws (18 + i) && !allowed.contains (18 + i)

/-- Whether a field of a vector descriptor that its operation does not use is non-zero (R113, R114, R137). -/
def vecUnused (ws : List Word32) : Bool :=
  let nz := fun w hi lo => decide (wfld ws w hi lo ≠ 0)
  let v := vVop ws
  let b := nz 9 17 0 || nz 9 31 18 || nz 5 15 12
  let aux := nz 11 17 0
  let aux2 := nz 12 17 0
  let w13 := nz 13 31 0
  let w14 := nz 14 31 0
  let w15 := nz 15 31 0
  match opcode ws with
  | 0x10 => (!vecB ws && b) || (aux && !(decide (v = 6) && isMx (vOutFmt ws))) || (aux2 && !(decide (v = 6) && isMx (vAFmt ws))) ||
      (w13 && !(vOpt ws 19 || decide (v = 7))) || (w14 && decide (v ≠ 7)) || w15 ||
      optsBad ws ((if vecB ws then [18] else []) ++ (if v ≤ 5 then [19] else []))
  | 0x11 => b || (aux && decide (v ≠ 4)) || aux2 || w13 || w14 || w15 || optsBad ws []
  | 0x12 => b || (aux && decide (wfld ws 12 19 18 ≠ 1)) || (aux2 && !vOpt ws 20) || w14 ||
      (w15 && decide (wfld ws 12 19 18 ≠ 2)) || optsBad ws [18, 19, 20]
  | 0x13 =>
      let app := decide (nStats ws ≠ 1)
      nz 9 31 18 || nz 5 15 12 || (nz 9 17 0 && !vOpt ws 30) || (aux && decide (nStats ws = 0)) ||
      (aux2 && !(vOpt ws 30 && !vOpt ws 21)) || (w13 && !app) || (w14 && !vOpt ws 30) || w15 ||
      (decide (v ≠ 2) && nz 12 29 22) || (!app && (nz 10 31 0 || nz 5 19 16)) || (vOpt ws 21 && !vOpt ws 30) ||
      optsBad ws ([18, 19, 22, 23, 24, 25, 26, 27, 28, 29] ++ if app then [20, 21, 30] else [])
  | 0x14 => b || aux || aux2 || w13 || w14 || w15 || optsBad ws [] || nz 5 11 8 || nz 5 19 16 || nz 7 31 0
  | 0x15 => nz 5 15 12 || (nz 9 17 0 && !vOpt ws 20) || (!vOpt ws 18 && (aux2 || w13 || w14)) || nz 14 31 24 ||
      optsBad ws [18, 19, 20, 21, 22]
  | 0x16 => nz 5 15 12 || nz 9 31 18 || nz 8 31 18 || (nz 9 17 0 && !isMx (vAFmt ws)) || aux || aux2 || w13 || w14 ||
      nz 15 31 16 || optsBad ws []
  | 0x17 => (aux2 && !vOpt ws 18) || w14 || w15 || optsBad ws [18, 19]
  | 0x18 => (aux2 && decide (v ≠ 0)) || w13 || w14 || nz 15 31 18 || optsBad ws [] || nz 7 31 0
  | _ => false

/-- Whether a VOP, MASK_MODE or STATS is reserved (R113, R116, R137). -/
def vecModeBad (ws : List Word32) : Bool :=
  let v := vVop ws
  match opcode ws with
  | 0x10 => !(decide (v ≤ 7) || (decide (0x10 ≤ v) && decide (v ≤ 0x15)) || (decide (0x18 ≤ v) && decide (v ≤ 0x1C)))
  | 0x11 => decide (4 < v)
  | 0x12 => decide (0 < v) || decide (wfld ws 12 19 18 = 3)
  | 0x13 => decide (2 < v) || decide (nStats ws = 3)
  | 0x15 => decide (0 < v)
  | _ => decide (1 < v)

/-- Whether a vector operation's formats are refused (R26, R37, R101, R114, R137). A POOL input in MXFP6 or MXFP4, or in MXFP8 with CB = 16, is refused with FORMAT (DESIGN CHOICE, log entry 48). -/
def vecFmtBad (ws : List Word32) (w : WinRec) (wOk : Bool) : Bool :=
  let o := opcode ws
  let a := vAFmt ws
  let out := vOutFmt ws
  let cvt := decide (o = 0x10) && decide (vVop ws = 6)
  let mxPool := decide (o = 0x16) && (decide (a = 5) || decide (a = 6))
  decide (0xC < a) || decide (0xC < vBFmt ws) || decide (0xC < out) || isMx (vBFmt ws) ||
  (isMx a && !(cvt || mxPool)) || (isMx out && !cvt) || numBad (vNum ws) out true || (mxPool && wOk && decide (w.cb = 16)) ||
  (decide (o = 0x17) && (!plainFloat a || !(decide (vBFmt ws = 0) || decide (vBFmt ws = 1)) || !([1, 2, 3, 4].contains out)))

/-- Whether n is a power of two up to 128. -/
def powTwo (n : Nat) : Bool := [1, 2, 4, 8, 16, 32, 64, 128].contains n

/-- OPERAND_PATH of a vector operation (R113, R114, R122, R127, R132, R134, R138). -/
def vecPathBad (ws : List Word32) : Bool :=
  let len := vLen ws
  vecUnused ws ||
  (match opcode ws with
   | 0x13 => decide (vVop ws = 2) && (decide (len % nGroups ws ≠ 0) || !powTwo (len / nGroups ws) || decide (4096 < len) ||
       (vOpt ws 30 && !vOpt ws 21))
   | 0x15 => decide (wfld ws 12 22 21 = 3) || decide (len % (2 * ropePairs ws) ≠ 0) ||
       (vOpt ws 18 && decide (wfld ws 14 7 0 + wfld ws 14 15 8 + wfld ws 14 23 16 ≠ ropePairs ws))
   | 0x17 =>
       let t := ofF32 (ws.getD 13 0)
       (decide (vBFmt ws = 1) && (decide (vAFmt ws = 0) || decide (vAFmt ws = 2))) || ncDaz (vNum ws) || ncFtz (vNum ws) ||
       isNan t || isNeg t || decide (t = .inf false)
   | 0x18 => decide (ws.getD 8 0 ≠ ws.getD 10 0) || decide (vAFmt ws ≠ 0) || decide (vOutFmt ws ≠ 0)
   | _ => false)

/-- Whether any two ranges of a list share a byte. -/
def anyHit : List Rng → Bool
  | [] => false
  | r :: rs => rs.any (rngHit r) || anyHit rs

/-- ALIAS of a vector operation (R91, R118, R138, R143). -/
def vecAliasBad (ws : List Word32) (w : WinRec) : Bool :=
  (restartable ws && (inPlace (vecWrites ws) (vecReads ws w) || decide (opcode ws = 0x17))) ||
  (decide (opcode ws = 0x17) && anyHit (vecARng ws w ++ vecWrites ws))

/-- The mapping code of a vector operation (R111, R114, R133). -/
def vecCode (s : State) (b : Bolt) (ws : List Word32) : Nat :=
  let pool := decide (opcode ws = 0x16)
  let wOk := !pool || decide (winIdx ws < hdr s b 56 4)
  let w := namedWin s b ws
  firstCode [
    (0x20, vecFmtBad ws w wOk),
    (0x21, vecModeBad ws),
    (0x22, decide (vLen ws = 0) || decide (65536 < vLen ws) || decide (vRows ws = 0) || decide (4096 < vRows ws) ||
      (pool && wOk && decide (vLen ws ≠ w.cbCnt * w.cb))),
    (0x24, vecPathBad ws),
    (0x25, vecAliasBad ws w),
    (0x26, pool && wOk && (decide (w.cbStride % 16 ≠ 0) || decide (w.posStride % 16 ≠ 0))),
    (0x27, beyondSp s b (vecReads ws w ++ vecWrites ws)),
    (0x29, pool && (!wOk || decide (vol w.outE < w.oStart + vRows ws))),
    (0x2A, pool && wOk && winRecBad w false)]

-- ## ATTN and KV_WRITE

/-- The mapping code of an ATTN (R154, R156, R164). -/
def attnCode (s : State) (l : Nat) (b : Bolt) (ws : List Word32) : Nat :=
  let q := wfld ws 5 3 0
  let kv := wfld ws 5 7 4
  let out := wfld ws 5 11 8
  let ok := fun c => decide (1 ≤ c) && decide (c ≤ 4)
  let nz := fun w => decide (wfld ws w 17 0 ≠ 0)
  let others := attnReads ws ++ attnWrites ws
  firstCode [
    (0x20, !ok q || !ok kv || decide (fmtGroup q ≠ fmtGroup kv) || !plainFloat out || numBad (wfld ws 5 19 12) out false),
    (0x21, decide (wfld ws 5 21 20 = 3) || decide (4 < wfld ws 5 24 22)),
    (0x22, decide (aM ws = 0) || decide (2048 < aM ws) || decide (aM ws % (wfld ws 6 15 12 + 1) ≠ 0) || decide (listCap ws = 0)),
    (0x24, (stOut ws == nz 9) || (decide (wfld ws 5 25 25 = 1) != nz 12) || (decide (wfld ws 5 24 22 = 4) != nz 13) ||
      ((stIn ws || stOut ws) != nz 15) || decide (65536 * 2 ^ rdF s (loomKey l 0x400) 5 4 < bobBytes ws)),
    (0x25, others.any (rngHit (slotRing ws)) || (restartable ws && inPlace (attnWrites ws) (attnReads ws))),
    (0x27, beyondSp s b (slotRing ws :: others))]

/-- The mapping code of a KV_WRITE (R154, R167). -/
def kvCode (s : State) (b : Bolt) (ws : List Word32) : Nat :=
  let kv := wfld ws 5 7 4
  firstCode [
    (0x20, !(decide (1 ≤ kv) && decide (kv ≤ 4))),
    (0x21, decide (wfld ws 5 21 20 = 3)),
    (0x22, decide (aM ws = 0) || decide (2048 < aM ws)),
    (0x27, beyondSp s b (opReads ws (winRecOf [])))]

-- ## SHUTTLE

/-- Cores of a descriptor's stage. -/
def stageCores (b : Bolt) (ws : List Word32) : List Nat :=
  match b.stages.find? fun g => decide (g.sel = wfld ws 0 31 16) with
  | some g => g.cores
  | none => []

/-- Offset of a pool address in the loom's ranges taken one after another by region, when it lies in one (R269, R111). -/
def poolOffset (s : State) (l a : Nat) : Option Nat :=
  match placeOf s a with
  | .pool r _ =>
    let p := poolRange (lv s l) r
    if within a 1 p.1 p.2 then
      some (a - p.1 + ((List.range r).map fun i => (poolRange (lv s l) i).2).foldl (· + ·) 0)
    else none
  | _ => none

/-- Whether any range lies in the loom's die pool beyond the header's pool bytes (R111). -/
def beyondPool (s : State) (l : Nat) (b : Bolt) (rs : List Rng) : Bool := rs.any fun r => match poolOffset s l r.1 with
  | some o => decide (0 < r.2) && decide (hdr s b 16 4 < o + r.2)
  | none => false

/-- The static memory blocks of a SHUTTLE, one for each core of its stage (R181). -/
def shStatic (b : Bolt) (ws : List Word32) : List Rng :=
  if shSop ws ≤ 1 ∧ !shInd ws then
    (List.range (stageCores b ws).length).map fun k => (w64n ws 10 + k * (ws.getD 13 0).toNat * 256, shMemSpan ws)
  else []

/-- Whether a static SHUTTLE address breaks its alignment (R85, R111, R181). -/
def shAlignBad (b : Bolt) (ws : List Word32) : Bool :=
  let a := if shComp ws then 576 else 256
  decide (shRowBytes ws % 16 ≠ 0) || decide (wfld ws 9 23 0 % 16 ≠ 0) || (shComp ws && decide (shRowBytes ws % 512 ≠ 0)) ||
  (decide (shSop ws ≤ 1) && !shInd ws &&
    (decide (w64n ws 10 % 2 ^ 42 % a ≠ 0) || (decide (1 < shRows ws) && decide ((ws.getD 12 0).toNat % a ≠ 0)) ||
     (decide (1 < (stageCores b ws).length) && decide ((ws.getD 13 0).toNat * 256 % a ≠ 0))))

/-- OPERAND_PATH of a SHUTTLE (R180, R187): a reserved ELEM, PORT or FWD_PORT, or a port that its stage may not name. COMPRESS set on a SEND or RECV, which R180 gives no code, is refused here (DESIGN CHOICE, log entry 48). -/
def shPathBad (s : State) (l : Nat) (b : Bolt) (ws : List Word32) : Bool :=
  let sop := shSop ws
  let port := decide (sop = 2) || decide (sop = 3)
  decide (wfld ws 5 5 4 = 3) || decide (5 < wfld ws 5 8 6) || decide (5 < wfld ws 5 12 10) || (port && shComp ws) ||
  (port && !portOk s l b ws (wfld ws 5 8 6) false) || (shFwd ws && !portOk s l b ws (wfld ws 5 12 10) true)

/-- The mapping code of a SHUTTLE (R180, R181, R184, R187). ROWS above 65,536 is refused with TILE_SHAPE (DESIGN CHOICE, log entry 48). -/
def shCode (s : State) (l : Nat) (b : Bolt) (ws : List Word32) : Nat :=
  firstCode [
    (0x21, decide (3 < shSop ws)),
    (0x22, decide (shRows ws = 0) || decide (65536 < shRows ws) || decide (shRowBytes ws = 0)),
    (0x24, shPathBad s l b ws),
    (0x26, shAlignBad b ws),
    (0x27, beyondSp s b (shBlock ws :: shReads ws)),
    (0x28, beyondPool s l b (shStatic b ws))]

-- ## The rest

/-- The buffers of a collective as far as its descriptor gives them (R335, R337): the group block's header, and SRC and DST in whole or, where the group block gives their length, their first byte. -/
def collStatic (ws : List Word32) : List Rng :=
  let o := opcode ws
  let n := if o = 0x40 ∨ o = 0x44 ∨ o = 0x46 then (ws.getD 14 0).toNat * 2 ^ wfld ws 5 6 5 else 1
  (w64n ws 8, 64) :: if o = 0x47 then [] else [(w64n ws 10, n), (w64n ws 12, n)]

/-- The mapping code of a collective (R111, R336). -/
def collCode (s : State) (l : Nat) (b : Bolt) (ws : List Word32) : Nat :=
  let o := opcode ws
  let red := decide (o = 0x40) || decide (o = 0x41) || decide (o = 0x46)
  let el := wfld ws 5 6 5
  let n := (ws.getD 14 0).toNat * 2 ^ el
  let a := w64n ws 10
  let d := w64n ws 12
  firstCode [
    (0x20, red && !(if wfld ws 5 4 4 = 0 then decide (el = 2) else decide (el = 1))),
    (0x21, decide (2 ≤ wfld ws 5 1 0) || decide (wfld ws 5 3 2 = 3) || decide (el = 3)),
    (0x24, restartable ws || decide (2 ^ 42 ≤ w64n ws 8) || decide (2 ^ 42 ≤ a) || decide (2 ^ 42 ≤ d)),
    (0x25, (decide (o = 0x40) || decide (o = 0x46) || decide (o = 0x44)) && overlaps a n d n && decide (a ≠ d)),
    (0x26, decide (w64n ws 8 % 64 ≠ 0) || decide (a % 256 ≠ 0) || decide (d % 256 ≠ 0)),
    (0x28, beyondPool s l b (collStatic ws))]

/-- The buffer of a codec operation: session record, chunk or band table (R357, R358, R363). -/
def codecStatic (ws : List Word32) : List Rng :=
  let n := match opcode ws with
    | 0x38 => 256
    | 0x39 => (ws.getD 8 0).toNat
    | 0x3A => 32 * wfld ws 8 8 0
    | _ => 0
  [(w64n ws 6, n)]

/-- The mapping code of a codec operation (R111, R357, R359, R361). -/
def codecCode (s : State) (l : Nat) (b : Bolt) (ws : List Word32) : Nat :=
  let o := opcode ws
  let len := (ws.getD 8 0).toNat
  firstCode [
    (0x22, (decide (o = 0x39) && (decide (len = 0) || decide (16777216 < len))) ||
      (decide (o = 0x3A) && (decide (wfld ws 8 8 0 = 0) || decide (264 < wfld ws 8 8 0)))),
    (0x24, !fbit (lv s l 0x128) (wfld ws 5 3 0) || restartable ws),
    (0x26, (decide (o = 0x38) && decide (w64n ws 6 % 64 ≠ 0)) || (decide (o = 0x3A) && decide (w64n ws 6 % 32 ≠ 0))),
    (0x28, beyondPool s l b (codecStatic ws))]

/-- The mapping code of a descriptor (R111); 0 when it passes. A RING_PUT COUNT or a PICK_GET CAP outside its range is refused with TILE_SHAPE, and a local KNOT with a DEVICE with OPERAND_PATH (DESIGN CHOICE, log entry 48). -/
def mapCode (s : State) (l : Nat) (b : Bolt) (i : Nat) : Nat :=
  let ws := descWords s b i
  let o := opcode ws
  if o = 0x01 ∨ o = 0x02 then matCode s l b ws
  else if isVecOp o then vecCode s b ws
  else if o = 0x08 then attnCode s l b ws
  else if o = 0x09 then kvCode s b ws
  else if o = 0x20 then shCode s l b ws
  else if o = 0x28 then
    firstCode [(0x21, decide (wfld ws 5 1 0 = 3)),
      (0x24, (decide (wfld ws 5 1 0 = 2) && decide (wfld ws 6 30 30 = 1)) || (decide (wfld ws 6 30 30 = 0) && decide (wfld ws 6 29 16 ≠ 0)))]
  else if o = 0x30 then
    firstCode [(0x22, decide (wfld ws 7 16 0 = 0) || decide (65536 < wfld ws 7 16 0)), (0x27, beyondSp s b (opReads ws (winRecOf [])))]
  else if o = 0x31 then firstCode [(0x27, beyondSp s b (opReads ws (winRecOf [])))]
  else if o = 0x32 then
    firstCode [(0x22, decide (wfld ws 6 8 0 = 0) || decide (257 < wfld ws 6 8 0)), (0x27, beyondSp s b (opOuts ws))]
  else if 0x38 ≤ o ∧ o ≤ 0x3B then codecCode s l b ws
  else if 0x40 ≤ o ∧ o ≤ 0x47 then collCode s l b ws
  else 0

end Sys2Proof.Machine
end

