-- ==== Sys2Proof/Machine/Loader.lean ====
section
/-! DEFINITION. The bolt loader (R210, R211, R215, R216, R243-R245, R418): reading, checking, storing and verifying a BOLT entry. -/

namespace Sys2Proof.Machine

-- ## Reading a bolt through the loom's windows (R215)

/-- `n` bytes of an entry's bolt, read window by window; none when a byte cannot be delivered. -/
def boltRead (s : State) (e : Entry) (a n : Nat) : State × Option (List Byte) :=
  match loomReadAcross s ⟨0x021, 0, e.ring⟩ e.loom a n with
  | (t, .ok bs) => (t, some bs)
  | (t, .error _) => (t, none)

/-- A bolt header (R210), with BOLT_BYTES of the entry. -/
structure Header where
  bytes : Nat
  loom : Nat
  ops : Nat
  sp : Nat
  acc : Nat
  pool : Nat
  knotBase : Nat
  knotCount : Nat
  save : Nat
  maxShed : Nat
  shedOff : Nat
  shedCnt : Nat
  liveOff : Nat
  liveBytes : Nat
  winOff : Nat
  winCnt : Nat
  stageOff : Nat
  stageCnt : Nat
  deriving DecidableEq, Repr

/-- The header fields of 256 bytes (R210). -/
def headerOf (h : List Byte) (bytes : Nat) : Header :=
  { bytes := bytes, loom := fieldLe h 2 2, ops := fieldLe h 4 4, sp := fieldLe h 8 4, acc := fieldLe h 12 4
    pool := fieldLe h 16 4, knotBase := fieldLe h 20 2, knotCount := fieldLe h 24 4, save := fieldLe h 28 4
    maxShed := fieldLe h 32 4, shedOff := fieldLe h 36 4, shedCnt := fieldLe h 40 4, liveOff := fieldLe h 44 4
    liveBytes := fieldLe h 48 4, winOff := fieldLe h 52 4, winCnt := fieldLe h 56 4, stageOff := fieldLe h 60 4
    stageCnt := fieldLe h 64 2 }

/-- Whether the header fields are refused with HEADER (R216). -/
def headerBad (h : List Byte) (x : Header) (l : Nat) : Bool :=
  decide (byteAt h 0 ≠ 1) || decide (x.loom ≠ l) || decide (x.ops = 0) || decide (65536 < x.ops) ||
  decide (x.bytes < 256 + 64 * x.ops) || decide (16777216 < x.bytes) ||
  !zeros h 1 2 || !zeros h 22 24 || !zeros h 66 72 || !zeros h 80 256

/-- End of the stage table, found by walking its records (R211); a code when a record cannot be read or leaves the bolt. -/
def stageWalk (e : Entry) (addr limit : Nat) : Nat → State → Nat → State × Except Nat Nat
  | 0, s, off => (s, .ok off)
  | n + 1, s, off =>
    if limit < off + 8 then (s, .error 3)
    else match boltRead s e (addr + off) 8 with
      | (t, none) => (t, .error 1)
      | (t, some b) => stageWalk e addr limit n t (off + roundUp (8 + 2 * (fieldLe b 2 2 + fieldLe b 4 2)) 8)

/-- Whether a table's place breaks R210 and R215 step 2. -/
def tableBad (x : Header) (t : Nat × Nat) : Bool :=
  if t.2 = 0 then decide (t.1 ≠ 0)
  else decide (t.1 % 64 ≠ 0) || decide (t.1 < 256 + 64 * x.ops) || decide (x.bytes < t.1 + t.2)

/-- Whether the table extents are refused with TABLE (R210, R215, R216), given the stage table's length. -/
def tablesBad (x : Header) (stageLen : Nat) : Bool :=
  let ts := [(x.shedOff, 16 * x.shedCnt), (x.liveOff, x.liveBytes), (x.winOff, 64 * x.winCnt), (x.stageOff, stageLen)]
  ts.any (tableBad x) || anyHit ts || decide (x.liveBytes % 8 ≠ 0)

/-- Sum of a loom's die-pool ranges in bytes (R269). -/
def poolQuota (s : State) (l : Nat) : Nat := (List.range 8).foldl (fun a r => a + (poolRange (lv s l) r).2) 0

/-- The code of the header's own limits (R215 step 2, R245), with the knot range last (R216, log entry 30). -/
def limitCode (s : State) (l : Nat) (x : Header) : Nat :=
  firstCode [
    (0x27, decide (0x1800000 < x.sp) || decide (0x400000 < x.acc)),
    (0x28, decide (poolQuota s l < x.pool)),
    (0x2B, decide (x.maxShed = 0) || decide (rdF s (loomKey l 0x484) 15 0 < x.maxShed)),
    (0x2C, decide ((rd s (loomKey l 0x4A4)).toNat * 65536 < x.save * 48)),
    (0x09, decide (x.knotCount ≠ 0) && !within x.knotBase x.knotCount (lvF s l 0x118 15 0) (lvF s l 0x11C 16 0))]

/-- The address of a BOLT entry's bolt and its BOLT_BYTES (R208). -/
def entryBolt (e : Entry) : Nat × Nat := (fieldLe e.bytes 8 8, fieldLe e.bytes 16 4)

/-- Steps 1 and 2 of R215: the code of the first failure, or 0. -/
def frontCode (s : State) (e : Entry) : State × Nat :=
  let (a, n) := entryBolt e
  if a % 256 ≠ 0 then (s, 1)
  else match boltRead s e a 256 with
    | (t, none) => (t, 1)
    | (t, some h) =>
      let x := headerOf h n
      if headerBad h x e.loom then (t, 2)
      else match stageWalk e a n x.stageCnt t x.stageOff with
        | (u, .error c) => (u, c)
        | (u, .ok fin) =>
          if tablesBad x (fin - x.stageOff) then (u, 3) else (u, limitCode u e.loom x)

-- ## The bolt store (R215)

/-- Units of the store in use: first unit and number. -/
def storeUsed (s : State) : List (Nat × Nat) :=
  s.entries.filterMap fun e => match e.bolt with
    | some b => if b.units = 0 then none else some (b.unit, b.units)
    | none => none

/-- Free units of the store: BL_STORE_FREE (R226). -/
def storeFree (s : State) : Nat := 4096 - (storeUsed s).foldl (fun a u => a + u.2) 0

/-- The first place for `n` units, from unit `u` on. -/
def fitFrom (used : List (Nat × Nat)) (n : Nat) : Nat → Nat → Option Nat
  | 0, _ => none
  | f + 1, u =>
    if 4096 < u + n then none
    else if used.any fun x => overlaps u n x.1 x.2 then fitFrom used n f (u + 1) else some u

-- ## The stage table (R211, R216, R418)

/-- A core after every substitution of its loom (R418). -/
def substituted (ps : List (Nat × Nat)) : Nat → Nat → Nat
  | 0, c => c
  | n + 1, c => match ps.find? fun p => decide (p.1 = c) with
    | some p => substituted ps n p.2
    | none => c

/-- Stages of a stored stage table, and whether their counts and reserved bytes are in order (R211). -/
def readStages (s : State) (b : Bolt) (ps : List (Nat × Nat)) : Nat → Nat → List Stage × Bool
  | 0, _ => ([], true)
  | n + 1, off =>
    let h := memRd s (storeAt b off) 8
    let nc := fieldLe h 2 2
    let ns := fieldLe h 4 2
    let len := roundUp (8 + 2 * (nc + ns)) 8
    let body := memRd s (storeAt b off) len
    let cores := (List.range nc).map fun i => substituted ps 16 (fieldLe body (8 + 2 * i) 2)
    let spares := ((List.range ns).map fun i => substituted ps 16 (fieldLe body (8 + 2 * (nc + i)) 2)).filter
      fun c => !ps.any fun p => decide (p.2 = c)
    let ok := decide (1 ≤ nc) && decide (nc ≤ 384) && decide (ns ≤ 384) && decide (byteAt h 6 < 2) && zeros body 7 8 &&
      zeros body (8 + 2 * (nc + ns)) len
    let r := readStages s b ps n (off + len)
    ({ sel := fieldLe h 0 2, cores := cores, spares := spares, chain := bitOf (byteAt h 6) 0 } :: r.1, ok && r.2)

/-- Whether consecutive cores of a chain adjoin. -/
def chainOk : List Nat → Bool
  | a :: b :: r => adjoin a b && chainOk (b :: r)
  | _ => true

/-- Whether a stage table is refused with STAGE (R216). -/
def stagesBad (s : State) (l : Nat) (gs : List Stage) : Bool :=
  let all := gs.flatMap fun g => g.cores ++ g.spares
  (all.any fun c => !(decide (c < 384) && coreEnabled s c && coreAvail s c && inCoreSet s l c)) || !noRepeats all ||
  !noRepeats (gs.map Stage.sel) || gs.any fun g => g.chain && !chainOk g.cores

-- ## Bolt-wide checks (R110, R243-R245)

/-- The shed-point records of a stored bolt, in table order. -/
def shedTable (s : State) (b : Bolt) : List ShedRec :=
  (List.range (hdr s b 40 4)).map fun i => shedOf (memRd s (storeAt b (hdr s b 36 4 + 16 * i)) 16)

/-- Operations of a stage after which a shed point falls, the bolt end last (R243). -/
def shedOps (s : State) (b : Bolt) (sel : Nat) : List Nat :=
  ((List.range (boltOps s b)).filter fun i => decide (descStage s b i = sel) && decide (wfld (descWords s b i) 0 8 8 = 1)) ++ [boltOps s b]

/-- The (stage, operation) pairs that a shed-point table must hold, in order (R243). -/
def shedWanted (s : State) (b : Bolt) : List (Nat × Nat) :=
  let sels := b.stages.foldl (fun t g => insNat g.sel t) []
  sels.flatMap fun q => (shedOps s b q).map fun i => (q, i)

/-- Whether the table contents are refused with TABLE (R243, R244). -/
def contentsBad (s : State) (b : Bolt) : Bool :=
  let rs := shedTable s b
  let n := hdr s b 48 4 / 8
  decide ((rs.map fun r => (r.stage, r.op)) ≠ shedWanted s b) || (rs.any fun r => decide (n < r.liveIdx + r.liveCnt)) ||
  (List.range n).any fun i => decide (2 ^ 18 ≤ leNat (memRd s (storeAt b (hdr s b 44 4 + 8 * i)) 4))

/-- Code of a record's live set (R244, R245); SAVE_AREA first, in the order in which R110 and R245 list them (DEDUCED, log entry 22). -/
def liveCode (s : State) (b : Bolt) (r : ShedRec) : Nat :=
  let ls := liveRanges s b r
  firstCode [(0x2C, decide (hdr s b 28 4 < ls.foldl (fun a x => a + x.2) 262144)), (0x27, beyondSp s b ls)]

/-- The first failure among numbered checks: code and number. -/
def firstFailure (f : Nat → Nat) : Nat → Nat → Option (Nat × Nat)
  | 0, _ => none
  | n + 1, i => if f i ≠ 0 then some (f i, i) else firstFailure f n (i + 1)

/-- None as FIRST_FAIL (R216). -/
def noOp : Nat := 0xFFFFFFFF

/-- Steps 4 to 6 of R215 on a stored bolt whose stages are read: code and FIRST_FAIL of the first failure. -/
def storedFailure (s : State) (l : Nat) (b : Bolt) : Option (Nat × Nat) :=
  let n := boltOps s b
  let rs := shedTable s b
  match firstFailure (structCode s l b) n 0 with
  | some x => some x
  | none =>
    match firstFailure (mapCode s l b) n 0 with
    | some x => some x
    | none =>
      if contentsBad s b then some (3, noOp)
      else match rs.find? fun r => decide (hdr s b 32 4 * 1800 < r.dist) with
        | some r => some (0x2B, r.op)
        | none =>
          match rs.find? fun r => decide (liveCode s b r ≠ 0) with
          | some r => some (liveCode s b r, r.op)
          | none => none

-- ## The rows

/-- A bolt rejected (R216, R219, R226). -/
def rejectBolt (s : State) (e : Entry) (code ff : Nat) : State :=
  let s1 := updEntry s e.ring e.seq fun x => { x with reject := code, firstFail := BitVec.ofNat 32 ff }
  let s2 := wr (addCnt s1 0x21108 1) 0x2110C (BitVec.ofNat 32 (code + e.loom * 2 ^ 16))
  endUnstarted s2 e 1

/-- A bolt of `n` bytes placed in the store at unit `u`, its stages read: the state, the bolt, and whether its stage table is in order (R211, R215 step 3). -/
def placeBolt (s : State) (e : Entry) (u n : Nat) (bs : List Byte) : State × Bolt × Bool :=
  let b0 : Bolt := { unit := u, units := cdiv n 65536 }
  let t := memWr (memZero s (storeAt b0 0) (b0.units * 65536)) (storeAt b0 0) bs
  let g := readStages t b0 (substs t e.loom) (hdr t b0 64 2) (hdr t b0 60 4)
  let b := { b0 with stages := g.1 }
  (updEntry t e.ring e.seq fun x => { x with phase := .ready, bolt := some b }, b, g.2)

/-- Code and FIRST_FAIL of a placed bolt's first failure (R215 steps 4 to 6, R216). -/
def placedFailure (s : State) (l : Nat) (b : Bolt) (tableOk : Bool) : Option (Nat × Nat) :=
  if !tableOk || stagesBad s l b.stages then some (4, noOp) else storedFailure s l b

/-- A bolt copied into the store at unit `u`, then verified there (R215 steps 3 to 6). -/
def storeBolt (s : State) (e : Entry) (u : Nat) : State :=
  match boltRead s e (entryBolt e).1 (entryBolt e).2 with
  | (t, none) => rejectBolt t e 1 noOp
  | (t, some bs) =>
    let p := placeBolt t e u (entryBolt e).2 bs
    match placedFailure p.1 e.loom p.2.1 p.2.2 with
    | some (c, ff) => rejectBolt p.1 e c ff
    | none => p.1

/-- Step 3 of R215: the bolt takes store space and is verified, or its entry waits. -/
def takeStore (s : State) (e : Entry) : State :=
  match fitFrom (storeUsed s) (cdiv (entryBolt e).2 65536) 4097 0 with
  | some u => storeBolt s e u
  | none => updEntry s e.ring e.seq fun x => { x with phase := .waitStore, bolt := some { start := s.time } }

/-- The first entry of a ring that nothing has taken up. -/
def freshEntry (s : State) (r : Nat) : Option Entry := (ringEntries s r).find? fun e => decide (e.phase = .fetched)

/-- Whether an entry has ended, or is gone. -/
def entryOver (t : State) (e : Entry) : Bool :=
  !t.entries.any fun x => decide (x.ring = e.ring) && decide (x.seq = e.seq) && decide (x.phase ≠ .ended)

/-- A rejection takes effect in ring order (R207): a verification that fails while an earlier entry of the ring still runs has no effect, and the entry is verified again at its turn. -/
def atTurn (s : State) (e : Entry) (t : State) : State :=
  if entryOver t e && !((headEntry s e.ring).any fun h => decide (h.seq = e.seq)) then s else t

/-- BOLT_ENTRY (R215): the loader takes up the ring's next entry when it is a BOLT. -/
def execBoltEntry (r : RingId) (s : State) : Out :=
  effect (asking fun s =>
    match freshEntry s r with
    | none => s
    | some e =>
      if entKind e ≠ 1 ∨ blockClosed s .loader then s
      else atTurn s e (match frontCode s e with
        | (t, 0) => takeStore t e
        | (t, c) => rejectBolt t e c noOp)) s

/-- BOLT_STORE_ALLOC (R215): a waiting entry takes space that has become free. -/
def execBoltStoreAlloc (r : RingId) (s : State) : Out :=
  effect (asking fun s =>
    match (ringEntries s r).find? fun e => decide (e.phase = .waitStore) with
    | none => s
    | some e =>
      match fitFrom (storeUsed s) (cdiv (entryBolt e).2 65536) 4097 0 with
      | none => s
      | some u => atTurn s e (storeBolt s e u)) s

end Sys2Proof.Machine
end

