-- ==== Sys2Proof/Machine/Norm.lean ====
section
/-! DEFINITION. NORM and NORM_MERGE (R127-R132): Welford triples, their merging, the overflow path, and the application with modulation. -/

namespace Sys2Proof.Machine

/-- A statistics triple (R127): N, MEAN, M2. NaN in M2 marks a triple that met a NaN; an infinity in M2 one on the overflow path (R131). -/
abbrev Triple := Nat × FVal × FVal

/-- The empty triple. -/
def noTriple : Triple := (0, fZero, fZero)

/-- A triple on the overflow path (R131). -/
def overTriple (n : Nat) : Triple := (n, fZero, .inf false)

/-- A triple that met a NaN (R131). -/
def nanTriple (n : Nat) : Triple := (n, .nan, .nan)

/-- Whether a value is finite. -/
def isFin : FVal → Bool
  | .fin _ _ _ => true
  | _ => false

/-- Whether a triple met a NaN. -/
def tNan (t : Triple) : Bool := isNan t.2.1 || isNan t.2.2

/-- Whether a triple is on the overflow path. -/
def tOver (t : Triple) : Bool := !tNan t && !(isFin t.2.1 && isFin t.2.2)

/-- The results of a triple's update, or the overflow path when one of them is not finite; INVALID of a step past the overflow is not raised (R131). -/
def tripleOf (n : Nat) (f : FM (List FVal)) : FM Triple := do
  let (vs, fl) := runFM f
  if vs.all isFin then
    raiseFp fl
    pure (n, vs.getD 0 fZero, vs.getD 1 fZero)
  else
    raiseFp (fl &&& ~~~ fInvalid)
    pure (overTriple n)

/-- The lane update (R127, R131): RMS keeps the sum of squares. The list ends with the intermediate values. -/
def laneUpdate (k : RCtl) (rms : Bool) (t : Triple) (x : FVal) : FM Triple :=
  let n := t.1 + 1
  if tNan t || isNan x then pure (nanTriple n)
  else if tOver t || !isFin x then pure (overTriple n)
  else tripleOf n (do
    if rms then
      let q ← fMul k x x
      pure [fZero, ← fAdd k t.2.2 q, q]
    else
      let d ← fSub k x t.2.1
      let mean ← fAdd k t.2.1 (← fDiv k d (ofInt n))
      let e ← fSub k x mean
      pure [mean, ← fAdd k t.2.2 (← fMul k d e), d, e])

/-- The merge of two triples (R128, R131). -/
def mergeTriple (k : RCtl) (sq : Bool) (a b : Triple) : FM Triple :=
  let n := a.1 + b.1
  if a.1 = 0 then pure b
  else if b.1 = 0 then pure a
  else if tNan a || tNan b then pure (nanTriple n)
  else if tOver a || tOver b then pure (overTriple n)
  else tripleOf n (do
    if sq then pure [a.2.1, ← fAdd k a.2.2 b.2.2]
    else
      let d ← fSub k b.2.1 a.2.1
      let mean ← fAdd k a.2.1 (← fMul k d (← fDiv k (ofInt b.1) (ofInt n)))
      let dd ← fMul k d d
      pure [mean, ← fAdd k (← fAdd k a.2.2 b.2.2) (← fMul k dd (← fDiv k (ofInt (a.1 * b.1 : Nat)) (ofInt n))), d, dd])

/-- Bytes of a triple (R127). -/
def tripleBytes (t : Triple) : List Byte := toLe 8 t.1 ++ f32Bytes [t.2.1, t.2.2]

/-- A stored triple; DAZ and NAN_IN as of any input. -/
def tripleAt (s : State) (c : Nat) (ws : List Word32) (a : Nat) : FM Triple := do
  let vs ← f32At s c ws (a + 8) 2
  pure (leNat (spRd s c a 8), vs.getD 0 fZero, vs.getD 1 fZero)

/-- Whether a NORM keeps sums of squares. -/
def nRms (ws : List Word32) : Bool := decide (vVop ws = 1)

/-- The triple of a row: lanes in increasing element order, then the tree (R117, R127). -/
def rowTriple (ws : List Word32) (xs : List FVal) : FM Triple := do
  let ps ← (pieces 128 (xs.length + 1) xs).foldlM (fun ls g => do
    let up ← (ls.zip g).mapM fun p => laneUpdate (vc ws) (nRms ws) p.1 p.2
    pure (up ++ ls.drop g.length)) (List.replicate 128 noTriple)
  pure ((← laneTree (mergeTriple (vc ws) (nRms ws)) 7 ps).headD noTriple)

/-- Channels of a group. -/
def groupLen (ws : List Word32) : Nat := vLen ws / nGroups ws

/-- One channel's triple over all rows in increasing order (R127): `xs` are the channel's elements. -/
def chanTriple (ws : List Word32) (xs : List FVal) : FM Triple := xs.foldlM (laneUpdate (vc ws) false) noTriple

/-- The triple of group `g`: its channels' triples merged by the tree over the group's own lanes (R127, log entry 23). -/
def groupTriple (ws : List Word32) (rows : List (List FVal)) (g : Nat) : FM Triple := do
  let n := groupLen ws
  let ts ← (List.range n).mapM fun i => chanTriple ws (rows.map fun r => r.getD (g * n + i) fZero)
  pure ((← laneTree (mergeTriple (vc ws) false) (Nat.log2 n) ts).headD noTriple)

/-- Every triple of a NORM: one per row, or one per group (R127). -/
def normStats (s : State) (c : Nat) (ws : List Word32) : FM (List Triple) := do
  if vVop ws = 2 then
    let rows ← (List.range (vRows ws)).mapM (aRow s c ws)
    (List.range (nGroups ws)).mapM (groupTriple ws rows)
  else (List.range (vRows ws)).mapM fun m => do rowTriple ws (← aRow s c ws m)

/-- Variance of a triple (R129); a quotient by a count of 0, which the spec does not state, is a free value of its operands, the same at every execution (R46, log entry 14). -/
def tripleVar (ws : List Word32) (t : Triple) : FM FVal := do
  let k := vc ws
  if t.1 = 0 then pure (ofF32 (Config.quotByZero (toF32 t.2.2) (vOpt ws 20)))
  else if nRms ws then fDiv k t.2.2 (ofInt t.1)
  else if vOpt ws 20 && decide (t.1 = 1) then pure fZero
  else pure (fMax (← fDiv k t.2.2 (ofInt (if vOpt ws 20 then (t.1 : Int) - 1 else t.1))) fZero)

/-- One normalised value (R129, R131). -/
def normVal (ws : List Word32) (t : Triple) (r x : FVal) : FM FVal :=
  if tNan t then pure .nan
  else if tOver t then pure fZero
  else if nRms ws then fMul (vc ws) x r
  else do fMul (vc ws) (← fSub (vc ws) x t.2.1) r

/-- 1/√(variance + EPS) of a triple; +0 on the overflow path. -/
def tripleScale (ws : List Word32) (t : Triple) : FM FVal := do
  if tNan t then pure .nan
  else if tOver t then pure fZero
  else
    let v ← tripleVar ws t
    spRsqrt (vc ws) (← fAdd (vc ws) v (← vScalar ws (ws.getD 13 0)))

/-- Modulation entry of row `m`; none outside the table (R132). -/
def modEntry (s : State) (c : Nat) (ws : List Word32) (m : Nat) : Option Nat :=
  let k := if vOpt ws 21 then 0 else int32 (spRd s c (spAt ws 12 + 4 * m) 4)
  if 0 ≤ k ∧ k < (ws.getD 14 0).toNat then some k.toNat else none

/-- The values of a row modulated (R132). -/
def modulate (s : State) (c : Nat) (ws : List Word32) (m : Nat) (us : List FVal) : FM (List FVal) := do
  if !vOpt ws 30 then pure us
  else
    let n := vLen ws
    match modEntry s c ws m with
    | none => us.mapM fun u => fFma (vc ws) u fOne fZero
    | some k => do
      let gs ← f32At s c ws (spAt ws 9 + k * 8 * n) n
      let hs ← f32At s c ws (spAt ws 9 + k * 8 * n + 4 * n) n
      (us.zip (gs.zip hs)).mapM fun p => fFma (vc ws) p.1 p.2.1 p.2.2

/-- Whether row `m` raises GATHER_RANGE (R132). -/
def modRange (s : State) (c : Nat) (ws : List Word32) (m : Nat) : Bool := vOpt ws 30 && (modEntry s c ws m).isNone

/-- The triple that element `e` of row `m` uses. -/
def tripleFor (ws : List Word32) (m e : Nat) : Nat := if vVop ws = 2 then e / groupLen ws else m

/-- One row of the application: `ts` are the triples with their scales. -/
def normRow (s : State) (c : Nat) (ws : List Word32) (ts : List (Triple × FVal)) (m : Nat) : FM (State → State) := do
  let xs ← aRow s c ws m
  let us ← ((List.range xs.length).zip xs).mapM fun p =>
    let t := ts.getD (tripleFor ws m p.1) (noTriple, fZero)
    normVal ws t.1 t.2 p.2
  let (bs, _) ← outRow ws m (← modulate s c ws m us)
  pure fun t => spWr t c (outAt ws m) bs

/-- The triples a NORM applies or writes, with their flags (R129). -/
def normTriples (s : State) (c : Nat) (ws : List Word32) : List Triple × BitVec 6 :=
  runFM (if nStats ws = 2 then (List.range (nTriples ws)).mapM fun i => tripleAt s c ws (spAt ws 11 + 16 * i) else normStats s c ws)

/-- Core cycles of a NORM (R112). -/
def normCycles (ws : List Word32) : Nat :=
  (if nStats ws = 2 then 0 else vRows ws * laneGroups ws + 7 * nTriples ws) +
  (if nStats ws = 1 then 0 else vRows ws * 2 * laneGroups ws)

/-- NORM (R127-R132). -/
def execNorm (c : CoreId) (s : State) : Out :=
  effect (fun s => match vecOp s c 0x13 with
    | none => s
    | some x =>
      let ws := x.words
      let (ts, f0) := normTriples s c ws
      if nStats ws = 1 then
        vecRun s c x 0 (fun a _ => a) (fun a =>
          { a with st := spWr a.st c (spAt ws 11) (ts.flatMap tripleBytes), fl := f0 }) (normCycles ws)
      else
        let (rs, f1) := runFM (ts.mapM (tripleScale ws))
        vecRun s c x (vRows ws) (fun a m =>
          { rowStep (normRow a.st c ws (ts.zip rs) m) a with gr := a.gr || modRange a.st c ws m })
          (fun a => { a with fl := a.fl ||| f0 ||| f1 }) (normCycles ws)) s

/-- Merged record `e` of a NORM_MERGE: the participants' records in increasing rank (R128). -/
def mergeRecord (s : State) (c : Nat) (ws : List Word32) (e : Nat) : FM Triple := do
  let ts ← (List.range (vRows ws)).mapM fun m => tripleAt s c ws (rowAt (spAt ws 8) (wfld ws 8 31 18) (vLen ws) 128 m + 16 * e)
  ts.tail.foldlM (mergeTriple (vc ws) (nRms ws)) (ts.headD noTriple)

/-- NORM_MERGE (R128). -/
def execNormMerge (c : CoreId) (s : State) : Out :=
  effect (fun s => match vecOp s c 0x14 with
    | none => s
    | some x =>
      let ws := x.words
      let (ts, f) := runFM ((List.range (vLen ws)).mapM (mergeRecord s c ws))
      vecRun s c x 0 (fun a _ => a) (fun a =>
        { a with st := spWr a.st c (outAt ws 0) (ts.flatMap tripleBytes), fl := f }) (8 * (vRows ws - 1) * vLen ws)) s

end Sys2Proof.Machine
end

