-- ==== Sys2Proof/Machine/Registers.lean ====
section
/-! DEFINITION. Register accesses (R8, R9, R432-R436): a write by access codes, the registers whose write does something else, the BAR2 pages, and what each register reads. -/

namespace Sys2Proof.Machine

-- ## Fields (R8, R9)

/-- A register value after `v` is written, as far as field `f` goes (R8): a reserved encoding leaves the field (R9). -/
def writeField (locked : Bool) (v old : Word32) (f : RField) : Word32 :=
  let x := fld v f.hi f.lo
  let set := if f.min ≤ x ∧ x ≤ f.max then setFld old f.hi f.lo x else old
  match f.acc with
  | .rw => set
  | .rwl => if locked then old else set
  | .w1c => old &&& ~~~(v &&& fmask f.hi f.lo)
  | .w1s => old ||| (v &&& fmask f.hi f.lo)
  | .ro => old
  | .wo => old

/-- A register value after a write, field by field. -/
def writeFields (locked : Bool) (fs : List RField) (v old : Word32) : Word32 :=
  fs.foldl (writeField locked v) old

/-- LOCK of the page that holds a key (R436). -/
def pageLocked (s : State) (k : Nat) : Bool := fbit (rd s (k / 0x1000 * 0x1000 + 8)) 0

/-- The register at a key written by its access codes; a key with no register is left alone. -/
def putReg (s : State) (k : Nat) (v : Word32) : State :=
  match fieldsAt k with
  | some fs => wr s k (writeFields (pageLocked s k) fs v (rd s k))
  | none => s

-- ## Registers whose write does more

/-- Whether a block's LOCK bit exists (R436). -/
def lockable : Block → Bool
  | .chip => true
  | .pcie => true
  | _ => false

/-- BLK_CTRL.LOCK written 1 (R436): reserved where LOCKABLE is 0. -/
def opLock (s : State) (b : Block) : State := if lockable b then wrB s (pageOf b + 8) 0 true else s

/-- TAP_DEV_ID written (R309): DEVICE accepts writes only while VALID is 0, and VALID only sets. -/
def opDevId (s : State) (dev : Nat) (valid : Bool) : State :=
  if devValid s then s else wrB (wrF s (tapKey 0x100) 13 0 dev) (tapKey 0x100) 31 valid

/-- Fixed registers of a loom's page beside FUNC (R276). -/
def loomFixed (o : Nat) : Bool :=
  (decide (0x110 ≤ o) && decide (o < 0x12C)) || (decide (0x140 ≤ o) && decide (o < 0x1A0))

/-- A register of a loom's page written (R168, R254, R257, R276). -/
def loomWriteReg (s : State) (l : LoomId) (o : Nat) (v : Word32) : State :=
  let st := loomSt s l
  let k := loomKey l o
  if o = 0x100 then opLoomCmd s l { op := fld v 2 0, drain := fbit v 8 && decide (fld v 2 0 = 3), scrub := fbit v 9 && decide (fld v 2 0 = 4) }
  else if o = 0x10C then if st = 0 then putReg s k v else putReg s k (setFld v 4 0 (rdF s k 4 0))
  else if loomFixed o then if st = 0 then putReg s k v else s
  else if 0x400 ≤ o ∧ o < 0x500 then
    if st = 1 ∨ st = 4 then
      if o = 0x418 ∨ o = 0x428 ∨ o = 0x438 then poolWrite s l ((o - 0x408) / 0x10) v else putReg s k v
    else s
  else putReg s k v

/-- WFP_CTRL written (R301, R302, R331): SPLIT, MEDIUM and LANE_REV change only while EN is 0; EN then enables or disables the port. -/
def portWrite (s : State) (p : WeftId) (v : Word32) : State :=
  let k := wfpKey p 0x100
  let s1 := if fbit (rd s k) 0 then s else putReg s k (setBit v 0 false)
  if fbit v 0 then opPortEnable s1 p else opPortDisable s1 p

/-- TAP_CC_QUOTA_l written (R332): a write that would raise the sum of all quotas above 524,288 leaves the field. -/
def quotaWrite (s : State) (l : Nat) (v : Word32) : State :=
  let q := fun i => rdF s (tapKey (0x200 + 4 * i)) 19 0
  let rest := (List.range 32).foldl (fun a i => if i = l then a else a + q i) 0
  if q l < fld v 19 0 ∧ 524288 < rest + fld v 19 0 then s else putReg s (tapKey (0x200 + 4 * l)) v

/-- A vector's control word written (R438, PRESUMED, log entry 13): unmasking sends a pending vector. -/
def msixWrite (s : State) (fn k : Nat) (v : Word32) : State :=
  let s1 := putReg s k v
  let n := (k - msixKey fn 0) / 16
  if (k - msixKey fn 0) % 16 = 12 ∧ fbit v 0 = false ∧ fbit (rd s1 (pbaKey fn n)) (n % 32) ∧ s1.board.msixEn.getLsbD fn then
    let s2 := wrB s1 (pbaKey fn n) (n % 32) false
    { s2 with msix := s2.msix ++ [(fn, n)] }
  else s1

/-- CFG_CMD written (R202, R435): OP 1 reads, 2 writes, others do nothing. -/
def cfgCmd (s : State) (w : Window) (op : Nat) : State :=
  if op = 1 then opCfgRead s w
  else if op = 2 then opCfgWrite s w
  else if cfgBusy s w then cfgBusyRefuse s w ((cfgKeys w).2.1 % 0x1000)
  else s

/-- A block-specific register written at page offset `o`. -/
def ownWrite (s : State) (b : Block) (o : Nat) (v : Word32) : State :=
  let k := pageOf b + o
  match b with
  | .mbx =>
    if o = 0x10C then if fbit v 0 then opBootGo s else s
    else if o = 0x210 then opFlRelease s (fld v 9 0)
    else if o = 0x21C then if fbit v 0 then opFlRead s else s
    else putReg s k v
  | .pcm => if o = 0x10C then opShedReq s (fld v 2 0) else putReg s k v
  | .evc => if o = 0x188 then if fbit v 31 then opEvcTest s (fld v 4 0) else s else putReg s k v
  | .scanner =>
    if o = 0x144 then cfgCmd s .pf0 (fld v 1 0)
    else if 0x140 ≤ o ∧ o < 0x1C0 ∧ cfgBusy s .pf0 = true then accRefuse s k 2
    else putReg s k v
  | .creel => if o = 0x104 then if fbit v 0 then opCreelRead s .pf0 else s else putReg s k v
  | .loom l => loomWriteReg s l o v
  | .drp st => if o = 0x180 then opDrpTest s st (v.toNat % 16) [] else putReg s k v
  | .wfp p => if o = 0x100 then portWrite s p v else putReg s k v
  | .tap =>
    if o = 0x100 then opDevId s (fld v 13 0) (fbit v 31)
    else if o = 0x108 then if fld v 1 0 = 1 then opTapRtRead s else if fld v 1 0 = 2 then opTapRtWrite s else s
    else if 0x200 ≤ o ∧ o < 0x280 then quotaWrite s ((o - 0x200) / 4) v
    else putReg s k v
  | .region r => if o = 0x100 then opDrOpCtrl s r (fld v 2 0) else putReg s k v
  | .tlm => if o = 0x118 then if fbit v 31 then opPkgPeakClear s else s else putReg s k v
  | _ => putReg s k v

/-- A register of a block's page written at offset `o` (R405, R436, R441). -/
def pageWrite (s : State) (b : Block) (o : Nat) (v : Word32) : State :=
  if o = 0x08 then if fbit v 0 then opLock s b else s
  else if o = 0x20 then if fbit v 0 && !resetRefused s b then idleReq s b false else s
  else if o = 0x28 then opResetKey s b v
  else if o < 0x100 then putReg s (pageOf b + o) v
  else ownWrite s b o v

/-- One aligned 32-bit write at a BAR0 offset (R4, R393, R433, R435). -/
def bar0Write (s : State) (off : Nat) (v : Word32) : State :=
  if 0x310000 ≤ off ∧ off < 0x318100 then msixWrite s 0 off v
  else match blockAt off with
    | none => accRefuse s off 0
    | some b =>
      let o := off % 0x1000
      if deadPage s b then (if o = 0 then s else accRefuse s off 0)
      else if (fieldsAt off).isNone then accRefuse s off 0
      else if asleep s (pageOf b) then s
      else if (blkOf s (pageOf b)).resetting && decide (o ≠ 0x20) then accRefuse s off 2
      else pageWrite s b o v

-- ## BAR2 (R204, R227, R273, R438)

/-- Whether loom `l`'s pages answer a function (R264, R272, R402, R438). -/
def pagesOpen (s : State) (fn l : Nat) : Bool :=
  barOpen s && s.boot.pcieUp && decide (loomSt s l ≠ 0) && (decide (fn = 0) || decide (loomFn s l = fn))

/-- A 32-bit write in loom `l`'s doorbell page: a 32-bit access to a doorbell sets SPLIT (R204). -/
def doorbellPageWrite (s : State) (fn : Nat) (l : LoomId) (o : Nat) (v : Word32) : State :=
  if o < 0x10 then if doorOpen s fn l then doorbell s l 0 false true else s
  else if o = 0x104 then cfgCmd s (.loom l) (fld v 1 0)
  else if 0x100 ≤ o ∧ o < 0x180 ∧ cfgBusy s (.loom l) = true then cfgBusyRefuse s (.loom l) o
  else putReg s (dbPage l + o) v

/-- A 32-bit write in loom `l`'s status page (R273). -/
def statusPageWrite (s : State) (l : LoomId) (o : Nat) (v : Word32) : State :=
  if o = 0x104 then if fbit v 0 then opCreelRead s (.loom l) else s else putReg s (stPage l + o) v

/-- The loom a VF is bound to (R272). -/
def boundLoom (s : State) (fn : Nat) : Option LoomId :=
  ((liveLooms s).find? fun l => decide (loomFn s l = fn)).map fun l => Fin.ofNat 32 l

/-- The page a BAR2 offset of a function reaches: loom and whether it is the doorbell page (R438). -/
def bar2Page (s : State) (fn off : Nat) : Option (LoomId × Bool) :=
  if fn = 0 then
    if off < 0x20000 then some (Fin.ofNat 32 (off / 0x1000), true)
    else if off < 0x40000 then some (Fin.ofNat 32 (off / 0x1000 - 0x20), false)
    else none
  else if off < 0x2000 then (boundLoom s fn).map fun l => (l, decide (off < 0x1000))
  else none

/-- One aligned 32-bit write through BAR2. -/
def bar2Write (s : State) (fn off : Nat) (v : Word32) : State :=
  if fn ≠ 0 ∧ 0x2000 ≤ off ∧ off < 0x4000 then
    if barOpen s && s.boot.pcieUp then msixWrite s fn (vfMsix fn + (off - 0x2000)) v else s
  else match bar2Page s fn off with
    | none => s
    | some (l, db) =>
      if !pagesOpen s fn l then s
      else if db then doorbellPageWrite s fn l (off % 0x1000) v
      else statusPageWrite s l (off % 0x1000) v

/-- A 64-bit write through BAR2: whole doorbells, else two 32-bit writes (R204). -/
def bar2Write64 (s : State) (fn off : Nat) (v : Word64) : State :=
  let o := off % 0x1000
  match bar2Page s fn off with
  | some (l, true) =>
    if o = 0 ∨ o = 8 then (if doorOpen s fn l then doorbell s l v true (decide (o = 0)) else s)
    else bar2Write (bar2Write s fn off (v.setWidth 32)) fn (off + 4) (v.extractLsb' 32 32)
  | _ => bar2Write (bar2Write s fn off (v.setWidth 32)) fn (off + 4) (v.extractLsb' 32 32)

-- ## PCIe configuration (PRESUMED, log entry 13)

/-- Configuration writes the model gives an effect: MSI-X Enable of a function, and NumVFs of PF0. -/
def configWrite (s : State) (fn off : Nat) (v : Word32) : State :=
  if off = 0 then
    let m := 1#32 <<< fn
    { s with board := { s.board with msixEn := if fbit v 31 then s.board.msixEn ||| m else s.board.msixEn &&& ~~~m } }
  else if off = 0x10 ∧ fn = 0 then { s with board := { s.board with numVfs := min 31 (fld v 15 0) } }
  else s

/-- One register write of any width (R404, R432): an access made while the PCIe link is down is lost; narrow and misaligned writes are refused, a 64-bit write acts as two 32-bit writes, the lower address first. -/
def registerWrite (t : BarTarget) (off : Nat) (w : AccWidth) (v : Word64) (s : State) : State :=
  let lo := v.setWidth 32
  let hi := v.extractLsb' 32 32
  if !s.boot.pcieUp then s else
  match t, w with
  | .bar0, .w32 => if off % 4 ≠ 0 then accRefuse s off 3 else bar0Write s off lo
  | .bar0, .w64 => if off % 4 ≠ 0 then accRefuse s off 3 else bar0Write (bar0Write s off lo) (off + 4) hi
  | .bar0, _ => accRefuse s off 1
  | .bar2 fn, .w32 => if off % 4 ≠ 0 then s else bar2Write s fn off lo
  | .bar2 fn, .w64 => if off % 4 ≠ 0 then s else bar2Write64 s fn off v
  | .bar2 _, _ => s
  | .config fn, .w32 => configWrite s fn off lo
  | .config _, _ => s

/-- REGISTER_WRITE (R8, R9, R432-R436). -/
def execRegisterWrite (t : BarTarget) (off : BitVec 26) (w : AccWidth) (v : Word64) (s : State) : Out :=
  effect (registerWrite t off.toNat w v) s

/-- BLK_CTRL_LOCK (R436). -/
def execBlkCtrlLock (b : Block) (s : State) : Out := effect (onBlock b 0x08 (onPage (pageOf b) 0x08 fun s => opLock s b)) s

/-- TAP_DEV_ID_VALID (R309): the device number comes into force, unless one already is. -/
def execTapDevIdValid (dev : BitVec 14) (s : State) : Out := effect (onPage 0x200000 0x100 fun s => opDevId s dev.toNat true) s

-- ## What registers read (R4, R433, R435)

/-- BLK_ID (R442). -/
def blkId (b : Block) : Word32 := BitVec.ofNat 32 (0x11 + instOf b * 0x100 + codeOf b * 0x100000)

/-- BLK_CAP (R442). -/
def blkCap (b : Block) : Word32 :=
  let unit := match b with
    | .core _ => true
    | .codec _ => true
    | _ => false
  BitVec.ofNat 32 (b2n (!exemptBlock b) + 2 * b2n unit + 4 * b2n (lockable b) + 8 * b2n unit)

/-- Byte string of a 384-bit hash as fuse words, byte 0 in bits 7..0 of word 0 (R445). -/
def hashWord (h : BitVec 384) (w : Nat) : Word32 := h.extractLsb' (32 * w) 32

/-- A register of the fuse page (R6, R445). -/
def fuseRead (s : State) (o : Nat) : Word32 :=
  let f := s.fuse
  if o = 0x100 then BitVec.ofNat 32 (f.grade.toNat + f.stepMajor.toNat * 0x10 + f.stepMinor.toNat * 0x100)
  else if o = 0x104 then
    BitVec.ofNat 32 ((List.range 8).foldl (fun a r =>
      a + 16 ^ r * ((List.range 384).filter fun c => decide (coreRegion c = r) && !coreEnabled s c).length) 0)
  else if 0x140 ≤ o ∧ o < 0x170 then f.coreEn.extractLsb' ((o - 0x140) * 8) 32
  else if 0x180 ≤ o ∧ o < 0x190 then f.uniqueId.extractLsb' ((o - 0x180) * 8) 32
  else if o = 0x190 then BitVec.ofNat 32 (2 ^ f.arbCount - 1)
  else if o = 0x194 then BitVec.ofNat 32 ((2 ^ f.arbCount - 1) / 2 ^ 32)
  else if o = 0x198 then BitVec.ofNat 32 f.arbCount
  else if o = 0x19C then BitVec.ofNat 32 (f.revoked.toNat + 0x100 * b2n f.dbgDisable)
  else if 0x200 ≤ o ∧ o < 0x300 ∧ o % 0x40 < 0x30 then hashWord (f.keyHash.getD ((o - 0x200) / 0x40) 0) (o % 0x40 / 4)
  else if 0x300 ≤ o ∧ o < 0x330 then hashWord f.dbgKeyHash ((o - 0x300) / 4)
  else 0

/-- CHIP_SUMMARY (R444). -/
def chipSummary (s : State) : Word32 :=
  BitVec.ofNat 32 (b2n (ready s) + 2 * shedLevel s + 0x10 * rdF s (pcmKey 0x108) 0 0 + 0x20 * rdF s (rstKey 0x100) 2 2 +
    0x40 * b2n (!s.ledger.isEmpty) + (List.range 8).foldl (fun a st => a + 2 ^ (8 + st) * b2n (decide (stackSt s st = 2))) 0)

/-- CORE_SEQ_STAT (R174, R194, R197): slots in use, a stopped fetch, a wait on a knot. -/
def seqStat (s : State) (c : Nat) : Word32 :=
  let xs := (coreOf s c).slots
  let d := (xs.filter Slot.deferred).length
  BitVec.ofNat 32 (xs.length - d + d * 0x100 + 0x10000 * b2n (fetchStops s c) + 0x20000 * b2n (xs.any knotWaits))

/-- CORE_ARRAY_FUSE (R62). -/
def arrayFuse (s : State) (c : Nat) : Word32 :=
  match tget [] s.fuse.badCols c with
  | [] => 0
  | [a] => BitVec.ofNat 32 (a + 0x100)
  | a :: b :: _ => BitVec.ofNat 32 (min a b + 0x100 + max a b * 0x10000 + 0x1000000)

/-- Coherent bytes exported, in units of 4 KiB (R329, R332). -/
def cohUnits (s : State) : Nat :=
  (liveLooms s).foldl (fun a l => (expsFrom (lv s l)).foldl (fun a w => if w.valid && w.coherent then a + w.size / 4096 else a) a) 0

/-- What a block-specific register reads: state held elsewhere, else the stored value. -/
def ownRead (s : State) (b : Block) (o : Nat) : Word32 :=
  let v := rd s (pageOf b + o)
  match b with
  | .chip =>
    if o = 0x100 then BitVec.ofNat 32 (s.fuse.pciVendor.toNat + 0x10000 * ((s.fuse.pciDevice.toNat / 4) * 4 + s.fuse.grade.toNat))
    else if o = 0x104 then chipSummary s else v
  | .pcm => if o = 0x100 then s.time.setWidth 32 else v
  | .fuse => fuseRead s o
  | .mbx =>
    if o = 0x20C then BitVec.ofNat 32 (s.ledger.length + 0x800 * b2n (tfind s.ledger 1023).isSome)
    else v
  | .evc =>
    if 0x100 ≤ o ∧ o < 0x180 then
      let n := (tget [] s.staged ((o - 0x100) / 4)).length
      BitVec.ofNat 32 (n + 0x10000 * b2n (decide (1024 ≤ n)))
    else v
  | .loader => if o = 0x100 then BitVec.ofNat 32 (storeFree s) else v
  | .loom l =>
    if o = 0x4BC then BitVec.ofNat 32 (creelUsed s l.val)
    else if o = 0x4A8 then v ||| BitVec.ofNat 32 (8 * ((loomOf s l.val).picks.filter fun p => !p.urgent).length)
    else if o = 0x4B8 then BitVec.ofNat 32 (loomOf s l.val).pickSeq
    else v
  | .tap =>
    if o = 0x118 then BitVec.ofNat 32 s.coh.dir.length
    else if o = 0x12C then BitVec.ofNat 32 (cohUnits s)
    else if o = 0x280 then BitVec.ofNat 32 (s.coll.runs.length + 0x100 * s.coll.runs.foldl (fun a r => a + r.copies.length) 0)
    else v
  | .core c => if o = 0x100 then seqStat s c else if o = 0x1C0 then arrayFuse s c else v
  | _ => v

/-- Bits of a register that a read returns: write-only and reserved bits read 0 (R8). -/
def readMask (fs : List RField) : Word32 :=
  fs.foldl (fun m f => if f.acc = .wo then m else m ||| fmask f.hi f.lo) 0

/-- What a 32-bit read of a BAR0 offset returns (R4, R433, R435). Reads with an effect of their own are commands (PCM_TIME_LO_READ, TLM_ENERGY_LO_READ). -/
def regRead (s : State) (off : Nat) : Word32 :=
  match fieldsAt off, blockAt off with
  | none, _ => 0
  | some _, none => rd s off
  | some fs, some b =>
    let o := off % 0x1000
    if o = 0 then blkId b
    else if deadPage s b then 0
    else
      let rst := (blkOf s (pageOf b)).resetting
      let v :=
        if o = 0x04 then blkCap b
        else if o = 0x0C then
          BitVec.ofNat 32 (1 + (if rst then 4 else 2 * b2n (decide (rd s (pageOf b + 0x10) ≠ 0)) + 8 * b2n (pageLocked s off)))
        else if rst && decide (o ≠ 0x2C) then resetVal s off
        else if o < 0x100 then rd s off
        else ownRead s b o
      v &&& readMask fs

/-- The effect a 32-bit read of a register has: PCM_TIME_LO and TLM_ENERGY_LO latch their upper halves (R376, R447). -/
def readEffect (s : State) (off : Nat) : State :=
  if off = 0x2100 then wr s (pcmKey 0x104) (s.time.extractLsb' 32 32)
  else if off = 0x700110 then wr s (tlmKey 0x114) (s.power.energy.extractLsb' 32 32)
  else s

/-- One aligned 32-bit read at a BAR0 offset (R433): a reserved offset reads 0 and is recorded. -/
def bar0Read32 (s : State) (off : Nat) : State × Word32 :=
  let dead := match blockAt off with
    | some b => deadPage s b && decide (off % 0x1000 ≠ 0)
    | none => false
  if dead || (fieldsAt off).isNone then (accRefuse s off 0, 0) else (readEffect s off, regRead s off)

/-- A read through BAR0 (R432): bytes of the register for a narrow read, with the full read's effects; two 32-bit reads for a 64-bit one, the lower address first; a misaligned wide read is refused. No row of the table reads a register in general, so no command calls this. -/
def bar0Read (off : Nat) (w : AccWidth) (s : State) : State × List Byte :=
  let word := off / 4 * 4
  let one := fun n => let (t, v) := bar0Read32 s word; (t, slice (toLe 4 v.toNat) (off % 4) n)
  match w with
  | .w8 => one 1
  | .w16 => one 2
  | .w32 => if off % 4 ≠ 0 then (accRefuse s off 3, List.replicate 4 0) else one 4
  | .w64 =>
    if off % 4 ≠ 0 then (accRefuse s off 3, List.replicate 8 0)
    else
      let (t, a) := bar0Read32 s off
      let (u, b) := bar0Read32 t (off + 4)
      (u, toLe 4 a.toNat ++ toLe 4 b.toNat)

/-- What a 32-bit read of loom `l`'s status page returns (R273). -/
def statusRead (s : State) (l : LoomId) (o : Nat) : Word32 :=
  if loomSt s l = 0 then 0
  else if o = 0x8 then regRead s (loomKey l 0x108)
  else if 0x400 ≤ o ∧ o < 0x500 then regRead s (loomKey l o)
  else match findRow statusRegs o with
    | some r => rd s (stPage l + o) &&& readMask r.fields
    | none => 0

/-- What a 32-bit read of loom `l`'s doorbell page returns (R227): the doorbells are write-only, and an offset without a register reads 0. -/
def doorbellRead (s : State) (l : LoomId) (o : Nat) : Word32 :=
  if loomSt s l = 0 then 0
  else match findRow doorbellRegs o with
    | some r => rd s (dbPage l + o) &&& readMask r.fields
    | none => 0

/-- What a 32-bit read of MSI-X offset `o` of a function returns (R225, R404): its table and pending bits. -/
def msixRead (s : State) (fn o : Nat) : Word32 := if o % 4 ≠ 0 ∨ fn = 0 then 0 else rd s (vfMsix fn + o)

/-- What a 32-bit read of BAR2 offset `off` by PCIe function `fn` returns (R227, R272, R273, R393, R402): none where the access completes with Unsupported Request, 0 of a page whose loom is DESTROYED or bound to another function. -/
def bar2Read (s : State) (fn off : Nat) : Option Word32 :=
  if !(barOpen s && s.boot.pcieUp) then none
  else if fn ≠ 0 ∧ 0x2000 ≤ off ∧ off < 0x4000 then some (msixRead s fn (off - 0x2000))
  else match bar2Page s fn off with
    | none => some 0
    | some (l, db) =>
      if !pagesOpen s fn l then some 0
      else if db then some (doorbellRead s l (off % 0x1000)) else some (statusRead s l (off % 0x1000))

end Sys2Proof.Machine
end

