-- ==== Sys2Proof/Machine/Dispatch.lean ====
section
/-! DEFINITION. Which meaning each command has: one arm per row of the opcode table. -/

namespace Sys2Proof.Machine

/-- The effect of a command on the state (whose queue no longer holds it). -/
def exec (i : Instr) (s : State) : Host.Outcome State Fault Refusal :=
  match i with
  | .powerOnReset straps resetN => Sys2Proof.Machine.execPowerOnReset straps resetN s
  | .resetNAssert => Sys2Proof.Machine.execResetNAssert s
  | .resetNRelease straps => Sys2Proof.Machine.execResetNRelease straps s
  | .romImageLoad => Sys2Proof.Machine.execRomImageLoad s
  | .imageVerify => Sys2Proof.Machine.execImageVerify s
  | .mbxBootGo => Sys2Proof.Machine.execMbxBootGo s
  | .peerBootFlit data last => Sys2Proof.Machine.execPeerBootFlit data last s
  | .pllStart => Sys2Proof.Machine.execPllStart s
  | .dramTraining finds us => Sys2Proof.Machine.execDramTraining finds us s
  | .bootWeftTrainEnd => Sys2Proof.Machine.execBootWeftTrainEnd s
  | .pcieLinkUp => Sys2Proof.Machine.execPcieLinkUp s
  | .pwrOkFall => Sys2Proof.Machine.execPwrOkFall s
  | .railOutOfRange => Sys2Proof.Machine.execRailOutOfRange s
  | .vddIo18Loss => Sys2Proof.Machine.execVddIo18Loss s
  | .perstNFall => Sys2Proof.Machine.execPerstNFall s
  | .perstNRise => Sys2Proof.Machine.execPerstNRise s
  | .refclkLoss => Sys2Proof.Machine.execRefclkLoss s
  | .refclkReturn => Sys2Proof.Machine.execRefclkReturn s
  | .prochotAssert => Sys2Proof.Machine.execProchotAssert s
  | .pwrBrakeAssert => Sys2Proof.Machine.execPwrBrakeAssert s
  | .junctionTempSample r readings => Sys2Proof.Machine.execJunctionTempSample r readings s
  | .stackTempSample st readings => Sys2Proof.Machine.execStackTempSample st readings s
  | .neighbourGradientStep a b => Sys2Proof.Machine.execNeighbourGradientStep a b s
  | .pkgPowerSample region pkg => Sys2Proof.Machine.execPkgPowerSample region pkg s
  | .droopDetect r sagLong => Sys2Proof.Machine.execDroopDetect r sagLong s
  | .droopRestore r => Sys2Proof.Machine.execDroopRestore r s
  | .opPointChange r => Sys2Proof.Machine.execOpPointChange r s
  | .shedLevelRise => Sys2Proof.Machine.execShedLevelRise s
  | .shedLevelFall => Sys2Proof.Machine.execShedLevelFall s
  | .s5Entry => Sys2Proof.Machine.execS5Entry s
  | .s5Exit => Sys2Proof.Machine.execS5Exit s
  | .pcmShedReqWrite v => Sys2Proof.Machine.execPcmShedReqWrite v s
  | .drOpCtrlWrite r v => Sys2Proof.Machine.execDrOpCtrlWrite r v s
  | .pcmTimeLoRead => Sys2Proof.Machine.execPcmTimeLoRead s
  | .tlmEnergyLoRead => Sys2Proof.Machine.execTlmEnergyLoRead s
  | .tlmRefresh rails energy => Sys2Proof.Machine.execTlmRefresh rails energy s
  | .tlmPkgPeakClear => Sys2Proof.Machine.execTlmPkgPeakClear s
  | .coreClockGate c => Sys2Proof.Machine.execCoreClockGate c s
  | .coreWake c => Sys2Proof.Machine.execCoreWake c s
  | .registerWrite t off w v => Sys2Proof.Machine.execRegisterWrite t off w v s
  | .blkCtrlLock b => Sys2Proof.Machine.execBlkCtrlLock b s
  | .blkIdleReq b => Sys2Proof.Machine.execBlkIdleReq b s
  | .blockIdle b => Sys2Proof.Machine.execBlockIdle b s
  | .blkResetKey b key => Sys2Proof.Machine.execBlkResetKey b key s
  | .idleTimeout b => Sys2Proof.Machine.execIdleTimeout b s
  | .blockResetDone b => Sys2Proof.Machine.execBlockResetDone b s
  | .tapDevIdValid dev => Sys2Proof.Machine.execTapDevIdValid dev s
  | .debugUnlock scope sig => Sys2Proof.Machine.execDebugUnlock scope sig s
  | .cfgRead w => Sys2Proof.Machine.execCfgRead w s
  | .cfgWrite w => Sys2Proof.Machine.execCfgWrite w s
  | .dbWp fn l v whole => Sys2Proof.Machine.execDbWp fn l v whole s
  | .dbRp fn l v whole => Sys2Proof.Machine.execDbRp fn l v whole s
  | .ringEntryFetch => Sys2Proof.Machine.execRingEntryFetch s
  | .boltEntry r => Sys2Proof.Machine.execBoltEntry r s
  | .boltStoreAlloc r => Sys2Proof.Machine.execBoltStoreAlloc r s
  | .boltStart r => Sys2Proof.Machine.execBoltStart r s
  | .boltEnd r => Sys2Proof.Machine.execBoltEnd r s
  | .completionRecordWrite cpl => Sys2Proof.Machine.execCompletionRecordWrite cpl s
  | .ringTimeout r => Sys2Proof.Machine.execRingTimeout r s
  | .timeoutGraceEnd r => Sys2Proof.Machine.execTimeoutGraceEnd r s
  | .operationFailure c => Sys2Proof.Machine.execOperationFailure c s
  | .fence r => Sys2Proof.Machine.execFence r s
  | .fenceKnotMet r => Sys2Proof.Machine.execFenceKnotMet r s
  | .eventPost l => Sys2Proof.Machine.execEventPost l s
  | .eventStage l => Sys2Proof.Machine.execEventStage l s
  | .msixHoldoffEnd r => Sys2Proof.Machine.execMsixHoldoffEnd r s
  | .evcTestGo l => Sys2Proof.Machine.execEvcTestGo l s
  | .ringFault r => Sys2Proof.Machine.execRingFault r s
  | .operationFetch c => Sys2Proof.Machine.execOperationFetch c s
  | .operationIssue c e => Sys2Proof.Machine.execOperationIssue c e s
  | .nop c => Sys2Proof.Machine.execNop c s
  | .matmul c => Sys2Proof.Machine.execMatmul c s
  | .conv c => Sys2Proof.Machine.execConv c s
  | .arrayPass c => Sys2Proof.Machine.execArrayPass c s
  | .epilogue c => Sys2Proof.Machine.execEpilogue c s
  | .commit c => Sys2Proof.Machine.execCommit c s
  | .arrayParityFault c acc col row bank accRow => Sys2Proof.Machine.execArrayParityFault c acc col row bank accRow s
  | .attn c => Sys2Proof.Machine.execAttn c s
  | .bobbinFetch c => Sys2Proof.Machine.execBobbinFetch c s
  | .kvWrite c => Sys2Proof.Machine.execKvWrite c s
  | .spillStart l => Sys2Proof.Machine.execSpillStart l s
  | .spillMove l => Sys2Proof.Machine.execSpillMove l s
  | .vec c => Sys2Proof.Machine.execVec c s
  | .reduce c => Sys2Proof.Machine.execReduce c s
  | .softmax c => Sys2Proof.Machine.execSoftmax c s
  | .norm c => Sys2Proof.Machine.execNorm c s
  | .normMerge c => Sys2Proof.Machine.execNormMerge c s
  | .rope c => Sys2Proof.Machine.execRope c s
  | .pool c => Sys2Proof.Machine.execPool c s
  | .deltaSelect c => Sys2Proof.Machine.execDeltaSelect c s
  | .optim c => Sys2Proof.Machine.execOptim c s
  | .shuttleLoad c => Sys2Proof.Machine.execShuttleLoad c s
  | .shuttleStore c => Sys2Proof.Machine.execShuttleStore c s
  | .shuttleSend c => Sys2Proof.Machine.execShuttleSend c s
  | .shuttleRecv c => Sys2Proof.Machine.execShuttleRecv c s
  | .accessFault c => Sys2Proof.Machine.execAccessFault c s
  | .portCreditReturn c d => Sys2Proof.Machine.execPortCreditReturn c d s
  | .knotAdd c => Sys2Proof.Machine.execKnotAdd c s
  | .knotSet c => Sys2Proof.Machine.execKnotSet c s
  | .knotWaitGe c => Sys2Proof.Machine.execKnotWaitGe c s
  | .knotUpdate => Sys2Proof.Machine.execKnotUpdate s
  | .ringPut c => Sys2Proof.Machine.execRingPut c s
  | .creelAdmit r => Sys2Proof.Machine.execCreelAdmit r s
  | .creelCancel r => Sys2Proof.Machine.execCreelCancel r s
  | .condRelease x => Sys2Proof.Machine.execCondRelease x s
  | .pickBuild l => Sys2Proof.Machine.execPickBuild l s
  | .pickGet c => Sys2Proof.Machine.execPickGet c s
  | .creelAdvance c => Sys2Proof.Machine.execCreelAdvance c s
  | .entryFree x => Sys2Proof.Machine.execEntryFree x s
  | .preemptRaise l => Sys2Proof.Machine.execPreemptRaise l s
  | .shedPointReach c => Sys2Proof.Machine.execShedPointReach c s
  | .parkSave l => Sys2Proof.Machine.execParkSave l s
  | .recoveryPark c => Sys2Proof.Machine.execRecoveryPark c s
  | .parkResume l => Sys2Proof.Machine.execParkResume l s
  | .parkAbandon c => Sys2Proof.Machine.execParkAbandon c s
  | .loomCreate l => Sys2Proof.Machine.execLoomCreate l s
  | .loomStart l => Sys2Proof.Machine.execLoomStart l s
  | .loomQuiesce l drain => Sys2Proof.Machine.execLoomQuiesce l drain s
  | .loomQuiesced l => Sys2Proof.Machine.execLoomQuiesced l s
  | .loomDestroy l scrub => Sys2Proof.Machine.execLoomDestroy l scrub s
  | .loomUpdate l => Sys2Proof.Machine.execLoomUpdate l s
  | .vfFlr vf => Sys2Proof.Machine.execVfFlr vf s
  | .creelRead w => Sys2Proof.Machine.execCreelRead w s
  | .coreRetire c cause => Sys2Proof.Machine.execCoreRetire c cause s
  | .coreRemap c => Sys2Proof.Machine.execCoreRemap c s
  | .dramRefresh st => Sys2Proof.Machine.execDramRefresh st s
  | .patrolScrub st addr found => Sys2Proof.Machine.execPatrolScrub st addr found s
  | .dramUe addr reader => Sys2Proof.Machine.execDramUe addr reader s
  | .dramChannelFail st ch cause => Sys2Proof.Machine.execDramChannelFail st ch cause s
  | .drpTestCtrlWrite st v => Sys2Proof.Machine.execDrpTestCtrlWrite st v s
  | .bar4Read off len => Sys2Proof.Machine.execBar4Read off len s
  | .bar4Write off data => Sys2Proof.Machine.execBar4Write off data s
  | .hostWindowAccess l addr acc => Sys2Proof.Machine.execHostWindowAccess l addr acc s
  | .weftPortEnable p => Sys2Proof.Machine.execWeftPortEnable p s
  | .weftPortDisable p => Sys2Proof.Machine.execWeftPortDisable p s
  | .linkTrained k rep => Sys2Proof.Machine.execLinkTrained k rep s
  | .linkTrainRetry k => Sys2Proof.Machine.execLinkTrainRetry k s
  | .laneFail p lane => Sys2Proof.Machine.execLaneFail p lane s
  | .linkDown k cause => Sys2Proof.Machine.execLinkDown k cause s
  | .flitReceive k f corrected uncorrectable => Sys2Proof.Machine.execFlitReceive k f corrected uncorrectable s
  | .flitNak k seq => Sys2Proof.Machine.execFlitNak k seq s
  | .tapestryRequest m => Sys2Proof.Machine.execTapestryRequest m s
  | .tapestryForward m => Sys2Proof.Machine.execTapestryForward m s
  | .tapestryResponse m => Sys2Proof.Machine.execTapestryResponse m s
  | .tapestryResend dst vc seq => Sys2Proof.Machine.execTapestryResend dst vc seq s
  | .tapReqTimeout tag => Sys2Proof.Machine.execTapReqTimeout tag s
  | .knotSignal m => Sys2Proof.Machine.execKnotSignal m s
  | .copy m => Sys2Proof.Machine.execCopy m s
  | .coherentLoad l dev addr => Sys2Proof.Machine.execCoherentLoad l dev addr s
  | .coherentStore l dev addr data => Sys2Proof.Machine.execCoherentStore l dev addr data s
  | .coherentEvict dev addr => Sys2Proof.Machine.execCoherentEvict dev addr s
  | .readShared m => Sys2Proof.Machine.execReadShared m s
  | .readOwn m => Sys2Proof.Machine.execReadOwn m s
  | .evict m => Sys2Proof.Machine.execEvict m s
  | .snoop m => Sys2Proof.Machine.execSnoop m s
  | .snpRsp m => Sys2Proof.Machine.execSnpRsp m s
  | .grantS m => Sys2Proof.Machine.execGrantS m s
  | .grantM m => Sys2Proof.Machine.execGrantM m s
  | .evictAck m => Sys2Proof.Machine.execEvictAck m s
  | .dirBackinv addr => Sys2Proof.Machine.execDirBackinv addr s
  | .tapRtRead => Sys2Proof.Machine.execTapRtRead s
  | .tapRtWrite => Sys2Proof.Machine.execTapRtWrite s
  | .allReduce c => Sys2Proof.Machine.execAllReduce c s
  | .reduceScatter c => Sys2Proof.Machine.execReduceScatter c s
  | .allGather c => Sys2Proof.Machine.execAllGather c s
  | .allToAll c => Sys2Proof.Machine.execAllToAll c s
  | .broadcast c => Sys2Proof.Machine.execBroadcast c s
  | .permute c => Sys2Proof.Machine.execPermute c s
  | .barrier c => Sys2Proof.Machine.execBarrier c s
  | .collOpen k o => Sys2Proof.Machine.execCollOpen k o s
  | .collAbort k => Sys2Proof.Machine.execCollAbort k s
  | .stagingGrant k units pull => Sys2Proof.Machine.execStagingGrant k units pull s
  | .reduceForward m k d => Sys2Proof.Machine.execReduceForward m k d s
  | .codecConfig c => Sys2Proof.Machine.execCodecConfig c s
  | .codecDecode c => Sys2Proof.Machine.execCodecDecode c s
  | .codecEncode c => Sys2Proof.Machine.execCodecEncode c s
  | .codecFlush c => Sys2Proof.Machine.execCodecFlush c s
  | .codecBandRead n => Sys2Proof.Machine.execCodecBandRead n s
  | .codecSliceDone n => Sys2Proof.Machine.execCodecSliceDone n s
  | .codecPictureDone n damage refMissing hashBad => Sys2Proof.Machine.execCodecPictureDone n damage refMissing hashBad s
  | .sequenceUnsupported n size => Sys2Proof.Machine.execSequenceUnsupported n size s
  | .codecStall n => Sys2Proof.Machine.execCodecStall n s
  | .codecFault n errBits => Sys2Proof.Machine.execCodecFault n errBits s
  | .faultReport rep => Sys2Proof.Machine.execFaultReport rep s
  | .ledgerHoldoffEnd x => Sys2Proof.Machine.execLedgerHoldoffEnd x s
  | .ledgerAgeOut x => Sys2Proof.Machine.execLedgerAgeOut x s
  | .flRelease x => Sys2Proof.Machine.execFlRelease x s
  | .flRead => Sys2Proof.Machine.execFlRead s
  | .ceStorm b => Sys2Proof.Machine.execCeStorm b s
  | .coolingFault => Sys2Proof.Machine.execCoolingFault s
  | .prochotDeassert => Sys2Proof.Machine.execProchotDeassert s
  | .pwrBrakeDeassert => Sys2Proof.Machine.execPwrBrakeDeassert s
  | .loomBobPoolWrite l tier v => Sys2Proof.Machine.execLoomBobPoolWrite l tier v s
  | .imageCommit => Sys2Proof.Machine.execImageCommit s
  | .dramChannelRetrain st ch ok => Sys2Proof.Machine.execDramChannelRetrain st ch ok s
  | .vddIo18Return straps => Sys2Proof.Machine.execVddIo18Return straps s
  | .resizableBarWrite log2Gib => Sys2Proof.Machine.execResizableBarWrite log2Gib s

end Sys2Proof.Machine
end

