-- ==== Sys2Proof/Machine/Tick.lean ====
section
/-! DEFINITION. One tick of the always-on domain (R376, R444, R292, R320): what happens whatever is commanded. -/

namespace Sys2Proof.Machine

/-- Bytes a bucket gains in one tick of 51.2 ns at `rate` bytes per ns × 2 (R292). -/
def tickGain (rate : Nat) : Nat := rate * 256 / 10

/-- A loom's bucket on a stack after a gain of `g` bytes (R292): what it owes is paid first (log entry 50). -/
def gainBucket (s : State) (st l g : Nat) (k : Stack) : Stack :=
  let d := tget 0 k.debt l
  { k with
    debt := tput k.debt l (d - g)
    bucket := tput k.bucket l (min (lvF s l (0x1C0 + 4 * st) 22 16 * 1024) (tget 0 k.bucket l + (g - d))) }

/-- Buckets of one stack after a tick (R292, R295). -/
def fillStack (s : State) (st : Nat) : State :=
  let k := (List.range 32).foldl (fun x l =>
    let r := lvF s l (0x1C0 + 4 * st) 15 0
    if r = 0 then x else gainBucket s st l (tickGain (if fbit (rd s (drcKey st 0x100)) 3 then r * 3 / 5 else r)) x) (stackOf s st)
  if k = stackOf s st then s else setStack s st k

/-- Outbound buckets of the router after a tick (R320). -/
def fillRouter (s : State) : State :=
  let b := (List.range 32).foldl (fun t l =>
    let r := rdF s (tapKey (0x180 + 4 * l)) 12 0
    if r = 0 then t else
    tput t l (min (rdF s (tapKey (0x180 + 4 * l)) 22 16 * 1024) (tget 0 t l + tickGain (2 * r)))) s.router.bucket
  if b = s.router.bucket then s else { s with router := { s.router with bucket := b } }

/-- Whole units that pass in the tick after time `t`, at `num` units in `den` ticks. -/
def tickUnits (t : Word64) (num den : Nat) : Nat := (t.toNat + 1) * num / den - t.toNat * num / den

/-- A counter of waiting time advanced by what one tick adds, while something waits. -/
def countWait (s : State) (key n : Nat) (waits : Bool) : State := if waits && decide (n ≠ 0) then addCnt s key n else s

/-- Microseconds in which an entry waits for bolt-store space (R215, R226), a producer for staging (R223, R446), and core cycles at 1.8 GHz in which a flit waits for credit (R331; log entry 11). -/
def tickWaits (s : State) : State :=
  let us := tickUnits s.time 512 10000
  let s1 := countWait s 0x21104 us (s.entries.any fun e => decide (e.phase = .waitStore))
  let s2 := countWait s1 0x10184 us (s1.produced.any fun p => !p.2.isEmpty && decide (1024 ≤ (tget [] s1.staged p.1).length))
  (List.range 16).foldl (fun t p =>
    countWait t (wfpKey p 0x120) (tickUnits s.time 9216 100) (flitWaits (linkOf t (2 * p)) || flitWaits (linkOf t (2 * p + 1)))) s2

/-- Whether a SEND, a forward or a port commit waits for credits (R197): what it sends is at hand, and its port has none. -/
def creditWaits (s : State) (c : Nat) (x : Slot) : Bool :=
  x.issued && (x.committing || isShuttle 2 x.words || isShuttle 3 x.words) &&
  (!isShuttle 3 x.words || (portDir s c (wfld x.words 5 8 6)).any fun d => (rxOf s c d).any fun u => !u.isEmpty) &&
  (outPort s c x.words).any fun d => decide (sendRoom s c d x.pos = 0)

/-- Whether a ready pass waits for its bank (R54, R69). -/
def bankWaits (s : State) (c : Nat) : Bool :=
  match arrayOp s c with
  | some (x, a) => decide (a.pass = 0) && !(tilePasses x a.tile).isEmpty && bankHeld (coreOf s c) (coreOf s c).nextBank
  | none => false

/-- The waiting counters of a running core after one tick (R69, R88, R95, R197), in its own cycles; log entry 11. -/
def countCore (s : State) (c : Nat) : State :=
  let xs := (coreOf s c).slots
  if xs.isEmpty || s.board.thermTrip || decide (rd s (coreKey c 0x38) ≠ 0) then s
  else
    let n := tickUnits s.time (tickCycles s (coreRegion c)) 20000
    let s1 := countWait s (coreKey c 0x110) n (xs.any knotWaits && xs.all fun x => !x.issued || isKnot 2 x.words)
    let s2 := countWait s1 (coreKey c 0x130) n (xs.any (creditWaits s c))
    let s3 := countWait s2 (coreKey c 0x188) n (xs.any fun x => x.issued && heldBack s c x)
    countWait s3 (coreKey c 0x1D4) n (bankWaits s c)

/-- Cores asked to stop count their own cycles until they stop (R250); a clock-gated core runs none (R379). -/
def tickCores (s : State) : State :=
  { s with cores := s.cores.map fun p =>
      if p.2.stopReq && !p.2.stopped && decide (rd s (coreKey p.1 0x38) = 0)
      then (p.1, { p.2 with stopRan := p.2.stopRan + tickCycles s (coreRegion p.1) }) else p }

/-- One AON tick: the timestamp counts (R376), GPIO levels are sampled (R444), token buckets refill (R292, R320), and time spent waiting is counted. -/
def aonTick (s : State) : State :=
  let s1 := (List.range 8).foldl fillStack s
  let s2 := tickCores ((s.cores.map Prod.fst).foldl countCore (tickWaits (fillRouter s1)))
  let s3 := wr s2 0x120 (s2.board.gpio.setWidth 32)
  { s3 with time := s.time + 1 }

end Sys2Proof.Machine
end

