-- ==== Sys2Proof/WellFormed.lean ====
section
/-! DEFINITION. Which commands are well formed: what a sender can put into an operand at all. A meaning is total and runs ill-formed commands too; the checks say which ones stand for something. -/

namespace Sys2Proof

/-- A training find names a stack, a channel, and lanes of that channel (R288). -/
def findWf (f : Nat × Nat × LaneFind) : Bool :=
  decide (f.1 < 8) && decide (f.2.1 < 32) && decide (f.2.2.data.length ≤ 74) && decide (f.2.2.cmd.length ≤ 17)

/-- An offset lies within the BAR of its function (R438). -/
def targetWf : BarTarget → Nat → Bool
  | .bar0, _ => true
  | .bar2 fn, o => if fn.val = 0 then decide (o < 0x40000) else decide (o < 0x4000)
  | .config _, o => decide (o < 0x1000)

/-- A Tapestry message carries at most 4 KiB and lies within one 4 KiB page (R313). -/
def msgWf (m : TapMsg) : Bool :=
  decide (m.data.length ≤ 4096) && decide (m.addr.toNat % 4096 + m.data.length ≤ 4096)

/-- A flit has 56 bytes of payload (R303). -/
def flitWf (f : Flit) : Bool := decide (f.payload.length = 56)

/-- A host-window access lies within the 2 TiB window (R281). -/
def hostAccWf (a : Nat) : HostAcc → Bool
  | .read n => decide (0 < n) && decide (0x20000000000 ≤ a) && decide (a + n ≤ 0x40000000000)
  | .write bs => decide (0 < bs.length) && decide (0x20000000000 ≤ a) && decide (a + bs.length ≤ 0x40000000000)

/-- An OPEN names 2 to 16,384 members and a root among them (R335, R341). -/
def openWf (o : CollOpen) : Bool := decide (2 ≤ o.members) && decide (o.members ≤ 16384) && decide (o.root < o.members)

/-- Whether a command is well formed. -/
def Instr.wf : Instr → Bool
  | .peerBootFlit data _ => decide (data.length ≤ 56)
  | .dramTraining finds _ => finds.all findWf
  | .junctionTempSample _ readings => decide (readings.length = 12)
  | .stackTempSample _ readings => decide (readings.length = 16)
  | .neighbourGradientStep a b => decide (a ≠ b)
  | .pkgPowerSample region _ => decide (region.length = 8)
  | .tlmRefresh rails _ => decide (rails.length = 24)
  | .registerWrite t off _ _ => targetWf t off.toNat
  | .arrayParityFault _ _ col _ _ accRow => decide (col.toNat < 130) && decide (accRow.toNat < 4096)
  | .vfFlr vf => decide (vf.val ≠ 0)
  | .patrolScrub st addr _ => decide (addr % 64 = 0) && decide (addr / 0x2000000000 = st.val)
  | .dramUe addr _ => decide (addr < 2 ^ 40)
  | .bar4Read off len => decide (0 < len) && decide (off + len ≤ 2 ^ 39)
  | .bar4Write off data => decide (0 < data.length) && decide (off + data.length ≤ 2 ^ 39)
  | .hostWindowAccess _ addr acc => hostAccWf addr acc
  | .flitReceive _ f _ _ => flitWf f
  | .tapestryRequest m => msgWf m
  | .tapestryForward m => msgWf m
  | .tapestryResponse m => msgWf m
  | .knotSignal m => msgWf m
  | .copy m => msgWf m
  | .coherentStore _ _ addr data => decide (addr.toNat % 128 + data.length ≤ 128)
  | .readShared m => msgWf m
  | .readOwn m => msgWf m
  | .evict m => msgWf m
  | .snoop m => msgWf m
  | .snpRsp m => msgWf m
  | .grantS m => msgWf m
  | .grantM m => msgWf m
  | .evictAck m => msgWf m
  | .collOpen _ o => openWf o
  | .reduceForward m _ d => msgWf m && decide (d.data.length ≤ 4096)
  | .resizableBarWrite log2Gib => decide (log2Gib.toNat ≤ 9)
  | .powerOnReset _ _ => true
  | .resetNAssert => true
  | .resetNRelease _ => true
  | .romImageLoad => true
  | .imageVerify => true
  | .mbxBootGo => true
  | .pllStart => true
  | .bootWeftTrainEnd => true
  | .pcieLinkUp => true
  | .pwrOkFall => true
  | .railOutOfRange => true
  | .vddIo18Loss => true
  | .perstNFall => true
  | .perstNRise => true
  | .refclkLoss => true
  | .refclkReturn => true
  | .prochotAssert => true
  | .pwrBrakeAssert => true
  | .droopDetect _ _ => true
  | .droopRestore _ => true
  | .opPointChange _ => true
  | .shedLevelRise => true
  | .shedLevelFall => true
  | .s5Entry => true
  | .s5Exit => true
  | .pcmShedReqWrite _ => true
  | .drOpCtrlWrite _ _ => true
  | .pcmTimeLoRead => true
  | .tlmEnergyLoRead => true
  | .tlmPkgPeakClear => true
  | .coreClockGate _ => true
  | .coreWake _ => true
  | .blkCtrlLock _ => true
  | .blkIdleReq _ => true
  | .blockIdle _ => true
  | .blkResetKey _ _ => true
  | .idleTimeout _ => true
  | .blockResetDone _ => true
  | .tapDevIdValid _ => true
  | .debugUnlock _ _ => true
  | .cfgRead _ => true
  | .cfgWrite _ => true
  | .dbWp _ _ _ _ => true
  | .dbRp _ _ _ _ => true
  | .ringEntryFetch => true
  | .boltEntry _ => true
  | .boltStoreAlloc _ => true
  | .boltStart _ => true
  | .boltEnd _ => true
  | .completionRecordWrite _ => true
  | .ringTimeout _ => true
  | .timeoutGraceEnd _ => true
  | .operationFailure _ => true
  | .fence _ => true
  | .fenceKnotMet _ => true
  | .eventPost _ => true
  | .eventStage _ => true
  | .msixHoldoffEnd _ => true
  | .evcTestGo _ => true
  | .ringFault _ => true
  | .operationFetch _ => true
  | .operationIssue _ _ => true
  | .nop _ => true
  | .matmul _ => true
  | .conv _ => true
  | .arrayPass _ => true
  | .epilogue _ => true
  | .commit _ => true
  | .attn _ => true
  | .bobbinFetch _ => true
  | .kvWrite _ => true
  | .spillStart _ => true
  | .spillMove _ => true
  | .vec _ => true
  | .reduce _ => true
  | .softmax _ => true
  | .norm _ => true
  | .normMerge _ => true
  | .rope _ => true
  | .pool _ => true
  | .deltaSelect _ => true
  | .optim _ => true
  | .shuttleLoad r => r.soft.all fun a => decide (a % 64 = 0) && decide (a < 2 ^ 40)
  | .shuttleStore _ => true
  | .shuttleSend _ => true
  | .shuttleRecv _ => true
  | .accessFault _ => true
  | .portCreditReturn _ _ => true
  | .knotAdd _ => true
  | .knotSet _ => true
  | .knotWaitGe _ => true
  | .knotUpdate => true
  | .ringPut _ => true
  | .creelAdmit _ => true
  | .creelCancel _ => true
  | .condRelease _ => true
  | .pickBuild _ => true
  | .pickGet _ => true
  | .creelAdvance _ => true
  | .entryFree _ => true
  | .preemptRaise _ => true
  | .shedPointReach _ => true
  | .parkSave _ => true
  | .recoveryPark _ => true
  | .parkResume _ => true
  | .parkAbandon _ => true
  | .loomCreate _ => true
  | .loomStart _ => true
  | .loomQuiesce _ _ => true
  | .loomQuiesced _ => true
  | .loomDestroy _ _ => true
  | .loomUpdate _ => true
  | .creelRead _ => true
  | .coreRetire _ _ => true
  | .coreRemap _ => true
  | .dramRefresh _ => true
  | .dramChannelFail _ _ _ => true
  | .drpTestCtrlWrite _ w => w.found.all fun f => decide (f.1 < 32)
  | .weftPortEnable _ => true
  | .weftPortDisable _ => true
  | .linkTrained _ _ => true
  | .linkTrainRetry _ => true
  | .laneFail _ _ => true
  | .linkDown _ _ => true
  | .flitNak _ _ => true
  | .tapestryResend _ _ _ => true
  | .tapReqTimeout _ => true
  | .coherentLoad _ _ _ => true
  | .coherentEvict _ _ => true
  | .dirBackinv _ => true
  | .tapRtRead => true
  | .tapRtWrite => true
  | .allReduce _ => true
  | .reduceScatter _ => true
  | .allGather _ => true
  | .allToAll _ => true
  | .broadcast _ => true
  | .permute _ => true
  | .barrier _ => true
  | .collAbort _ => true
  | .stagingGrant _ _ _ => true
  | .codecConfig _ => true
  | .codecDecode _ => true
  | .codecEncode _ => true
  | .codecFlush _ => true
  | .codecBandRead _ => true
  | .codecSliceDone _ => true
  | .codecPictureDone _ _ _ _ => true
  | .sequenceUnsupported _ _ => true
  | .codecStall _ => true
  | .codecFault _ _ => true
  | .faultReport _ => true
  | .ledgerHoldoffEnd _ => true
  | .ledgerAgeOut _ => true
  | .flRelease _ => true
  | .flRead => true
  | .ceStorm _ => true
  | .coolingFault => true
  | .prochotDeassert => true
  | .pwrBrakeDeassert => true
  | .loomBobPoolWrite _ _ _ => true
  | .imageCommit => true
  | .dramChannelRetrain _ _ _ => true
  | .vddIo18Return _ => true

end Sys2Proof
end

