-- ==== Sys2Proof/Safety.lean ====
section
/-! DEFINITION. The terms in which statements speak: what a command leaves alone, and the invariants that steps keep. -/

namespace Sys2Proof.Machine

/-- The parts of State beside its registers, its fuses, the timestamp and the queue. -/
inductive Part where
  | live | mem | host | spi | badBlocks | knots | knotQ | board | boot | power | regions | rings | scan | entries | endSeq | produced | staged
  | msix | cores | looms | creel | admitSeq | creelCache | stackTab | links | router | coh | coll | codecs | ledger | ceCounts | blks | resp | hostFn | posted | trip | freeCtr
  deriving DecidableEq, Repr

/-- Two states agree on a part. -/
def Part.same (s t : State) : Part → Prop
  | .live => t.live = s.live
  | .mem => t.mem = s.mem
  | .host => t.host = s.host
  | .spi => t.spi = s.spi
  | .badBlocks => t.badBlocks = s.badBlocks
  | .knots => t.knots = s.knots
  | .knotQ => t.knotQ = s.knotQ
  | .board => t.board = s.board
  | .boot => t.boot = s.boot
  | .power => t.power = s.power
  | .regions => t.regions = s.regions
  | .rings => t.rings = s.rings
  | .scan => t.scan = s.scan
  | .entries => t.entries = s.entries
  | .endSeq => t.endSeq = s.endSeq
  | .produced => t.produced = s.produced
  | .staged => t.staged = s.staged
  | .msix => t.msix = s.msix
  | .cores => t.cores = s.cores
  | .looms => t.looms = s.looms
  | .creel => t.creel = s.creel
  | .admitSeq => t.admitSeq = s.admitSeq
  | .creelCache => t.creelCache = s.creelCache
  | .stackTab => t.stackTab = s.stackTab
  | .links => t.links = s.links
  | .router => t.router = s.router
  | .coh => t.coh = s.coh
  | .coll => t.coll = s.coll
  | .codecs => t.codecs = s.codecs
  | .ledger => t.ledger = s.ledger
  | .ceCounts => t.ceCounts = s.ceCounts
  | .blks => t.blks = s.blks
  | .resp => t.resp = s.resp
  | .hostFn => t.hostFn = s.hostFn
  | .posted => t.posted = s.posted
  | .trip => t.trip = s.trip
  | .freeCtr => t.freeCtr = s.freeCtr

/-- The frame of a command: every register whose key is not in `K` reads as before, every part that is not in `ps` is the same, and so are the fuses, the timestamp and the queue. -/
structure Frame (K : Nat → Prop) (ps : List Part) (s t : State) : Prop where
  regs : ∀ k, ¬ K k → rd t k = rd s k
  parts : ∀ p, p ∉ ps → p.same s t
  fuse : t.fuse = s.fuse
  time : t.time = s.time
  pending : t.pending = s.pending

/-- No register. -/
def noReg : Nat → Prop := fun _ => False

/-- The registers of a list. -/
def someRegs (ks : List Nat) : Nat → Prop := fun k => k ∈ ks

/-- The registers of a block's page. -/
def pageRegs (p : Nat) : Nat → Prop := fun k => p ≤ k ∧ k < p + 0x1000

/-- The parts an access to memory may change beside its own data (R279-R294, R325-R330): byte counts and buckets, errors and their reports, and the snoops of coherent lines. -/
def accessParts : List Part := [.stackTab, .ledger, .produced, .msix, .router, .links, .mem, .freeCtr, .coh, .host, .badBlocks, .hostFn, .trip]

/-- The registers an access to memory may change (R267, R286, R294, R421): the stacks' error and byte counts, the host's error registers, the looms' decode counts, the ledger's entry count and PF0's pending bits. -/
def accessRegs : Nat → Prop := fun k =>
  k ∈ [0x300010, 0x300018, 0x30001C, mbxKey 0x214] ∨ (∃ x, k = pbaKey 0 x) ∨
  (∃ st, k ∈ [drcKey st 0x10, drcKey st 0x18, drcKey st 0x1C, drcKey st 0x108, drcKey st 0x10C, drcKey st 0x110, drcKey st 0x114]) ∨
  (∃ l, k = loomKey l 0x30) ∨ ∃ st l, k = drcKey st (0x180 + 4 * l)

/-- Every loom's staging area has room, so that no producer of events waits (R223). -/
def eventsOpen (s : State) : Prop := ∀ l, (tget [] s.staged l).length < 1024

/-- The part's units run: S5 is not in force (R393), and no producer of events waits (R223). -/
def atWork (s : State) : Prop := s.power.s5 = false ∧ eventsOpen s

/-- With `t` what a command comes to: nothing that its accesses wait for is missing, neither an answer, nor a line, nor a refreshing stack, nor tokens for its traffic (R16, R291, R293, R320, R322, R326, R327). -/
def accessesServed (t : State) : Prop := (served t).isSome = true

/-- The parts a report or an event may change (R223, R423). -/
def reportParts : List Part := [.ledger, .produced, .msix]

/-- The registers a report may change (R225, R422): the ledger's entry count and PF0's pending bits. -/
def reportRegs : Nat → Prop := fun k => k = mbxKey 0x214 ∨ ∃ x, k = pbaKey 0 x

/-- The parts that writing a record into a ring may change (R198, R201, R225). -/
def recordParts : List Part := .rings :: accessParts

/-- The registers that writing a record into a ring of a loom may change: those of an access, any function's pending bits (R225) and the loom's doorbell error (R201). -/
def recordRegs (l : Nat) : Nat → Prop := fun k => accessRegs k ∨ (∃ f x, k = pbaKey f x) ∨ k = dbPage l + 0x10 ∨ k = dbPage l + 0x14

/-- The command registers of the descriptor windows (R203): an enable that waited in one may go on when an entry is gone. -/
def cfgCmdRegs : Nat → Prop := fun k => k = 0x20144 ∨ ∃ l, k = dbPage l + 0x104

/-- Where in the part a store to a loom's address `a` lands (R310): at the address itself, or at the offset of a Tapestry address of the part's own device. -/
def landsAt (a : Nat) : Nat :=
  if isTap a then (match tapSplit a with
    | some (_, o) => o
    | none => a) else a

/-- A local byte that no part of a coherent line outside covers (R325): only such a byte is the part's own alone. -/
def ownByte (s : State) (a : Nat) : Prop := ∀ p ∈ s.coh.dir, a / 128 ≠ p.1

/-- Of the part's memory and the host's, at most the bytes have changed that stores to a loom's addresses reach, given as pairs of address and length; none for the empty list. A line held outside the part may come home beside (R327). -/
def StoresOnly (s t : State) (rs : List (Nat × Nat)) : Prop :=
  (∀ b, ownByte s b → (∀ r ∈ rs, b < landsAt r.1 ∨ landsAt r.1 + r.2 ≤ b) → cget t.mem b = cget s.mem b) ∧
  (∀ h, (∀ r ∈ rs, ∀ i, i < r.2 → h ≠ hostAddr s (landsAt r.1 + i - 0x20000000000)) → cget t.host h = cget s.host h)

/-- Whether local memory of the part itself lies at a local address: a stack or the die pool. -/
def holdsBytes (s : State) (a : Nat) : Bool :=
  match placeOf s a with
  | .dram _ _ => true
  | .pool _ _ => true
  | _ => false

/-- An operation of a core has completed (R174, R193): no slot holds it, and it is done. -/
def Completed (s t : State) (c : Nat) (x : Slot) : Prop :=
  (∀ y ∈ (coreOf t c).slots, y.idx ≠ x.idx) ∧ (coreOf t c).done = (coreOf s c).done ++ [x.idx]

/-- An operation of a core has aborted (R182, R220): no slot holds it, it is not done, and the core holds a failure. -/
def Aborted (s t : State) (c : Nat) (x : Slot) : Prop :=
  (∀ y ∈ (coreOf t c).slots, y.idx ≠ x.idx) ∧ (coreOf t c).done = (coreOf s c).done ∧ (coreOf t c).fail.isSome = true

/-- Every one of `n` rows or slots of a SHUTTLE from number `j` on passes its check and is served in its turn, each on what those before it left (R181-R184). -/
def partsServed (c : Nat) (x : Slot) (soft : List Nat) : Nat → Nat → State → Prop
  | 0, _, _ => True
  | n + 1, j, s => ∃ u v, movePart (fresh s) c (coreLoom s c) x j = (u, none) ∧
      workUnit s (updSlot (noteSoft (if j = 0 then beginCommit u c x else u) c x soft j) c x.idx fun y => { y with pos := j + 1 }) = (v, true) ∧
      partsServed c x soft n (j + 1) v

/-- The knot update with which an operation signals its end (R193), if it names a knot. -/
def endSignal (x : Slot) : List KnotOp :=
  if wfld x.words 3 31 16 = 0xFFFF then [] else [{ idx := wfld x.words 3 31 16, set := false, value := 1 }]

/-- Of local memory, at most the bytes of some scratchpad ranges of a core have changed. -/
def ScratchOnly (s t : State) (c : Nat) (rs : List (Nat × Nat)) : Prop :=
  ∀ a, (∀ r ∈ rs, a < spAddr c r.1 ∨ spAddr c r.1 + r.2 ≤ a) → cget t.mem a = cget s.mem a

/-- The range of a core's accumulator banks, as offsets from its scratchpad (R278). -/
def accRange : Nat × Nat := (0x1800000, 0x800000)

/-- A local byte that no store of a loom reaches: it lies in none of the loom's own windows, nor in an export window that grants the loom's device a write (R271, R310, R317). -/
def outOfReach (s : State) (l b : Nat) : Prop := allowed s l b 1 true = false ∧ (expFor s (ownDev s) l b 1 .write false).1 = none

/-- A loom's stores stay within its reach; a line held outside the part may come home beside (R327). -/
def LoomStores (s t : State) (l : Nat) (rs : List (Nat × Nat)) (c : Nat) : Prop :=
  ∀ b, ownByte s b → outOfReach s l b → (∀ r ∈ rs, b < spAddr c r.1 ∨ spAddr c r.1 + r.2 ≤ b) → cget t.mem b = cget s.mem b

/-- A report that a step took into the ledger (R423): its entry holds the class and the time, and a new entry names the suspect. -/
def Reported (s t : State) (r : FaultRep) : Prop := ∃ e, tfind t.ledger (ledgerIndex s r) = some e ∧
  e.classes.getLsbD (classBit r.cls) = true ∧ e.last = s.time ∧ 1 ≤ e.count ∧
  (tfind s.ledger (ledgerIndex s r) = none → e.sDev = r.dev ∧ e.sType = r.type ∧ e.sInst = r.inst ∧ e.first = s.time ∧ e.info1 = r.info1)

/-- A step sends a device some message that `p` holds of (R310, R311): whenever a route to it exists, such a message is among those sent after the messages before the step. -/
def SentTo (s t : State) (d : BitVec 14) (p : TapMsg → Prop) : Prop :=
  (d.toNat = ownDev s ∨ routeSet s d.toNat ≠ []) → ∃ m k, (m, k) ∈ t.router.sent.drop s.router.sent.length ∧ m.dstDev = d ∧ p m

/-- A step sends this very message. -/
def Sent (s t : State) (m : TapMsg) : Prop := SentTo s t m.dstDev fun x => x = m

/-- The row that serves an arriving request, if one does (R313, R326, R327). -/
def servedBy (m : TapMsg) : Option Instr :=
  match m.op with
  | .read => some (.tapestryRequest m)
  | .write => some (.tapestryRequest m)
  | .atomic => some (if m.coh then .readOwn m else .tapestryRequest m)
  | .knotSignal => some (.knotSignal m)
  | .copy => some (.copy m)
  | .readShared => some (.readShared m)
  | .readOwn => some (.readOwn m)
  | .evict => some (.evict m)
  | _ => none

/-- A message for this part that nothing turns away, in its turn (R309, R322, R405). -/
def inTurn (s : State) (m : TapMsg) : Prop :=
  m.dstDev.toNat = ownDev s ∧ s.power.s5 = false ∧ inboundBar s m = none ∧ seqPlace s m = .next

/-- A request in its turn that an export window of loom `l` grants, at a local address that exists and answers (R313, R315, R317). -/
def grantedBy (s : State) (m : TapMsg) (l : Nat) : Prop :=
  inTurn s m ∧ badReq s m = false ∧ (∃ e, (expFor s m.srcDev.toNat m.srcLoom.val m.addr.toNat (spanOf m) (rightOf m) (decide (vcOf m = 2))).1 = some (l, e)) ∧
  placeOf s m.addr.toNat ≠ .hole ∧ ∀ st o, placeOf s m.addr.toNat = .dram st o → stackOut s st = false

/-- The parts that the end of a Tapestry request may change (R315, R323): the operation, copy or collective that made it goes on or fails. -/
def fabricParts : List Part := [.cores, .entries, .coll, .knotQ] ++ accessParts

/-- The registers that the end of a Tapestry request may change. -/
def fabricRegs : Nat → Prop := fun k => accessRegs k ∨ pageRegs (tapKey 0) k ∨ ∃ c, k = coreKey c 0x180

/-- No collective can go on: none waits for a group that is free, and none has a unit of work (R339, R341). -/
def collIdle (s : State) : Prop := wakeable s = none ∧ ∀ r ∈ s.coll.runs, collStep (fresh s) r = none

/-- No access of a loom to the part's own memory waits (R291, R293, R327): no line is held outside, no stack refreshes itself, and the loom may borrow on every stack while no cap is in force. -/
def neverWaits (s : State) (l : Nat) : Prop :=
  s.coh.dir = [] ∧ s.coh.busy = [] ∧ ∀ st, st < 8 → (stackOf s st).selfRefresh = false ∧ regBorrow s l st = true ∧ capped s st = false

/-- Local memory that a unit may touch for a loom, and whose blocks hold no error (R271, R286, R406). -/
def openTo (s : State) (w : Who) (l a n : Nat) (wr : Bool) : Prop :=
  holdsBytes s a = true ∧ isTap a = false ∧ allowed s l a n wr = true ∧ shutPlace s w a = false ∧ ∀ b ∈ blocksOf a n, badBlock s b = false

/-- Fuses after a step against those before (R7, R445): what identifies the part stays, and the anti-rollback count, the revoked keys and the debug disable only grow. -/
def FusesGrow (a b : Fuses) : Prop :=
  b.grade = a.grade ∧ b.stepMajor = a.stepMajor ∧ b.stepMinor = a.stepMinor ∧ b.coreEn = a.coreEn ∧ b.badCols = a.badCols ∧
  b.uniqueId = a.uniqueId ∧ b.keyHash = a.keyHash ∧ b.dbgKeyHash = a.dbgKeyHash ∧
  a.arbCount ≤ b.arbCount ∧ (∀ i, a.revoked.getLsbD i = true → b.revoked.getLsbD i = true) ∧ (a.dbgDisable = true → b.dbgDisable = true)

/-- Local memory, host memory and flash are in canonical form. -/
def StorageWf (s : State) : Prop := Memory.wf s.mem = true ∧ Memory.wf s.host = true ∧ Memory.wf s.spi = true

end Sys2Proof.Machine
end

