-- ==== Sys2Proof/Certificates/Slice0/Obligations.lean ====
section
/-! DEFINITION. The statements for the provers. Each says which rule of spec/ it formalises; a clause that rests on a choice of the model names its log entry. A completion clause has the form: the command answers a next state t, what t holds, and the frame of the command. -/

open Sys2Proof Sys2Proof.Machine


-- ## Power, clocks and heat (17)

/-- R391, R396, R377, R399, R454: PROCHOT_N or PWR_BRAKE_N low, and a cooling fault, demand S3, S4 and S5 and show their cause; a pin high again withdraws its cause. The level in force stays: the rows SHED_LEVEL_RISE and SHED_LEVEL_FALL change it. The emergencies of PWR_OK, a rail and REFCLK_SYS demand S5 from stage 3 of the boot order on; the loss of REFCLK_SYS stops the region PLLs and moves the AON domain to its oscillator, its return undoes both unless the straps keep the oscillator. -/
def Obligations.PinAndBoardDemands : Prop :=
  (∀ s : State,
    (∃ t, exec .prochotAssert s = .next t ∧ t.board = { s.board with prochotN := false } ∧
      t.power = { s.power with prochot := true, belowSince := t.power.belowSince } ∧
      3 ≤ rdF t (pcmKey 0x110) 5 3 ∧ fbit (rd t (pcmKey 0x110)) 10 = true ∧ shedLevel t = shedLevel s ∧
      Frame (someRegs [pcmKey 0x110]) [.board, .power] s t) ∧
    (∃ t, exec .pwrBrakeAssert s = .next t ∧ t.board = { s.board with pwrBrakeN := false } ∧
      t.power = { s.power with brake := true, belowSince := t.power.belowSince } ∧
      4 ≤ rdF t (pcmKey 0x110) 5 3 ∧ fbit (rd t (pcmKey 0x110)) 11 = true ∧ shedLevel t = shedLevel s ∧
      Frame (someRegs [pcmKey 0x110]) [.board, .power] s t) ∧
    (∃ t, exec .coolingFault s = .next t ∧ t.power = { s.power with emCool := true, belowSince := t.power.belowSince } ∧
      5 ≤ rdF t (pcmKey 0x110) 5 3 ∧ fbit (rd t (pcmKey 0x110)) 12 = true ∧ shedLevel t = shedLevel s ∧
      Frame (someRegs [pcmKey 0x110]) [.power] s t) ∧
    (∃ t, exec .prochotDeassert s = .next t ∧ t.board = { s.board with prochotN := true } ∧
      t.power = { s.power with prochot := false, belowSince := t.power.belowSince } ∧
      fbit (rd t (pcmKey 0x110)) 10 = false ∧ shedLevel t = shedLevel s ∧ Frame (someRegs [pcmKey 0x110]) [.board, .power] s t) ∧
    (∃ t, exec .pwrBrakeDeassert s = .next t ∧ t.board = { s.board with pwrBrakeN := true } ∧
      t.power = { s.power with brake := false, belowSince := t.power.belowSince } ∧
      fbit (rd t (pcmKey 0x110)) 11 = false ∧ shedLevel t = shedLevel s ∧ Frame (someRegs [pcmKey 0x110]) [.board, .power] s t)) ∧
  (∀ s : State,
    (∃ t, exec .pwrOkFall s = .next t ∧ t.board = { s.board with pwrOk := false } ∧
      (3 ≤ bootStage s → t.power.emPwr = true ∧ 5 ≤ rdF t (pcmKey 0x110) 5 3 ∧ fbit (rd t (pcmKey 0x110)) 12 = true) ∧
      Frame (someRegs [pcmKey 0x110]) [.board, .power] s t) ∧
    (∃ t, exec .railOutOfRange s = .next t ∧
      (3 ≤ bootStage s → t.power.emRail = true ∧ 5 ≤ rdF t (pcmKey 0x110) 5 3 ∧ fbit (rd t (pcmKey 0x110)) 12 = true) ∧
      Frame (someRegs [pcmKey 0x110]) [.power] s t) ∧
    (∃ t, exec .refclkLoss s = .next t ∧ t.board = { s.board with refclk := false } ∧
      fbit (rd t (pcmKey 0x108)) 0 = true ∧ rdF t (pcmKey 0x108) 15 8 = 0 ∧
      5 ≤ rdF t (pcmKey 0x110) 5 3 ∧ fbit (rd t (pcmKey 0x110)) 12 = true ∧
      Frame (someRegs [pcmKey 0x108, pcmKey 0x110]) [.board, .power] s t) ∧
    (∃ t, exec .refclkReturn s = .next t ∧ t.board = { s.board with refclk := true } ∧ t.power.emRef = false ∧
      fbit (rd t (pcmKey 0x108)) 0 = decide (rdF s (rstKey 0x104) 3 2 = 3) ∧
      (3 ≤ bootStage s → s.power.s5 = false → rdF s (rstKey 0x104) 3 2 ≠ 3 → rdF t (pcmKey 0x108) 15 8 = 255) ∧
      Frame (someRegs [pcmKey 0x108, pcmKey 0x110]) [.board, .power] s t))

/-- R391, R9: PCM_SHED_REQ takes a level 0 to 5 and demands it, with its cause while it is not 0; a write of a reserved level changes nothing. R392, R395: the level rises to the highest level demanded, the rise is counted and its time kept, and each loom that is not DESTROYED gets one SHED_LEVEL event with the new level. R392, R394: the level falls to the highest level still demanded once every demand has stayed below it for 195,313 ticks, from S5 only once S5 has been reached; before that, and while some demand reaches it, it stays. -/
def Obligations.SheddingLevels : Prop :=
  (∀ (s : State) (v : BitVec 3),
    (v.toNat ≤ 5 → ∃ t, exec (.pcmShedReqWrite v) s = .next t ∧ rdF t (pcmKey 0x10C) 2 0 = v.toNat ∧ v.toNat ≤ rdF t (pcmKey 0x110) 5 3 ∧
      fbit (rd t (pcmKey 0x110)) 13 = decide (v.toNat ≠ 0) ∧ shedLevel t = shedLevel s ∧
      Frame (someRegs [pcmKey 0x10C, pcmKey 0x110]) [.power] s t) ∧
    (5 < v.toNat → exec (.pcmShedReqWrite v) s = .next s)) ∧
  (∀ s : State,
    (let K := fun k => k ∈ [pcmKey 0x110, pcmKey 0x11C] ∨ (∃ x, k = drcKey x 0x100) ∨ (∃ x, k = codecKey x 0x100) ∨
       (∃ x, k = loomKey x 0x4A8) ∨ ∃ x, k = regionKey x 0x104
     let told := fun t : State => ∀ l, l < 32 → loomSt s l ≠ 0 →
       ∃ e ∈ tget [] t.produced l, e.type = 0x70 ∧ e.info0 = BitVec.ofNat 64 (demandNow s) ∧ e.time = s.time
     (eventsOpen s → shedLevel s < demandNow s → ∃ t, exec .shedLevelRise s = .next t ∧ shedLevel t = demandNow s ∧
       rd t (pcmKey 0x11C) = rd s (pcmKey 0x11C) + 1 ∧ t.power.riseAt = s.time ∧ told t ∧
       Frame K [.power, .looms, .entries, .cores, .produced] s t) ∧
     (demandNow s ≤ shedLevel s → exec .shedLevelRise s = .next s) ∧
     (eventsOpen s → ∀ b, s.power.belowSince = some b → 195313 ≤ (s.time - b).toNat → demandNow s < shedLevel s → (shedLevel s < 5 ∨ s.power.s5 = true) →
       ∃ t, exec .shedLevelFall s = .next t ∧ shedLevel t = demandNow s ∧ rd t (pcmKey 0x11C) = rd s (pcmKey 0x11C) ∧ told t ∧
         Frame K [.power, .looms, .entries, .cores, .produced] s t) ∧
     (∀ b, s.power.belowSince = some b → (s.time - b).toNat < 195313 → exec .shedLevelFall s = .next s) ∧
     (s.power.belowSince = none ∨ shedLevel s ≤ demandNow s ∨ (5 ≤ shedLevel s ∧ s.power.s5 = false) → exec .shedLevelFall s = .next s)))

/-- R388, R391, R386, R387, R296, R298: a detected droop halves the region's clock and is counted once until it is restored, 1 µs after the last detection; a long sag demands S1. The other regions stay. A sample sets the temperature register to the highest reading of the die's 12, or the stack's 16, sensors; the halt bit sets at 118 °C, or 100 °C for a stack, clears below 113 °C, or 98 °C, and else stays, and the trip latches THERMTRIP_N and its cause. -/
def Obligations.DroopAndHeat : Prop :=
  (∀ (s : State) (r : RegionId),
    (∀ sagLong, ∃ t, exec (.droopDetect r sagLong) s = .next t ∧ (regionOf t r).droop = true ∧ (regionOf t r).droopAt = s.time ∧
      rd t (regionKey r 0x10C) = (if (regionOf s r).droop then rd s (regionKey r 0x10C) else rd s (regionKey r 0x10C) + 1) ∧
      (sagLong = true → 1 ≤ rdF t (pcmKey 0x110) 5 3 ∧ fbit (rd t (pcmKey 0x110)) 8 = true) ∧
      (∀ q, q ≠ r.val → regionOf t q = regionOf s q) ∧ Frame (someRegs [regionKey r 0x10C, pcmKey 0x110]) [.regions, .power] s t) ∧
    ((regionOf s r).droop = true → elapsedUs s.time (regionOf s r).droopAt 1 = true →
      ∃ t, exec (.droopRestore r) s = .next t ∧ (regionOf t r).droop = false ∧ (∀ q, q ≠ r.val → regionOf t q = regionOf s q) ∧
        Frame (someRegs [pcmKey 0x110]) [.regions, .power] s t)) ∧
  (∀ s : State,
    (eventsOpen s → ∀ (r : RegionId) (rs : List (BitVec 11)), ∃ t, exec (.junctionTempSample r rs) s = .next t ∧
      (∀ x ∈ rs.take 12, x.toNat ≤ rdF t (regionKey r 0x108) 10 0) ∧
      (rs ≠ [] → ∃ x ∈ rs.take 12, x.toNat = rdF t (regionKey r 0x108) 10 0) ∧
      ((∃ x ∈ rs.take 12, 944 ≤ x.toNat) → fbit (rd t (regionKey r 0x104)) 7 = true) ∧
      ((∀ x ∈ rs.take 12, x.toNat < 904) → fbit (rd t (regionKey r 0x104)) 7 = false) ∧
      ((∀ x ∈ rs.take 12, x.toNat < 944) → (∃ x ∈ rs.take 12, 904 ≤ x.toNat) → fbit (rd t (regionKey r 0x104)) 7 = (regionOf s r).halt) ∧
      ((∃ x ∈ rs.take 12, 1000 ≤ x.toNat) → t.board.thermTrip = true ∧ fbit (rd t (rstKey 0x100)) 2 = true) ∧
      Frame (fun k => k ∈ [regionKey r 0x108, rstKey 0x100] ∨ (∃ x, k = loomKey x 0x4A8) ∨ ∃ x, k = regionKey x 0x104)
        [.regions, .produced, .looms, .entries, .cores, .board] s t) ∧
    (eventsOpen s → ∀ (st : StackId) (rs : List (BitVec 11)), ∃ t, exec (.stackTempSample st rs) s = .next t ∧
      (∀ x ∈ rs.take 16, x.toNat ≤ rdF t (drcKey st 0x104) 10 0) ∧
      (rs ≠ [] → ∃ x ∈ rs.take 16, x.toNat = rdF t (drcKey st 0x104) 10 0) ∧
      ((∃ x ∈ rs.take 16, 800 ≤ x.toNat) → fbit (rd t (drcKey st 0x100)) 7 = true) ∧
      ((∀ x ∈ rs.take 16, x.toNat < 784) → fbit (rd t (drcKey st 0x100)) 7 = false) ∧
      ((∀ x ∈ rs.take 16, x.toNat < 800) → (∃ x ∈ rs.take 16, 784 ≤ x.toNat) → fbit (rd t (drcKey st 0x100)) 7 = fbit (rd s (drcKey st 0x100)) 7) ∧
      ((∃ x ∈ rs.take 16, 840 ≤ x.toNat) → t.board.thermTrip = true ∧ fbit (rd t (rstKey 0x100)) 2 = true) ∧
      Frame (fun k => k ∈ [drcKey st 0x104, rstKey 0x100] ∨ (∃ x, k = drcKey x 0x100) ∨ (∃ x, k = loomKey x 0x4A8) ∨ ∃ x, k = regionKey x 0x104)
        [.stackTab, .produced, .looms, .entries, .cores, .board] s t))

/-- R382, R383, R385, R389: CEIL of a region is no faster than any ceiling in force on it; a change of operating point shows CHANGING from its start to its end, lowers the clock at its start or raises it at its end, and the gradient and package ceilings move one point at a time. -/
def Obligations.OperatingPoints : Prop := ∀ s : State,
  (∀ (r : RegionId) (v : BitVec 3), s.power.s5 = false → (blkOf s (regionKey r 0)).resetting = false → ∃ t, exec (.drOpCtrlWrite r v) s = .next t ∧
    rdF t (regionKey r 0x100) 2 0 = v.toNat ∧ (∀ q, q < 8 → ∀ p ∈ ownCeilings t q, p.2 ≤ rdF t (regionKey q 0x104) 5 3) ∧
    Frame (fun k => k = regionKey r 0x100 ∨ ∃ x, k = regionKey x 0x104) [] s t) ∧
  (∀ r : RegionId, (regionOf s r).target = none → rdF (reeval s) (regionKey r 0x104) 5 3 ≠ rdF s (regionKey r 0x104) 2 0 →
    ∃ t, exec (.opPointChange r) s = .next t ∧ (regionOf t r).target = some (BitVec.ofNat 3 (rdF (reeval s) (regionKey r 0x104) 5 3)) ∧
      fbit (rd t (regionKey r 0x104)) 6 = true ∧
      (rdF s (regionKey r 0x104) 2 0 < rdF (reeval s) (regionKey r 0x104) 5 3 →
        rdF t (regionKey r 0x104) 2 0 = rdF (reeval s) (regionKey r 0x104) 5 3 ∧ rdF t (regionKey r 0x110) 10 0 = rdF s (regionKey r 0x110) 10 0) ∧
      (rdF (reeval s) (regionKey r 0x104) 5 3 < rdF s (regionKey r 0x104) 2 0 →
        rdF t (regionKey r 0x104) 2 0 = rdF s (regionKey r 0x104) 2 0 ∧
        rdF t (regionKey r 0x110) 10 0 = opMv (rdF (reeval s) (regionKey r 0x104) 5 3)) ∧
      Frame (fun k => k = regionKey r 0x110 ∨ ∃ x, k = regionKey x 0x104) [.regions] s t) ∧
  (∀ (r : RegionId) (p : BitVec 3), (regionOf s r).target = some p → ∃ t, exec (.opPointChange r) s = .next t ∧
    (regionOf t r).target = none ∧ fbit (rd t (regionKey r 0x104)) 6 = false ∧ rdF t (regionKey r 0x104) 2 0 = p.toNat ∧
    rdF t (regionKey r 0x110) 10 0 = opMv p.toNat ∧ Frame (fun k => k = regionKey r 0x110 ∨ ∃ x, k = regionKey x 0x104) [.regions] s t) ∧
  (∀ a b : RegionId, b.val ∈ regionNbrs a → elapsedUs s.time (regionOf s a).gradAt 1000 = true → regionTj s b + 280 < regionTj s a →
    rdF s (regionKey a 0x104) 5 3 < 7 → ∃ t, exec (.neighbourGradientStep a b) s = .next t ∧
      (regionOf t a).grad.toNat = rdF s (regionKey a 0x104) 5 3 + 1 ∧ (regionOf t a).gradAt = s.time ∧
      (∀ q, q ≠ a.val → regionOf t q = regionOf s q) ∧ Frame (fun k => ∃ x, k = regionKey x 0x104) [.regions] s t) ∧
  (∀ (ws : List (BitVec 10)) (w : BitVec 12), ∃ t, exec (.pkgPowerSample ws w) s = .next t ∧ rdF t (pcmKey 0x118) 11 0 = w.toNat ∧
    (∀ r, r < 8 → rdF t (regionKey r 0x114) 9 0 = (ws.getD r 0).toNat) ∧
    (rdF s (pcmKey 0x114) 11 0 < w.toNat → s.power.pkgCeil < 7 → elapsedUs s.time s.power.pkgFallAt 100 = true →
      t.power.pkgCeil = s.power.pkgCeil + 1) ∧
    (w.toNat * 100 ≤ rdF s (pcmKey 0x114) 11 0 * 95 → 0 < s.power.pkgCeil → elapsedUs s.time s.power.pkgRiseAt 1000 = true →
      t.power.pkgCeil = s.power.pkgCeil - 1) ∧
    (w.toNat ≤ rdF s (pcmKey 0x114) 11 0 → t.power.budget = 0) ∧
    Frame (fun k => k ∈ [pcmKey 0x118, pcmKey 0x110] ∨ (∃ x, k = regionKey x 0x114) ∨ ∃ x, k = regionKey x 0x104) [.power] s t)

/-- R376, R439, R447: a read of the lower half of the timestamp or of the energy count, behind no BAR4 write that still waits, returns it and latches the upper half (what a read does to the writes before it is said at HostAccess); telemetry updates together and counts the update unless it is frozen; the power peak clears. -/
def Obligations.TimeAndTelemetry : Prop := ∀ s : State,
  ((s.posted = [] ∨ s.power.s5 = true) → ∃ t, exec .pcmTimeLoRead s = .next t ∧ t.resp = .data (toLe 4 s.time.toNat) ∧ rd t (pcmKey 0x100) = s.time.setWidth 32 ∧
    rd t (pcmKey 0x104) = s.time.extractLsb' 32 32 ∧ Frame (someRegs [pcmKey 0x100, pcmKey 0x104]) [.resp] s t) ∧
  ((s.posted = [] ∨ s.power.s5 = true) → ∃ t, exec .tlmEnergyLoRead s = .next t ∧ t.resp = .data (toLe 4 s.power.energy.toNat) ∧
    rd t (tlmKey 0x114) = s.power.energy.extractLsb' 32 32 ∧ Frame (someRegs [tlmKey 0x114]) [.resp] s t) ∧
  (∀ (rails : List (BitVec 16 × BitVec 16)) (en : Word64), fbit (rd s (tlmKey 0x100)) 0 = false →
    ∃ t, exec (.tlmRefresh rails en) s = .next t ∧ rd t (tlmKey 0x104) = rd s (tlmKey 0x104) + 1 ∧ rd t (tlmKey 0x110) = en.setWidth 32 ∧
      t.power.energy = en ∧
      (∀ n, n < 24 → n < rails.length → rdF t (tlmKey (0x140 + 4 * n)) 15 0 = (rails.getD n (0, 0)).1.toNat ∧
        rdF t (tlmKey (0x140 + 4 * n)) 31 16 = (rails.getD n (0, 0)).2.toNat) ∧
      rdF t (tlmKey 0x118) 11 0 = max (rdF s (tlmKey 0x118) 11 0) (rdF s (pcmKey 0x118) 11 0) ∧
      Frame (fun k => k ∈ [tlmKey 0x104, tlmKey 0x108, tlmKey 0x10C, tlmKey 0x110, tlmKey 0x118, pcmKey 0x110] ∨
        ∃ n, n < 24 ∧ k = tlmKey (0x140 + 4 * n)) [.power] s t) ∧
  (∀ (rails : List (BitVec 16 × BitVec 16)) (en : Word64), fbit (rd s (tlmKey 0x100)) 0 = true → exec (.tlmRefresh rails en) s = .next s) ∧
  ((blkOf s 0x700000).resetting = false → ∃ t, exec .tlmPkgPeakClear s = .next t ∧ rdF t (tlmKey 0x118) 11 0 = 0 ∧
    Frame (someRegs [tlmKey 0x118]) [] s t)

/-- R379: a running core with nothing in flight and empty ports gates its clock; a clock-gated core wakes with its memory as it was, a power-gated core of a RUNNING, QUIESCING or QUIESCED loom that is not retired wakes, while S5 is not in force, with its scratchpad and accumulators zero. -/
def Obligations.CoreGating : Prop := ∀ (s : State) (c : CoreId),
  (rd s (coreKey c 0x38) = 0 → (coreOf s c).slots = [] → (∀ p ∈ (coreOf s c).rx, p.2 = []) →
    ∃ t, exec (.coreClockGate c) s = .next t ∧ rd t (coreKey c 0x38) = 1 ∧ Frame (someRegs [coreKey c 0x38]) [] s t) ∧
  (rd s (coreKey c 0x38) = 1 → ∃ t, exec (.coreWake c) s = .next t ∧ rd t (coreKey c 0x38) = 0 ∧ Frame (someRegs [coreKey c 0x38]) [] s t) ∧
  (∀ l, rd s (coreKey c 0x38) = 2 → ownerOfPage s (coreKey c 0) = some l → 2 ≤ loomSt s l → s.power.s5 = false → coreAvail s c = true →
    ∃ t, exec (.coreWake c) s = .next t ∧ rd t (coreKey c 0x38) = 0 ∧
      (∀ a, cget t.mem a = if spAddr c 0 ≤ a ∧ a < spAddr c 0 + 0x1C00000 then 0 else cget s.mem a) ∧
      Frame (fun k => k = coreKey c 0x38 ∨ (∃ x, k = regionKey x 0x104) ∨ ∃ x, k = regionKey x 0x110) [.mem] s t)

/-- R390, R393: S5 is entered once every core has stopped or 1 ms has passed, and the accesses of the images and records it writes are served: cores and codec channels are power-gated, stacks that are READY or under test self-refresh, collectives are over, the region PLLs stop and no link transmits. It is left once the level has fallen: stacks leave self-refresh, the PLLs run, cores of RUNNING looms that are not retired wake and codecs pause or run by the level. -/
def Obligations.S5EntryAndExit : Prop := ∀ s : State,
  (shedLevel s = 5 → atWork s → (allStopped s = true ∨ elapsedUs s.time s.power.riseAt 1000 = true) → accessesServed (enterS5 (fresh s)) →
    ∃ t, exec .s5Entry s = .next t ∧ t.power = { s.power with s5 := true } ∧ (∀ c, c < 384 → rd t (coreKey c 0x38) = 2) ∧
      (∀ n, n < 16 → rd t (codecKey n 0x38) = 2 ∧ rd t (codecKey n 0x100) = 0 ∧ (codecOf t n).session = none) ∧
      (∀ st, st < 8 → stackSt s st = 1 ∨ stackSt s st = 3 → (stackOf t st).selfRefresh = true) ∧ t.coll.runs = [] ∧
      rdF t (pcmKey 0x108) 15 8 = 0 ∧ t.board.wfIdle = BitVec.allOnes 16 ∧ (∀ l, l < 32 → loomSt t l = loomSt s l) ∧
      Frame (fun k => k ∈ [pcmKey 0x108, rstKey 0x114, mbxKey 0x214, 0x22108] ∨ cfgCmdRegs k ∨ 0x50000 ≤ k)
        ([.cores, .entries, .looms, .creel, .creelCache, .blks, .coll, .codecs, .board, .rings, .endSeq, .power] ++ accessParts) s t) ∧
  (shedLevel s = 5 → atWork s → allStopped s = false → elapsedUs s.time s.power.riseAt 1000 = false → exec .s5Entry s = .next (fresh s)) ∧
  (s.power.s5 = true → shedLevel s ≠ 5 →
    ∃ t, exec .s5Exit s = .next t ∧ t.power = { s.power with s5 := false } ∧ (∀ st, st < 8 → (stackOf t st).selfRefresh = false) ∧
      rdF t (pcmKey 0x108) 15 8 = 255 ∧ (∀ l, l < 32 → loomSt s l = 2 → ∀ c ∈ loomCores s l, coreAvail s c = true → rd t (coreKey c 0x38) = 0) ∧
      (∀ n, n < 16 → fbit (rd t (codecKey n 0x100)) 9 = codecPaused s n) ∧
      Frame (fun k => k = pcmKey 0x108 ∨ (∃ x, k = wfpKey x 0x104) ∨ (∃ x, k = coreKey x 0x38) ∨ (∃ x, k = codecKey x 0x100) ∨
        (∃ x, k = regionKey x 0x104) ∨ ∃ x, k = regionKey x 0x110) [.power, .stackTab, .links, .board, .mem, .looms, .entries, .cores] s t)

-- ## Resets and boot (18)

/-- R398, R453, R376: an internal power-on reset returns every register, buffer and memory to its reset state and the timestamp to 0; the fuses, the flash and the host stay. Only the pins, the straps they give and the demands they make differ from State.reset. That memory arrays read 0 afterwards is log entry 4. -/
def Obligations.PowerOnResetClears : Prop := ∀ (s : State) (straps : BitVec 7) (rn : Bool),
  ∃ t, exec (.powerOnReset straps rn) s = .next t ∧ t.board.resetN = rn ∧ t.board.thermTrip = false ∧ t.board.pwrOk = s.board.pwrOk ∧
    t.board.perstN = s.board.perstN ∧ t.board.prochotN = s.board.prochotN ∧ t.board.pwrBrakeN = s.board.pwrBrakeN ∧
    (rn = true → t.board.straps = straps) ∧ t.power.prochot = !s.board.prochotN ∧ t.power.brake = !s.board.pwrBrakeN ∧
    Frame (someRegs [pcmKey 0x108, pcmKey 0x110, rstKey 0x104, rstKey 0x108, wfpKey 0 0x100, wfpKey 0 0x104]) [.power, .board, .boot, .links]
      { State.reset with fuse := s.fuse, host := s.host, spi := s.spi, pending := s.pending } t

/-- R398, R454, R400, R401, R409, R399, R404, R438, R440: RESET_N low, or the loss of VDD_IO18, resets every block but the always-on domain: the timestamp, the power and clock manager's page and its demands stay, RST_CAUSE shows the pin, and the ROM waits. That memory arrays keep their bytes is log entry 4. At the release of a reset the straps are sampled: the ROM waits for an image in stage 1, unless THERMTRIP_N is latched (FAIL_CODE 7) or the boot strap is reserved (FAIL_CODE 1). PERST_N low counts, takes the link down, clears MSI-X and asks for the PCIe block's reset; high again it only releases the link; BAR4 takes 2^0 to 2^9 GiB. -/
def Obligations.PinsOfResetAndPcie : Prop :=
  (∀ s : State,
    (∃ t, exec .resetNAssert s = .next t ∧ t.board.resetN = false ∧ t.board.thermTrip = s.board.thermTrip ∧ t.power = s.power ∧ t.boot.waiting = false ∧
      (∀ k, 0x2000 ≤ k → k < 0x3000 → rd t k = rd s k) ∧ fbit (rd t (rstKey 0x100)) 1 = true ∧
      (∀ i, i ≠ 1 → fbit (rd t (rstKey 0x100)) i = fbit (rd s (rstKey 0x100)) i) ∧
      Frame (fun k => (0x2000 ≤ k ∧ k < 0x3000) ∨ k = rstKey 0x100) [.power, .board, .boot]
        { State.reset with fuse := s.fuse, time := s.time, mem := s.mem, badBlocks := s.badBlocks, spi := s.spi, host := s.host, pending := s.pending } t) ∧
    (∃ t, exec .vddIo18Loss s = .next t ∧ t.board.vddIo18 = false ∧ t.board.pinsHiZ = true ∧ t.power = s.power ∧ t.boot.waiting = false ∧
      (∀ k, 0x2000 ≤ k → k < 0x3000 → rd t k = rd s k) ∧ fbit (rd t (rstKey 0x100)) 1 = true ∧
      Frame (fun k => (0x2000 ≤ k ∧ k < 0x3000) ∨ k = rstKey 0x100) [.power, .board, .boot]
        { State.reset with fuse := s.fuse, time := s.time, mem := s.mem, badBlocks := s.badBlocks, spi := s.spi, host := s.host, pending := s.pending } t)) ∧
  (∀ (s : State) (straps : BitVec 7),
    (s.board.resetN = false → s.board.vddIo18 = true → ∃ t, exec (.resetNRelease straps) s = .next t ∧ t.board.resetN = true ∧ t.board.straps = straps ∧
      rd t (rstKey 0x104) = straps.setWidth 32 ∧
      (s.board.thermTrip = true → t.boot.waiting = false ∧ rdF t (rstKey 0x108) 15 8 = 7) ∧
      (s.board.thermTrip = false → rdF t (rstKey 0x108) 3 0 = 1 ∧ (bitsOf straps.toNat 1 0 ≠ 3 → t.boot.waiting = true) ∧
        (bitsOf straps.toNat 1 0 = 3 → t.boot.waiting = false ∧ rdF t (rstKey 0x108) 15 8 = 1) ∧ (bitsOf straps.toNat 1 0 = 1 → t.boot.ltssm = true)) ∧
      Frame (someRegs [pcmKey 0x108, rstKey 0x104, rstKey 0x108, wfpKey 0 0x100, wfpKey 0 0x104]) [.board, .boot, .links] s t) ∧
    (s.board.vddIo18 = false → s.board.resetN = true → ∃ t, exec (.vddIo18Return straps) s = .next t ∧ t.board.vddIo18 = true ∧ t.board.pinsHiZ = false ∧
      t.board.straps = straps ∧ rd t (rstKey 0x104) = straps.setWidth 32 ∧
      (s.board.thermTrip = false → rdF t (rstKey 0x108) 3 0 = 1 ∧ (bitsOf straps.toNat 1 0 ≠ 3 → t.boot.waiting = true)) ∧
      Frame (someRegs [pcmKey 0x108, rstKey 0x104, rstKey 0x108, wfpKey 0 0x100, wfpKey 0 0x104]) [.board, .boot, .links] s t)) ∧
  (∀ s : State,
    (∃ t, exec .perstNFall s = .next t ∧ t.board = { s.board with perstN := false, msixEn := 0 } ∧ t.boot = { s.boot with pcieUp := false } ∧
      rd t (rstKey 0x110) = rd s (rstKey 0x110) + 1 ∧ ((blkOf t 0x300000).pending = true ∨ (blkOf t 0x300000).resetting = true) ∧
      (∀ p, p ≠ 0x300000 → blkOf t p = blkOf s p) ∧
      Frame (fun k => k ∈ [rstKey 0x110, 0x300020] ∨ (0x310000 ≤ k ∧ k < 0x319000) ∨ vfMsix 0 ≤ k) [.board, .boot, .blks] s t) ∧
    (exec .perstNRise s = .next { s with board := { s.board with perstN := true } }) ∧
    (∀ v : BitVec 5, v.toNat ≤ 9 → ∃ t, exec (.resizableBarWrite v) s = .next t ∧ rd t 0x300104 = v.setWidth 32 ∧ Frame (someRegs [0x300104]) [] s t) ∧
    (∀ v : BitVec 5, 9 < v.toNat → exec (.resizableBarWrite v) s = .next s))

/-- R409: an image reaches the staging area from flash, from the host or from a peer, byte for byte, and nothing else in memory changes; each flit of a peer's image is acknowledged. -/
def Obligations.ImageLoads : Prop := ∀ s : State,
  (s.boot.waiting = true → s.boot.present = false → bootSource s = 0 → s.boot.nextSlot ≤ 1 → ∃ t, exec .romImageLoad s = .next t ∧
    t.boot = { s.boot with present := true, imgBytes := imageBytes (cgets s.spi (s.boot.nextSlot * 0x1000000) 512) } ∧
    (∀ i, i < t.boot.imgBytes → cget t.mem (stagingAddr + i) = cget s.spi (s.boot.nextSlot * 0x1000000 + i)) ∧
    (∀ a, a < stagingAddr ∨ stagingAddr + t.boot.imgBytes ≤ a → cget t.mem a = cget s.mem a) ∧
    rdF t (rstKey 0x108) 7 7 = s.boot.nextSlot ∧ rdF t (rstKey 0x108) 3 0 = 1 ∧ Frame (someRegs [rstKey 0x108]) [.mem, .boot] s t) ∧
  (s.boot.waiting = true → bootSource s = 1 → s.boot.loading = false → ∃ t, exec .mbxBootGo s = .next t ∧
    t.boot = { s.boot with present := true, loading := true, imgBytes := min (rd s (mbxKey 0x108)).toNat 0x4000000 } ∧
    (∀ i, i < t.boot.imgBytes → cget t.mem (stagingAddr + i) =
      cget s.host (rdF s (mbxKey 0x100) 31 12 * 4096 + (rd s (mbxKey 0x104)).toNat * 2 ^ 32 + i)) ∧
    (∀ a, a < stagingAddr ∨ stagingAddr + t.boot.imgBytes ≤ a → cget t.mem a = cget s.mem a) ∧
    fbit (rd t (mbxKey 0x10C)) 0 = true ∧ Frame (someRegs [mbxKey 0x10C]) [.mem, .boot] s t) ∧
  (∀ (bs : List Byte) (last : Bool), s.boot.waiting = true → s.boot.present = false → bootSource s = 2 → linkWorks s 0 = true →
    s.boot.imgBytes + bs.length ≤ 0x4000000 → ∃ t, exec (.peerBootFlit bs last) s = .next t ∧
      t.boot = { s.boot with imgBytes := s.boot.imgBytes + bs.length, present := last, acks := s.boot.acks + 1 } ∧
      (∀ i, i < bs.length → cget t.mem (stagingAddr + s.boot.imgBytes + i) = bs.getD i 0) ∧
      (∀ a, a < stagingAddr + s.boot.imgBytes ∨ stagingAddr + s.boot.imgBytes + bs.length ≤ a → cget t.mem a = cget s.mem a) ∧
      Frame noReg [.mem, .boot] s t)

/-- R410, R445, R412: FAIL_CODE tells the first check an image fails, 0 when firmware starts; firmware commits its rollback version to the fuses, and no version is ever taken back; each debug attempt uses a fresh challenge and can unlock only what the fuse and the looms allow. What the signature checks answer is log entry 10. -/
def Obligations.ImagesAndDebug : Prop := ∀ s : State,
  (s.boot.waiting = true → s.boot.present = true → ∃ t, exec .imageVerify s = .next t ∧ rdF t (rstKey 0x108) 15 8 = imageCheck s ∧ t.boot.present = false ∧
    t.boot.firmware = (decide (imageCheck s = 0) || s.boot.firmware) ∧
    (imageCheck s = 0 → rdF t (rstKey 0x108) 3 0 = 2 ∧ t.boot.waiting = false ∧ t.boot.arbVer = fieldLe (memRd s stagingAddr 512) 12 4) ∧
    (imageCheck s ≠ 0 → rdF t (rstKey 0x108) 3 0 = rdF s (rstKey 0x108) 3 0 ∧ t.boot.waiting = true) ∧
    Frame (someRegs [rstKey 0x108, mbxKey 0x10C]) [.boot, .board] s t) ∧
  (s.boot.firmware = true → exec .imageCommit s = .next { s with fuse := { s.fuse with arbCount := max s.fuse.arbCount s.boot.arbVer } }) ∧
  (∀ (scope : Bool) (sig : List Byte), ∃ t, exec (.debugUnlock scope sig) s = .next t ∧
    t.boot = { s.boot with dbgAttempts := s.boot.dbgAttempts + 1, dbgScope := t.boot.dbgScope } ∧
    (s.fuse.dbgDisable = true → t.boot.dbgScope = s.boot.dbgScope ∧ t.ledger = s.ledger) ∧
    (scope = true → liveLooms s ≠ [] → t.boot.dbgScope = s.boot.dbgScope ∧ t.ledger = s.ledger) ∧
    (t.boot.dbgScope = s.boot.dbgScope ∨ t.boot.dbgScope = some (scope || s.boot.dbgScope.getD false)) ∧
    Frame (fun k => k = mbxKey 0x214 ∨ ∃ x, k = pbaKey 0 x) [.boot, .ledger, .produced, .msix] s t)

/-- R401, R402, R288, R289, R456: the boot order runs from firmware through the PLLs, DRAM training, the Weft ports and PCIe to READY, one stage after the other. -/
def Obligations.BootOrder : Prop := ∀ s : State,
  (s.boot.firmware = true → bootStage s = 2 → s.board.pwrOk = true → railsInRange s = true → rdF s (rstKey 0x104) 3 2 ≠ 3 → s.board.refclk = true →
    ∃ t, exec .pllStart s = .next t ∧ bootStage t = 3 ∧ rdF t (pcmKey 0x108) 15 8 = 255 ∧
      (∀ r, r < 8 → rdF t (regionKey r 0x110) 10 0 = opMv (rdF s (regionKey r 0x104) 2 0)) ∧
      Frame (fun k => k ∈ [rstKey 0x108, pcmKey 0x108] ∨ ∃ x, k = regionKey x 0x110) [] s t) ∧
  (∀ (fs : List (Nat × Nat × LaneFind)) (us : BitVec 32), bootStage s = 3 → rdF s (rstKey 0x108) 15 8 = 0 →
    ∃ t, exec (.dramTraining fs us) s = .next t ∧ (∀ st, st < 8 → (stackOf t st).trained = true ∧ rd t (drpKey st 0x184) = us ∧
        (stackSt t st = 2 ↔ ∃ c, c < 32 ∧ fbit (rd t (drpKey st (0x100 + 4 * c))) 31 = true) ∧ (stackSt t st = 1 ∨ stackSt t st = 2)) ∧
      (∀ st c, st < 8 → c < 32 → rd t (drpKey st (0x100 + 4 * c)) =
        match (fs.filter fun f => decide (f.1 = st)).find? fun f => decide (f.2.1 = c) with
        | some f => laneMap f.2.2
        | none => 0) ∧
      (stackSt t 0 = 2 → rdF t (rstKey 0x108) 15 8 = 6 ∧ bootStage t = 3) ∧ (stackSt t 0 ≠ 2 → bootStage t = 4) ∧
      Frame (fun k => k = rstKey 0x108 ∨ (∃ x o, k = drpKey x o) ∨ ∃ x, k = drcKey x 0x100) [.stackTab, .boot] s t) ∧
  (bootStage s = 4 → elapsedUs s.time s.boot.weftSince 500000 = true → ∃ t, exec .bootWeftTrainEnd s = .next t ∧ t.boot = { s.boot with ltssm := true } ∧
    t.board = { s.board with peIdle := false } ∧ bootStage t = (if s.boot.pcieUp then 6 else 5) ∧ Frame (someRegs [rstKey 0x108]) [.board, .boot] s t) ∧
  (s.boot.ltssm = true → s.board.perstN = true → blockClosed s .pcie = false → ∃ t, exec .pcieLinkUp s = .next t ∧ t.boot = { s.boot with pcieUp := true } ∧
    (bootStage s = 5 → bootStage t = 6 ∧ ready t = true) ∧ (bootStage s ≠ 5 → bootStage t = bootStage s) ∧ Frame (someRegs [rstKey 0x108]) [.boot] s t)

-- ## Registers and block resets (20, 18)

/-- R8, R9, R436: what a write leaves in each kind of field of any register: RW takes the value unless its encoding is reserved, RWL only while the page is not locked, W1C clears and W1S sets the bits written 1, RO and WO fields and reserved bits stay. -/
def Obligations.FieldWrites : Prop := ∀ (s : State) (k : Nat) (fs : List RField) (v : Word32), fieldsAt k = some fs →
  (∀ f ∈ fs, f.acc = .rw → fld (rd (putReg s k v) k) f.hi f.lo = (if f.min ≤ fld v f.hi f.lo ∧ fld v f.hi f.lo ≤ f.max then fld v f.hi f.lo else fld (rd s k) f.hi f.lo)) ∧
  (∀ f ∈ fs, f.acc = .rwl → pageLocked s k = true → fld (rd (putReg s k v) k) f.hi f.lo = fld (rd s k) f.hi f.lo) ∧
  (∀ f ∈ fs, f.acc = .rwl → pageLocked s k = false → fld (rd (putReg s k v) k) f.hi f.lo =
    (if f.min ≤ fld v f.hi f.lo ∧ fld v f.hi f.lo ≤ f.max then fld v f.hi f.lo else fld (rd s k) f.hi f.lo)) ∧
  (∀ f ∈ fs, f.acc = .w1c → ∀ i, f.lo ≤ i → i ≤ f.hi → fbit (rd (putReg s k v) k) i = (fbit (rd s k) i && !fbit v i)) ∧
  (∀ f ∈ fs, f.acc = .w1s → ∀ i, f.lo ≤ i → i ≤ f.hi → fbit (rd (putReg s k v) k) i = (fbit (rd s k) i || fbit v i)) ∧
  (∀ f ∈ fs, f.acc = .ro ∨ f.acc = .wo → fld (rd (putReg s k v) k) f.hi f.lo = fld (rd s k) f.hi f.lo) ∧
  (∀ i, (∀ f ∈ fs, i < f.lo ∨ f.hi < i) → fbit (rd (putReg s k v) k) i = fbit (rd s k) i) ∧
  Frame (someRegs [k]) [] s (putReg s k v)

/-- R4, R8, R432, R433, R435, R436, R309, R404: a read returns 0 in write-only fields and reserved bits, and a disabled core's page reads 0 everywhere but in BLK_ID. A write made while the PCIe link is down is lost. A whole 32-bit write of a BAR0 register whose write does nothing else takes effect by its access codes, and so does one of a register below 0x100 of a doorbell page; a 64-bit write acts as two 32-bit writes, the lower address first. A write to a reserved offset, to a disabled core's page, or of another width or alignment changes only CHIP_ACC_ERR, which keeps its first record, and its count. LOCK only ever sets, and only where it exists; the device number is taken once. -/
def Obligations.RegisterAccesses : Prop :=
  (∀ (s : State) (off : Nat) (fs : List RField), fieldsAt off = some fs → off % 0x1000 ≠ 0 →
    (∀ b, blockAt off = some b → ∀ i, i < 32 → (∀ f ∈ fs, f.acc = .wo ∨ i < f.lo ∨ f.hi < i) → fbit (regRead s off) i = false) ∧
    (∀ c : CoreId, blockAt off = some (.core c) → coreEnabled s c = false → regRead s off = 0)) ∧
  (∀ s : State,
    (let refused := fun (t : State) (off kind : Nat) => rd t 0x10C = rd s 0x10C + 1 ∧
       rd t 0x108 = (if fbit (rd s 0x108) 31 then rd s 0x108 else BitVec.ofNat 32 (off + kind * 2 ^ 26 + 2 ^ 31)) ∧ Frame (someRegs [0x108, 0x10C]) [] s t
     (s.boot.pcieUp = false → ∀ x off w v, exec (.registerWrite x off w v) s = .next s) ∧
     (s.boot.pcieUp = true → ∀ (off : BitVec 26) (v : Word64) (b : Block) (fs : List RField), blockAt off.toNat = some b → fieldsAt off.toNat = some fs → 0x100 ≤ off.toNat % 0x1000 →
       off.toNat % 4 = 0 → (off.toNat < 0x310000 ∨ 0x318100 ≤ off.toNat) → (blkOf s (pageOf b)).resetting = false → asleep s (pageOf b) = false →
       (match b with
        | .chip => True
        | .rst => True
        | .loader => True
        | .pcie => True
        | .drc _ => True
        | .codec _ => True
        | .core c => coreEnabled s c = true
        | _ => False) →
       ∃ t, exec (.registerWrite .bar0 off .w32 v) s = .next t ∧
         rd t off.toNat = writeFields (pageLocked s off.toNat) fs (v.setWidth 32) (rd s off.toNat) ∧ Frame (someRegs [off.toNat]) [] s t) ∧
     (s.boot.pcieUp = true → ∀ (off : BitVec 26) (v : Word64), off.toNat % 4 = 0 →
       exec (.registerWrite .bar0 off .w64 v) s =
         .next (keep s (bar0Write (bar0Write s off.toNat (v.setWidth 32)) (off.toNat + 4) (v.extractLsb' 32 32)))) ∧
     (s.boot.pcieUp = true → ∀ (off : BitVec 26) (v : Word64) (c : CoreId), off.toNat % 4 = 0 → off.toNat % 0x1000 ≠ 0 → blockAt off.toNat = some (.core c) →
       coreEnabled s c = false → ∃ t, exec (.registerWrite .bar0 off .w32 v) s = .next t ∧ refused t off.toNat 0) ∧
     (s.boot.pcieUp = true → ∀ (fn : FnId) (l : LoomId) (off : BitVec 26) (v : Word64) (fs : List RField), bar2Page s fn off.toNat = some (l, true) → pagesOpen s fn l = true →
       off.toNat % 4 = 0 → 0x10 ≤ off.toNat % 0x1000 → off.toNat % 0x1000 < 0x100 → fieldsAt (dbPage l + off.toNat % 0x1000) = some fs → (fn.val = 0 ∨ off.toNat < 0x1000) →
       ∃ t, exec (.registerWrite (.bar2 fn) off .w32 v) s = .next t ∧
         rd t (dbPage l + off.toNat % 0x1000) = writeFields (pageLocked s (dbPage l + off.toNat % 0x1000)) fs (v.setWidth 32) (rd s (dbPage l + off.toNat % 0x1000)) ∧
         Frame (someRegs [dbPage l + off.toNat % 0x1000]) [] s t) ∧
     (s.boot.pcieUp = true → ∀ (off : BitVec 26) (w : AccWidth) (v : Word64) (kind : Nat),
       ((w = .w8 ∨ w = .w16) ∧ kind = 1) ∨ ((w = .w32 ∨ w = .w64) ∧ off.toNat % 4 ≠ 0 ∧ kind = 3) ∨
         (w = .w32 ∧ off.toNat % 4 = 0 ∧ fieldsAt off.toNat = none ∧ kind = 0) →
       ∃ t, exec (.registerWrite .bar0 off w v) s = .next t ∧ refused t off.toNat kind) ∧
     (∀ b, lockable b = true → (blkOf s (pageOf b)).resetting = false →
       ∃ t, exec (.blkCtrlLock b) s = .next t ∧ fbit (rd t (pageOf b + 8)) 0 = true ∧ Frame (someRegs [pageOf b + 8]) [] s t) ∧
     (∀ b, lockable b = false → deadPage s b = false → asleep s (pageOf b) = false → (blkOf s (pageOf b)).resetting = false → exec (.blkCtrlLock b) s = .next s) ∧
     (∀ b, deadPage s b = true → ∃ t, exec (.blkCtrlLock b) s = .next t ∧ refused t (pageOf b + 8) 0) ∧
     (s.power.s5 = false → (blkOf s 0x200000).resetting = false → ∀ dev : BitVec 14,
       (devValid s = false → ∃ t, exec (.tapDevIdValid dev) s = .next t ∧ ownDev t = dev.toNat ∧ devValid t = true ∧ Frame (someRegs [tapKey 0x100]) [] s t) ∧
       (devValid s = true → exec (.tapDevIdValid dev) s = .next s))))

/-- R405, R408, R406, R407, R4, R67: REQ starts the idle handshake and its timer, and a core drops the work it has not begun to commit; the key, which alone resets, waits for IDLE; a block that resets only with the part, or whose loom runs, refuses both, and a disabled core's page records them. A pending block turns idle once its requests have completed, and a held key then takes effect; the timer forces the reset of a block that does not, which also cuts off a core's commits and zeroes its accumulators; a completed reset returns the block's registers to their reset values but its owner, its power state and its reset record, which counts it, and of memory it changes at most what the collectives that a core's reset aborts would write (R346). -/
def Obligations.BlockResetSequence : Prop :=
  (∀ (s : State) (b : Block),
    (let open' := deadPage s b = false ∧ asleep s (pageOf b) = false ∧ (blkOf s (pageOf b)).resetting = false
     let dropped := fun t : State => ∀ c : CoreId, coreOf t c = (if b = .core c then dropWork (coreOf s c) else coreOf s c)
     (resetRefused s b = false → open' → (blkOf s (pageOf b)).pending = false →
       ∃ t, exec (.blkIdleReq b) s = .next t ∧ fbit (rd t (pageOf b + 0x20)) 0 = true ∧ (blkOf t (pageOf b)).pending = true ∧
         (blkOf t (pageOf b)).timerAt = s.time ∧ dropped t ∧ (∀ p, p ≠ pageOf b → blkOf t p = blkOf s p) ∧ Frame (someRegs [pageOf b + 0x20]) [.blks, .cores] s t) ∧
     (resetRefused s b = true → deadPage s b = false → exec (.blkIdleReq b) s = .next s) ∧
     (deadPage s b = true → ∃ t, exec (.blkIdleReq b) s = .next t ∧ rd t 0x10C = rd s 0x10C + 1 ∧ Frame (someRegs [0x108, 0x10C]) [] s t) ∧
     (resetRefused s b = false → open' →
       ∃ t, exec (.blkResetKey b 0xA5) s = .next t ∧ (blkOf t (pageOf b)).pending = true ∧
         (fbit (rd s (pageOf b + 0x24)) 0 = true → (blkOf t (pageOf b)).resetting = true) ∧
         (fbit (rd s (pageOf b + 0x24)) 0 = false → (blkOf t (pageOf b)).resetting = false ∧ (blkOf t (pageOf b)).keyHeld = true) ∧
         (∀ p, p ≠ pageOf b → blkOf t p = blkOf s p) ∧ Frame (someRegs [pageOf b + 0x20]) [.blks, .cores] s t) ∧
     (∀ key : Word32, (key ≠ 0xA5 ∨ resetRefused s b = true) → open' → exec (.blkResetKey b key) s = .next s) ∧
     (∀ key : Word32, deadPage s b = true → ∃ t, exec (.blkResetKey b key) s = .next t ∧ rd t 0x10C = rd s 0x10C + 1 ∧ Frame (someRegs [0x108, 0x10C]) [] s t))) ∧
  (∀ (s : State) (b : Block),
    ((blkOf s (pageOf b)).pending = true → (blkOf s (pageOf b)).resetting = false → blockQuiet s b = true →
      ∃ t, exec (.blockIdle b) s = .next t ∧ fbit (rd t (pageOf b + 0x24)) 0 = true ∧
        (blkOf t (pageOf b)).resetting = (blkOf s (pageOf b)).keyHeld ∧ Frame (someRegs [pageOf b + 0x24]) [.blks] s t) ∧
    ((blkOf s (pageOf b)).pending = true → (blkOf s (pageOf b)).resetting = false → fbit (rd s (pageOf b + 0x24)) 0 = false →
      elapsedUs s.time (blkOf s (pageOf b)).timerAt (rdF s (rstKey 0x10C) 19 0) = true →
      ∃ t, exec (.idleTimeout b) s = .next t ∧ (blkOf t (pageOf b)).resetting = true ∧ (blkOf t (pageOf b)).forced = true ∧
        rd t (rstKey 0x114) = rd s (rstKey 0x114) + 1 ∧
        (∀ c : CoreId, coreOf t c = if b = .core c then { dropWork (coreOf s c) with slots := [] } else coreOf s c) ∧
        (∀ a, cget t.mem a = if (∃ c : CoreId, b = .core c ∧ accAddr c false 0 0 ≤ a ∧ a < accAddr c false 0 0 + 0x400000) then 0 else cget s.mem a) ∧
        Frame (someRegs [rstKey 0x114]) [.blks, .cores, .mem] s t) ∧
    ((blkOf s (pageOf b)).resetting = true → (blkOf s (pageOf b)).again = false →
      ∃ t, exec (.blockResetDone b) s = .next t ∧ blkOf t (pageOf b) = {} ∧
        rd t (pageOf b + 0x34) = rd s (pageOf b + 0x34) ∧ rd t (pageOf b + 0x38) = rd s (pageOf b + 0x38) ∧
        fbit (rd t (pageOf b + 0x2C)) 0 = true ∧ fbit (rd t (pageOf b + 0x2C)) 1 = (blkOf s (pageOf b)).forced ∧
        rdF t (pageOf b + 0x2C) 31 16 = (rdF s (pageOf b + 0x2C) 31 16 + 1) % 65536 ∧
        ((b ≠ .evc ∧ b ≠ .tlm ∧ b ≠ .tap) → ∀ k, pageOf b ≤ k → k < pageOf b + 0x1000 → k ≠ pageOf b + 0x34 → k ≠ pageOf b + 0x38 → k ≠ pageOf b + 0x2C →
          rd t k = resetVal s k) ∧
        (∀ a, (∀ c : CoreId, b = .core c → ∀ r ∈ s.coll.runs, r.core = c.val → ∀ p ∈ dstRanges r, a < p.1 ∨ p.1 + p.2 ≤ a) → cget t.mem a = cget s.mem a) ∧
        Frame (fun k => pageRegs (pageOf b) k ∨ k = tapKey 0x288 ∨ ∃ n, k = codecKey n 0x100)
          [.mem, .freeCtr, .posted, .looms, .live, .stackTab, .links, .router, .coh, .coll, .produced, .codecs, .board, .cores, .regions, .blks] s t))

/-- R202, R203, R227, R255, R273, R332, R422: the indirect windows, while S5 is not in force: a descriptor, a creel entry, a route or a ledger entry named by the index register is read into the data registers, and a descriptor or a route is written from them. A loom's window reads only its own creel entries. -/
def Obligations.IndirectWindows : Prop := ∀ s : State, s.power.s5 = false →
  ((blkOf s 0x20000).resetting = false → cfgBusy s .pf0 = false → rdF s 0x20140 17 0 < 262144 →
    ∃ t, exec (.cfgRead .pf0) s = .next t ∧ (∀ i, i < 16 → rd t (0x20180 + 4 * i) =
      BitVec.ofNat 32 (fieldLe (ringBytes (ringOf s (rdF s 0x20140 17 0)) 0) (4 * i) 4)) ∧ fbit (rd t 0x20144) 30 = false ∧
      Frame (fun k => k = 0x20144 ∨ (0x20180 ≤ k ∧ k < 0x201C0)) [] s t) ∧
  (∀ l : LoomId, loomSt s l ≠ 0 → cfgBusy s (.loom l) = false → rdF s (dbPage l + 0x100) 17 0 < lvF s l 0x114 18 0 →
    ∃ t, exec (.cfgRead (.loom l)) s = .next t ∧ (∀ i, i < 16 → rd t (dbPage l + 0x140 + 4 * i) =
      BitVec.ofNat 32 (fieldLe (ringBytes (ringOf s (ringBase s l + rdF s (dbPage l + 0x100) 17 0)) (ringBase s l)) (4 * i) 4)) ∧
      Frame (fun k => k = dbPage l + 0x104 ∨ (dbPage l + 0x140 ≤ k ∧ k < dbPage l + 0x180)) [] s t) ∧
  ((blkOf s 0x20000).resetting = false → cfgBusy s .pf0 = false → cfgRefused s 0 (rdF s 0x20140 17 0) 262144 (regBytes s 0x20180 16) = false →
    ringBusy s (rdF s 0x20140 17 0) = false →
    ∃ t, exec (.cfgWrite .pf0) s = .next t ∧ fbit (rd t 0x20144) 30 = false ∧ fbit (rd t 0x20144) 31 = false ∧
      (let new := ringOfBytes (regBytes s 0x20180 16) 0
       let old := ringOf s (rdF s 0x20140 17 0)
       let now := ringOf t (rdF s 0x20140 17 0)
       now.base = new.base ∧ now.log2 = new.log2 ∧ now.kind = new.kind ∧ now.enable = new.enable ∧ now.irqEn = new.irqEn ∧
       now.timeout = new.timeout ∧ now.wbAddr = new.wbAddr ∧ now.msix = new.msix ∧ now.holdoff = new.holdoff ∧ now.cplRing = new.cplRing ∧
       (new.enable = true → old.enable = false → now.wp = new.wp ∧ now.rp = new.rp) ∧
       (old.enable = true → now.wp = old.wp ∧ now.rp = old.rp)) ∧
      (∀ q, q ≠ rdF s 0x20140 17 0 → ringOf t q = ringOf s q) ∧ Frame (someRegs [0x20144]) [.rings, .router] s t) ∧
  ((blkOf s 0x20000).resetting = false → cfgBusy s .pf0 = false → cfgRefused s 0 (rdF s 0x20140 17 0) 262144 (regBytes s 0x20180 16) = true →
    ∃ t, exec (.cfgWrite .pf0) s = .next t ∧ fbit (rd t 0x20144) 30 = true ∧ Frame (someRegs [0x20144]) [] s t) ∧
  ((blkOf s 0x22000).resetting = false → ∃ t, exec (.creelRead .pf0) s = .next t ∧
    (∀ i, i < 64 → rd t (0x22200 + 4 * i) = match tfind s.creel (rdF s 0x22100 17 0) with
      | some e => BitVec.ofNat 32 (fieldLe (creelBytes e) (4 * i) 4)
      | none => 0) ∧ fbit (rd t 0x22104) 30 = false ∧
    Frame (fun k => k = 0x22104 ∨ k = 0x22108 ∨ (0x22200 ≤ k ∧ k < 0x22300)) [.creelCache] s t) ∧
  (∀ (l : LoomId) e, loomSt s l ≠ 0 → tfind s.creel (rdF s (stPage l + 0x100) 17 0) = some e →
    (e.loom = l.val → ∃ t, exec (.creelRead (.loom l)) s = .next t ∧ fbit (rd t (stPage l + 0x104)) 30 = false ∧
      (∀ i, i < 64 → rd t (stPage l + 0x200 + 4 * i) = BitVec.ofNat 32 (fieldLe (creelBytes e) (4 * i) 4)) ∧
      Frame (fun k => k = stPage l + 0x104 ∨ k = 0x22108 ∨ (stPage l + 0x200 ≤ k ∧ k < stPage l + 0x300)) [.creelCache] s t) ∧
    (e.loom ≠ l.val → ∃ t, exec (.creelRead (.loom l)) s = .next t ∧ fbit (rd t (stPage l + 0x104)) 30 = true ∧ Frame (someRegs [stPage l + 0x104]) [] s t)) ∧
  ((blkOf s 0x200000).resetting = false → ∃ t, exec .tapRtRead s = .next t ∧
    rd t (tapKey 0x10C) = (rtOf s (rdF s (tapKey 0x104) 13 0)).1 ∧ rd t (tapKey 0x110) = (rtOf s (rdF s (tapKey 0x104) 13 0)).2 ∧
    Frame (someRegs [tapKey 0x10C, tapKey 0x110]) [] s t) ∧
  ((blkOf s 0x200000).resetting = false → ∃ t, exec .tapRtWrite s = .next t ∧
    rtOf t (rdF s (tapKey 0x104) 13 0) = (rd s (tapKey 0x10C), rd s (tapKey 0x110)) ∧
    (∀ d, d ≠ rdF s (tapKey 0x104) 13 0 → rtOf t d = rtOf s d) ∧ Frame noReg [.router] s t) ∧
  (∃ t, exec .flRead s = .next t ∧ (∀ i, i < 32 → rd t (mbxKey (0x300 + 4 * i)) = match tfind s.ledger (rdF s (mbxKey 0x218) 9 0) with
    | some e => BitVec.ofNat 32 (fieldLe (ledgerBytes e) (4 * i) 4)
    | none => 0) ∧ Frame (fun k => mbxKey 0x300 ≤ k ∧ k < mbxKey 0x380) [] s t)

-- ## Rings, bolts and events (09, 05)

/-- R204, R205: a doorbell moves its ring's pointer when the new value is within the ring and ahead; a repeated WP does nothing; any other doorbell, and one of another width, changes only the loom's DB_ERR, which keeps the first error's ring; a doorbell that does not reach the loom's page does nothing. -/
def Obligations.Doorbells : Prop := ∀ (s : State) (fn : FnId) (l : LoomId) (v : Word64),
  (doorOpen s fn l = false → ∀ whole, exec (.dbWp fn l v whole) s = .next s ∧ exec (.dbRp fn l v whole) s = .next s) ∧
  (doorOpen s fn l = true →
    (∃ t, exec (.dbWp fn l v false) s = .next t ∧ fbit (rd t (dbPage l + 0x10)) 1 = true ∧ Frame (someRegs [dbPage l + 0x10, dbPage l + 0x14]) [] s t) ∧
    (∃ t, exec (.dbRp fn l v false) s = .next t ∧ fbit (rd t (dbPage l + 0x10)) 1 = true ∧ Frame (someRegs [dbPage l + 0x10, dbPage l + 0x14]) [] s t) ∧
    (let i := v.toNat % 2 ^ 18
     let p : Word32 := BitVec.ofNat 32 (v.toNat / 2 ^ 32)
     let r := ringBase s l + i
     let g := ringOf s r
     (i < lvF s l 0x114 18 0 → g.enable = true → g.kind = 0 →
       (p = g.wp → exec (.dbWp fn l v true) s = .next s) ∧
       ((g.wp - g.rp).toNat < (p - g.rp).toNat → (p - g.rp).toNat ≤ ringSize g →
         ∃ t, exec (.dbWp fn l v true) s = .next t ∧ ringOf t r = { g with wp := p } ∧ (∀ q, q ≠ r → ringOf t q = ringOf s q) ∧ Frame noReg [.rings] s t)) ∧
     (i < lvF s l 0x114 18 0 → g.enable = true → g.kind ≠ 0 → 0 < (p - g.rp).toNat → (p - g.rp).toNat ≤ ringHeld g →
       ∃ t, exec (.dbRp fn l v true) s = .next t ∧ ringOf t r = { g with rp := p } ∧ (∀ q, q ≠ r → ringOf t q = ringOf s q) ∧ Frame noReg [.rings] s t) ∧
     ((lvF s l 0x114 18 0 ≤ i ∨ g.enable = false ∨ g.kind ≠ 0 ∨ (p ≠ g.wp ∧ ((p - g.rp).toNat ≤ (g.wp - g.rp).toNat ∨ ringSize g < (p - g.rp).toNat))) →
       ∃ t, exec (.dbWp fn l v true) s = .next t ∧ fbit (rd t (dbPage l + 0x10)) 0 = true ∧
         rd t (dbPage l + 0x14) = (if rd s (dbPage l + 0x10) = 0 then BitVec.ofNat 32 i else rd s (dbPage l + 0x14)) ∧
         Frame (someRegs [dbPage l + 0x10, dbPage l + 0x14]) [] s t) ∧
     ((lvF s l 0x114 18 0 ≤ i ∨ g.enable = false ∨ g.kind = 0 ∨ p = g.rp ∨ ringHeld g < (p - g.rp).toNat) →
       ∃ t, exec (.dbRp fn l v true) s = .next t ∧ fbit (rd t (dbPage l + 0x10)) 0 = true ∧
         rd t (dbPage l + 0x14) = (if rd s (dbPage l + 0x10) = 0 then BitVec.ofNat 32 i else rd s (dbPage l + 0x14)) ∧
         Frame (someRegs [dbPage l + 0x10, dbPage l + 0x14]) [] s t)))

/-- R201, R206, R208: while the part is at work, the scanner takes the entry at RP of the ring it serves next, once its accesses are served, and advances RP; padding is skipped, a reserved entry ends with status 8 and DB_ERR, and any other entry waits in its ring; an entry outside the loom's windows stops the ring with RP unmoved. Without a ring to serve it does nothing. -/
def Obligations.EntryFetch : Prop := ∀ s : State, atWork s →
  (scanChoice (fresh s) = none → exec .ringEntryFetch s = .next (fresh s)) ∧
  (∀ c l r n, scanChoice (fresh s) = some (c, l, r, n) →
    (let s0 := { fresh s with scan := { cls := c, left := n, loom := tput s.scan.loom c l, ring := tput s.scan.ring l r } }
     let g := ringOf s r
     (usable s0 l (ringSlot g g.rp) 64 false = false →
       ∃ t, exec .ringEntryFetch s = .next t ∧ (ringOf t r).faulted = true ∧ (ringOf t r).rp = g.rp ∧ t.entries = s.entries ∧ StoresOnly s t [] ∧
         Frame (recordRegs l) (.scan :: recordParts) s t) ∧
     (∀ u bs, takeEntry s0 l r = (u, .ok bs) → accessesServed (fetchEntry s0 l r) →
       ∃ t, exec .ringEntryFetch s = .next t ∧ (ringOf t r).rp = g.rp + 1 ∧ t.scan.left = n ∧ (∀ q, q ≠ r → ringOf t q = ringOf s q) ∧
         (badEntry bs = false → byteAt bs 0 = 0 → t.entries = s.entries) ∧
         (badEntry bs = false → byteAt bs 0 ≠ 0 → ∃ e, t.entries = s.entries ++ [e] ∧ e.ring = r ∧ e.seq = g.rp ∧ e.loom = l ∧ e.bytes = bs ∧
           e.phase = .fetched ∧ e.fetchTime = s.time) ∧
         (badEntry bs = true → fbit (rd t (dbPage l + 0x10)) 2 = true ∧ ∃ e ∈ t.entries, e.ring = r ∧ e.seq = g.rp ∧ e.phase = .ended ∧ e.status = 8) ∧
         StoresOnly s t (if g.wbAddr = 0 then [] else [(g.wbAddr.toNat, 4)]) ∧
         Frame (recordRegs l) ([.scan, .entries, .endSeq] ++ recordParts) s t)))

/-- R209: while S5 is not in force, a fence waits for the bolts of its loom that started before it was fetched, if it asks for that, then for its knot, then signals its own knot by 1 and ends with status 0; a knot outside the loom's range ends it with status 8. -/
def Obligations.Fences : Prop := ∀ (s : State) (r : RingId) (e : Entry), headEntry s r = some e → s.power.s5 = false →
  (let wk := fieldLe e.bytes 8 2
   let sk := fieldLe e.bytes 10 2
   let met := wk = 0xFFFF ∨ fieldLe e.bytes 16 8 ≤ (knotOf s wk).toNat
   let inRange := (wk = 0xFFFF ∨ knotInLoom s e.loom wk = true) ∧ (sk = 0xFFFF ∨ knotInLoom s e.loom sk = true)
   let waits := bitOf (byteAt e.bytes 12) 0 = true ∧ boltsBefore s e = true
   let signalled := fun t : State => (∀ x ∈ t.entries, x.ring = e.ring → x.seq = e.seq → x.phase = .ended ∧ x.status = 0 ∧ x.endTime = s.time) ∧
     (sk ≠ 0xFFFF → knotOf t sk = knotOf (drainKnots s) sk + 1 ∧ ∀ k, k ≠ sk → knotOf t k = knotOf (drainKnots s) k) ∧
     (sk = 0xFFFF → t.knots = s.knots) ∧ Frame cfgCmdRegs [.entries, .endSeq, .rings, .knotQ, .knots, .cores, .router, .links, .produced] s t
   (entKind e = 4 → e.phase = .fetched → waits → exec (.fence r) s = .next s) ∧
   (entKind e = 4 → e.phase = .fetched → ¬ waits → inRange → met → ∃ t, exec (.fence r) s = .next t ∧ signalled t) ∧
   (entKind e = 4 → e.phase = .fetched → ¬ waits → inRange → ¬ met →
     ∃ t, exec (.fence r) s = .next t ∧
       t.entries = s.entries.map (fun x => if x.ring = e.ring ∧ x.seq = e.seq then
         { e with phase := .fenceWait, start := s.time, limit := (ringOf s e.ring).timeout.toNat } else x) ∧ Frame noReg [.entries] s t) ∧
   (entKind e = 4 → e.phase = .fetched → ¬ waits → ¬ inRange →
     ∃ t, exec (.fence r) s = .next t ∧ (∀ x ∈ t.entries, x.ring = e.ring → x.seq = e.seq → x.phase = .ended ∧ x.status = 8) ∧
       fbit (rd t (dbPage e.loom + 0x10)) 2 = true ∧ Frame (someRegs [dbPage e.loom + 0x10, dbPage e.loom + 0x14]) [.entries, .endSeq] s t) ∧
   (e.phase = .fenceWait → met → ∃ t, exec (.fenceKnotMet r) s = .next t ∧ signalled t) ∧
   (e.phase = .fenceWait → ¬ met → exec (.fenceKnotMet r) s = .next s) ∧
   (e.phase ≠ .fenceWait → exec (.fenceKnotMet r) s = .next s))

/-- R201, R219, R221, R223: while the part is at work, the earliest ended entry's record, and the oldest staged event, go into their ring at WP, which advances, and are gone from where they waited, once the accesses are served; a ring without space, disabled or held keeps them waiting; a ring whose next access fails its window check is held with DB_ERR. -/
def Obligations.RecordsAndEvents : Prop := ∀ s : State, atWork s →
  (∀ (cpl : RingId) e, nextRecord (fresh s) cpl = some e →
    (let w : Who := ⟨0x020, 0, cpl⟩
     let g := ringOf s cpl
     (∀ u, tryPush (fresh s) w e.loom cpl (recordBytes e g.wp) = (u, true) → accessesServed (writeNext (fresh s) cpl) →
       ∃ t, exec (.completionRecordWrite cpl) s = .next t ∧ (∀ x ∈ t.entries, ¬ (x.ring = e.ring ∧ x.seq = e.seq)) ∧
        (cfgBusy s .pf0 = false → cfgBusy s (.loom (Fin.ofNat 32 e.loom)) = false → (ringOf t cpl).wp = g.wp + 1) ∧
        (g.wbAddr = 0 → g.kind ≠ 2 → isTap (ringSlot g g.wp) = false → holdsBytes s (ringSlot g g.wp) = true → cgets t.mem (ringSlot g g.wp) 64 = recordBytes e g.wp) ∧
        StoresOnly s t ((ringSlot g g.wp, 64) :: if g.wbAddr = 0 then [] else [(g.wbAddr.toNat, 4)]) ∧
        Frame (fun k => recordRegs e.loom k ∨ cfgCmdRegs k ∨ k = 0x22108) ([.entries, .creel, .creelCache] ++ recordParts) s t) ∧
     (ringOpen (fresh s) w e.loom cpl 1 = false → exec (.completionRecordWrite cpl) s = .next (fresh s)))) ∧
  (∀ cpl : RingId, nextRecord (fresh s) cpl = none → exec (.completionRecordWrite cpl) s = .next (fresh s)) ∧
  (∀ (l : LoomId) e rest, tget [] s.staged l = e :: rest →
    (let w : Who := ⟨0x014, l, 0⟩
     let r := lvF s l 0x124 17 0
     let g := ringOf s r
     (∀ u, tryPush (fresh s) w l r (eventBytes e) = (u, true) → accessesServed u →
       ∃ t, exec (.eventPost l) s = .next t ∧ tget [] t.staged l = rest ∧ rd t 0x10180 = rd s 0x10180 + 1 ∧ (ringOf t r).wp = g.wp + 1 ∧
        (g.wbAddr = 0 → isTap (ringSlot g g.wp) = false → holdsBytes s (ringSlot g g.wp) = true → cgets t.mem (ringSlot g g.wp) 32 = eventBytes e) ∧
        StoresOnly s t ((ringSlot g g.wp, 32) :: if g.wbAddr = 0 then [] else [(g.wbAddr.toNat, 4)]) ∧
        Frame (fun k => recordRegs l k ∨ k = 0x10180) (.staged :: recordParts) s t) ∧
     (ringOpen (fresh s) w l r 1 = false → exec (.eventPost l) s = .next (fresh s)))) ∧
  (∀ l : LoomId, tget [] s.staged l = [] → exec (.eventPost l) s = .next (fresh s)) ∧
  (∀ (r : RingId) l a, ringLoom s r = some l → (ringOf s r).enable = true → (ringOf s r).kind ≠ 0 → pushFault s ⟨0x020, 0, r⟩ l r = some a →
    ∃ t, exec (.ringFault r) s = .next t ∧ (ringOf t r).faulted = true ∧ fbit (rd t (dbPage l + 0x10)) 3 = true ∧
      (ringOf t r).wp = (ringOf s r).wp ∧ (∀ q, q ≠ r.val → ringOf t q = ringOf s q) ∧
      Frame (fun k => reportRegs k ∨ k = dbPage l + 0x10 ∨ k = dbPage l + 0x14) (.rings :: reportParts) s t) ∧
  (∀ (r : RingId) l, ringLoom s r = some l → (ringOf s r).enable = true → (ringOf s r).kind = 0 → (ringOf s r).wp ≠ (ringOf s r).rp → (ringOf s r).faulted = false →
    usable s l (ringSlot (ringOf s r) (ringOf s r).rp) 64 false = false →
    ∃ t, exec (.ringFault r) s = .next t ∧ (ringOf t r).faulted = true ∧ fbit (rd t (dbPage l + 0x10)) 3 = true ∧
      (ringOf t r).rp = (ringOf s r).rp ∧ (∀ q, q ≠ r.val → ringOf t q = ringOf s q) ∧
      Frame (fun k => reportRegs k ∨ k = dbPage l + 0x10 ∨ k = dbPage l + 0x14) (.rings :: reportParts) s t)

/-- R215, R216, R226, R207: while the part is at work and the loader accepts work, a BOLT entry at its turn is checked from its header and tables on, once its reads are served; a failure ends the entry with status 1, its code and the loader's counters; a bolt that passes takes the first free store space, where it lies whole and is verified, or waits for space. A rejection found before the entry's turn has no effect yet. -/
def Obligations.BoltLoading : Prop := ∀ (s : State) (r : RingId) (e : Entry), atWork s →
  (let a := (entryBolt e).1
   let n := (entryBolt e).2
   let fits := fun u : State => fitFrom (storeUsed u) (cdiv n 65536) 4097 0
   let rejected := fun (t : State) (code ff : Nat) => (∀ x ∈ t.entries, x.ring = e.ring → x.seq = e.seq →
       x.phase = .ended ∧ x.status = 1 ∧ x.reject = code ∧ x.firstFail = BitVec.ofNat 32 ff) ∧
     rd t 0x21108 = rd s 0x21108 + 1 ∧ rd t 0x2110C = BitVec.ofNat 32 (code + e.loom * 2 ^ 16)
   let K := fun k => accessRegs k ∨ k ∈ [0x21108, 0x2110C, 0x22108, loomKey e.loom 0x4A8]
   let ps := [.entries, .endSeq, .creel, .creelCache, .looms, .rings] ++ accessParts
   let stored := fun (u t : State) (unit : Nat) =>
     (∀ v, boltRead u e a n = (v, none) → rejected t 1 noOp) ∧
     (∀ v bs, boltRead u e a n = (v, some bs) →
       (let p := placeBolt v e unit n bs
        (∀ code ff, placedFailure p.1 e.loom p.2.1 p.2.2 = some (code, ff) → rejected t code ff) ∧
        (placedFailure p.1 e.loom p.2.1 p.2.2 = none → (∀ x ∈ t.entries, x.ring = e.ring → x.seq = e.seq → x.phase = .ready ∧ x.bolt = some p.2.1) ∧
          cgets t.mem (storeAt p.2.1 0) bs.length = bs))) ∧
     StoresOnly s t [(0x1790000000 + unit * 65536, max (cdiv n 65536 * 65536) n)] ∧ Frame K ps s t
   (freshEntry s r = some e → entKind e = 1 → headEntry s r = some e → blockClosed s .loader = false →
     (∀ u code, frontCode (fresh s) e = (u, code) → code ≠ 0 → accessesServed (rejectBolt u e code noOp) →
       ∃ t, exec (.boltEntry r) s = .next t ∧ rejected t code noOp ∧ StoresOnly s t [] ∧ Frame K ps s t) ∧
     (∀ u, frontCode (fresh s) e = (u, 0) → fits u = none → accessesServed u →
       ∃ t, exec (.boltEntry r) s = .next t ∧ (∀ x ∈ t.entries, x.ring = e.ring → x.seq = e.seq → x.phase = .waitStore) ∧ StoresOnly s t [] ∧ Frame K ps s t) ∧
     (∀ u unit, frontCode (fresh s) e = (u, 0) → fits u = some unit → accessesServed (storeBolt u e unit) →
       ∃ t, exec (.boltEntry r) s = .next t ∧ stored u t unit)) ∧
   (freshEntry s r = some e → entKind e = 1 → (∀ h, headEntry s r = some h → h.seq ≠ e.seq) →
     ∀ u code, frontCode (fresh s) e = (u, code) → code ≠ 0 → exec (.boltEntry r) s = .next (fresh s)) ∧
   ((ringEntries s r).find? (fun x => decide (x.phase = .waitStore)) = some e →
     (fits s = none → exec (.boltStoreAlloc r) s = .next (fresh s)) ∧
     (∀ unit, headEntry s r = some e → fits s = some unit → accessesServed (storeBolt (fresh s) e unit) →
       ∃ t, exec (.boltStoreAlloc r) s = .next t ∧ stored (fresh s) t unit)))

/-- R207, R211, R217, R219, R220, R418: while S5 is not in force, a verified bolt at the head of its ring starts when its cores are free, with its stages, ranks and chains set, unless it names a core retired since, when it goes back to the loader; it ends, once its accesses are served, when every operation has completed on every core, or when every core has stopped for a cause that ends it; its cores are then free and its profile is written. -/
def Obligations.BoltRuns : Prop := ∀ (s : State) (r : RingId) (e : Entry) (b : Bolt), headEntry s r = some e → e.bolt = some b →
  (let blocked := coresBusy s e.loom (boltSet b) e.ring e.seq = true ∨ (loomOf s e.loom).paused = true ∨ (loomSt s e.loom ≠ 2 ∧ loomSt s e.loom ≠ 3) ∨
     ((boltCores b).any fun c => regionHalted s (coreRegion c)) = true
   (e.phase = .ready → ¬ blocked → s.power.s5 = false → namesRetired s b = false → ∃ t, exec (.boltStart r) s = .next t ∧
     (∀ x ∈ t.entries, x.ring = e.ring → x.seq = e.seq → x.phase = .running ∧ x.start = s.time ∧ x.limit = (ringOf s e.ring).timeout.toNat ∧
       ∃ y, x.bolt = some y ∧ y.start = s.time ∧ y.stages = b.stages) ∧
     (∀ c ∈ boltCores b, (coreOf t c).bolt = some (e.ring, e.seq) ∧ (coreOf t c).slots = [] ∧ (coreOf t c).done = [] ∧ (coreOf t c).stopped = false) ∧
     (noRepeats (boltCores b) = true → ∀ g ∈ b.stages, ∀ k, k < g.cores.length →
       rd t (coreKey (g.cores.getD k 0) 0x104) = BitVec.ofNat 32 (g.sel + k * 2 ^ 16) ∧ rd t (coreKey (g.cores.getD k 0) 0x108) = chainWord g k) ∧
     (∀ c, c ∉ boltCores b → coreOf t c = coreOf s c) ∧
     Frame (fun k => ∃ c, k = coreKey c 0x104 ∨ k = coreKey c 0x108) [.entries, .endSeq, .cores] s t) ∧
   (e.phase = .ready → ¬ blocked → s.power.s5 = false → namesRetired s b = true → ∃ t, exec (.boltStart r) s = .next t ∧
     t.entries = s.entries.map (fun x => if x.ring = e.ring ∧ x.seq = e.seq then { x with phase := .fetched, bolt := none } else x) ∧ Frame noReg [.entries] s t) ∧
   (e.phase ≠ .ready ∨ blocked → exec (.boltStart r) s = .next s) ∧
   (let ends := fun (t : State) (st : Nat) =>
      (∀ x ∈ t.entries, x.ring = e.ring → x.seq = e.seq → x.phase = .ended ∧ x.endTime = s.time ∧ x.opsDone = BitVec.ofNat 32 (opsDone s b) ∧
        x.status = (if st = 0 then (writeProfiles (fresh s) e b).2 else st)) ∧
      (∀ c ∈ boltSet b, (coreOf t c).bolt = none ∧ (coreOf t c).slots = [] ∧ (coreOf t c).rx = []) ∧
      StoresOnly s t (if hdr s b 72 8 = 0 then [] else (boltSet b).map fun c => (hdr s b 72 8 + 64 * c, 64)) ∧
      Frame (fun k => accessRegs k ∨ cfgCmdRegs k ∨ k = 0x22108 ∨ k = loomKey e.loom 0x4A8 ∨ ∃ c, k = coreKey c 0x134 ∨ ∃ d, k = portKey c d)
        ([.entries, .endSeq, .rings, .cores, .creel, .creelCache, .looms] ++ accessParts) s t
    atWork s → e.phase = .running → b.parked = false →
      (let st0 := if b.stop = .timeout ∧ b.graceAt = s.time then 0 else e.status
       (boltDone s b = true → accessesServed (finishBolt (fresh s) e b st0) → ∃ t, exec (.boltEnd r) s = .next t ∧ ends t st0) ∧
       (boltDone s b = false → stopEnds b = true → (∀ c ∈ boltCores b, coreStopped s c = true) → accessesServed (finishBolt (fresh s) e b (stopStatus e b)) →
         ∃ t, exec (.boltEnd r) s = .next t ∧ ends t (stopStatus e b)) ∧
       (boltDone s b = false → (stopEnds b = false ∨ ∃ c ∈ boltCores b, coreStopped s c = false) → exec (.boltEnd r) s = .next (fresh s)))))

/-- R209, R218, R220, R232: while S5 is not in force and no producer of events waits, a fence past its ring's TIMEOUT ends with status 2 and its event; an admission that waits for quota does with FIRST_FAIL 0x0A; a bolt is asked to stop on every core. 10 ms after a stop, each core that has not stopped is put into the idle-then-reset. A failing operation stops its core at once and the bolt's other cores at their next shed points, and the earliest failure gives STATUS and FIRST_FAIL. -/
def Obligations.TimeoutsAndFailures : Prop := ∀ s : State,
  (∀ (r : RingId) e, headEntry s r = some e → e.limit ≠ 0 → atWork s →
    (e.phase = .fenceWait → elapsedUs s.time e.start e.limit = true → ∃ t, exec (.ringTimeout r) s = .next t ∧
      (∀ x ∈ t.entries, x.ring = e.ring → x.seq = e.seq → x.phase = .ended ∧ x.status = 2) ∧
      (loomSt s e.loom ≠ 0 → ∃ v ∈ tget [] t.produced e.loom, v.type = 2 ∧ v.info0 = e.id ∧ v.info1 = BitVec.ofNat 64 e.ring ∧ v.time = s.time) ∧
      Frame noReg [.entries, .endSeq, .produced] s t) ∧
    (e.phase = .fenceWait → elapsedUs s.time e.start e.limit = false → exec (.ringTimeout r) s = .next s) ∧
    (e.phase = .fetched → entKind e = 2 → creelFull s e.loom = true → elapsedUs s.time e.fetchTime e.limit = true → ∃ t, exec (.ringTimeout r) s = .next t ∧
      (∀ x ∈ t.entries, x.ring = e.ring → x.seq = e.seq → x.phase = .ended ∧ x.status = 2 ∧ x.firstFail = 0x0A ∧ x.opsDone = 0xFFFFFFFF) ∧
      Frame noReg [.entries, .endSeq] s t) ∧
    (e.phase = .fetched → (entKind e ≠ 2 ∨ creelFull s e.loom = false ∨ elapsedUs s.time e.fetchTime e.limit = false) → exec (.ringTimeout r) s = .next s) ∧
    (∀ b, e.phase = .running → e.bolt = some b → b.stop = .none → b.parked = false → boltDone s b = false → e.limit ≤ boltClock s e b →
      ∃ t, exec (.ringTimeout r) s = .next t ∧
        (∀ x ∈ t.entries, x.ring = e.ring → x.seq = e.seq → x.status = 2 ∧ ∃ y, x.bolt = some y ∧ y.stop = .timeout ∧ y.graceAt = s.time) ∧
        (∀ c ∈ boltCores b, (coreOf t c).stopReq = true) ∧ (∀ c, c ∉ boltCores b → coreOf t c = coreOf s c) ∧ Frame noReg [.entries, .cores] s t)) ∧
  (∀ (r : RingId) e, headEntry s r = some e → e.limit = 0 → exec (.ringTimeout r) s = .next s) ∧
  (∀ (r : RingId) e b, headEntry s r = some e → e.bolt = some b → e.phase = .running → (b.stop = .timeout ∨ b.stop = .failure ∨ b.stop = .quiesce) → s.power.s5 = false →
    (195313 ≤ (s.time - b.graceAt).toNat → ∃ t, exec (.timeoutGraceEnd r) s = .next t ∧
      (∀ c : CoreId, c.val ∈ boltCores b → coreStopped s c = false → (blkOf s (coreKey c 0)).resetting = false → (blkOf s (coreKey c 0)).pending = false → fbit (rd s (coreKey c 0x24)) 0 = false →
        (blkOf t (coreKey c 0)).pending = true ∧ (blkOf t (coreKey c 0)).keyHeld = true ∧ fbit (rd t (coreKey c 0x20)) 0 = true ∧ coreOf t c = dropWork (coreOf s c)) ∧
      Frame (fun k => ∃ c : CoreId, k = coreKey c 0x20) [.blks, .cores] s t) ∧
    ((s.time - b.graceAt).toNat < 195313 → exec (.timeoutGraceEnd r) s = .next s)) ∧
  (∀ (c : CoreId) i st a z rq e b, (coreOf s c).fail = some (i, st, a, z) → (coreOf s c).bolt = some rq → findEntry s rq.1 rq.2 = some e → e.bolt = some b →
    ∃ t, exec (.operationFailure c) s = .next t ∧ (coreOf t c).stopped = true ∧ (coreOf t c).stopReq = true ∧ (coreOf t c).fail = none ∧
      (coreOf t c).slots = (coreOf s c).slots.filter (fun x => x.committing) ∧
      (∀ x ∈ t.entries, x.ring = e.ring → x.seq = e.seq → e.status = 0 → x.status = st ∧ x.firstFail = BitVec.ofNat 32 i ∧ x.failCore = c.val) ∧
      ((b.stop = .none ∨ b.stop = .halt ∨ b.stop = .park) → ∀ d ∈ boltCores b, (coreOf t d).stopReq = true) ∧
      (∀ d, d ∉ boltCores b → d ≠ c.val → coreOf t d = coreOf s d) ∧ Frame noReg [.cores, .entries] s t)

/-- R223, R280, R446, R225: while S5 is not in force, the oldest produced event enters the loom's staging area while it holds fewer than 1,024; EVC_TEST_GO produces one TEST event for a loom that is not DESTROYED; at the end of a ring's holdoff an owed interrupt is sent, or its pending bit is set, and a new holdoff starts. -/
def Obligations.EventStaging : Prop := ∀ s : State,
  (∀ (l : LoomId) v rest, tget [] s.produced l = v :: rest → s.power.s5 = false →
    ((tget [] s.staged l).length < 1024 → ∃ t, exec (.eventStage l) s = .next t ∧ tget [] t.produced l = rest ∧ tget [] t.staged l = tget [] s.staged l ++ [v] ∧
      (∀ m, m ≠ l.val → tget [] t.produced m = tget [] s.produced m ∧ tget [] t.staged m = tget [] s.staged m) ∧ Frame noReg [.produced, .staged] s t) ∧
    (1024 ≤ (tget [] s.staged l).length → exec (.eventStage l) s = .next s)) ∧
  (∀ l : LoomId, (blkOf s 0x10000).resetting = false →
    (loomSt s l ≠ 0 → (∀ v ∈ tget [] s.produced l, v.type ≠ 0x00F0) → ∃ t v, exec (.evcTestGo l) s = .next t ∧
      tget [] t.produced l = tget [] s.produced l ++ [v] ∧ v.type = 0x00F0 ∧ v.srcType = 0x014 ∧ v.srcInst = 0 ∧
      v.info0 = (rd s 0x1018C).setWidth 64 ∧ v.info1 = 0 ∧ v.time = s.time ∧
      (∀ m, m ≠ l.val → tget [] t.produced m = tget [] s.produced m) ∧ Frame noReg [.produced] s t) ∧
    ((loomSt s l = 0 ∨ ∃ v ∈ tget [] s.produced l, v.type = 0x00F0) → exec (.evcTestGo l) s = .next s)) ∧
  (∀ (r : RingId) t0 l, (ringOf s r).holdSince = some t0 → ringLoom s r = some l →
    (elapsedUs s.time t0 (ringOf s r).holdoff.toNat = false → exec (.msixHoldoffEnd r) s = .next s) ∧
    (elapsedUs s.time t0 (ringOf s r).holdoff.toNat = true → (ringOf s r).owed = false → ∃ t, exec (.msixHoldoffEnd r) s = .next t ∧
      ringOf t r = { ringOf s r with holdSince := none } ∧ (∀ q, q ≠ r.val → ringOf t q = ringOf s q) ∧ Frame noReg [.rings] s t) ∧
    (elapsedUs s.time t0 (ringOf s r).holdoff.toNat = true → (ringOf s r).owed = true → ∃ t, exec (.msixHoldoffEnd r) s = .next t ∧
      ringOf t r = { ringOf s r with holdSince := some s.time, owed := false } ∧
      (let v := (ringOf s r).msix.toNat
       let fn := loomFn s l
       (s.board.msixEn.getLsbD fn = true → fbit (rd s (msixKey fn v + 12)) 0 = false → t.msix = s.msix ++ [(fn, v)]) ∧
       (s.board.msixEn.getLsbD fn = true → fbit (rd s (msixKey fn v + 12)) 0 = true → fbit (rd t (pbaKey fn v)) (v % 32) = true ∧ t.msix = s.msix) ∧
       (s.board.msixEn.getLsbD fn = false → t.msix = s.msix) ∧
       (∀ q, q ≠ r.val → ringOf t q = ringOf s q) ∧ Frame (someRegs [pbaKey fn v]) [.rings, .msix] s t)))

-- ## The sequencer, knots and the engines of a core (05, 04, 02, 03)

/-- R174, R175, R177, R178, R213: the next descriptor of the core's stage enters a slot while there is room, and fetching ends with the bolt's last; an engine issues its next ready operation when it is free and no interlock holds it; NOP completes on issue. -/
def Obligations.OperationFlow : Prop := ∀ (s : State) (c : CoreId),
  (∀ e b i, goingBolt s c = some (e, b) → nextDesc s c b (boltOps s b - (coreOf s c).fetchAt) (coreOf s c).fetchAt = some i →
    (beforeStop s c b i = true → slotRoom (coreOf s c) (newSlot s c b i).deferred = true → ∃ t, exec (.operationFetch c) s = .next t ∧
      (coreOf t c).slots = (coreOf s c).slots ++ [newSlot s c b i] ∧ (coreOf t c).fetchAt = i + 1 ∧ rd t (coreKey c 0x38) ≠ 1 ∧
      (∀ d, d ≠ c.val → coreOf t d = coreOf s d) ∧ Frame (someRegs [coreKey c 0x38]) [.cores] s t) ∧
    ((beforeStop s c b i = false ∨ slotRoom (coreOf s c) (newSlot s c b i).deferred = false) → exec (.operationFetch c) s = .next s)) ∧
  (∀ e b, goingBolt s c = some (e, b) → nextDesc s c b (boltOps s b - (coreOf s c).fetchAt) (coreOf s c).fetchAt = none →
    ∃ t, exec (.operationFetch c) s = .next t ∧ coreOf t c = { coreOf s c with fetchAt := max (coreOf s c).fetchAt (boltOps s b) } ∧
      (∀ d, d ≠ c.val → coreOf t d = coreOf s d) ∧ Frame noReg [.cores] s t) ∧
  (goingBolt s c = none → exec (.operationFetch c) s = .next s ∧ ∀ g, exec (.operationIssue c g) s = .next s) ∧
  (∀ e b g x, goingBolt s c = some (e, b) → issueNext s c b g = some x →
    (engineFree (coreOf s c) x = true → heldBack s c x = false → ∃ t, exec (.operationIssue c g) s = .next t ∧
      (coreOf t c).slots = (coreOf s c).slots.filter (fun y => decide (y.idx ≠ x.idx)) ++ [{ x with issued := true, got := issueBytes s c x.words }] ∧
      rd t (coreKey c 0x10C) = (if x.deferred && !x.promoted then rd s (coreKey c 0x10C) + 1 else rd s (coreKey c 0x10C)) ∧
      (∀ d, d ≠ c.val → coreOf t d = coreOf s d) ∧ Frame (someRegs [coreKey c 0x10C]) [.cores] s t) ∧
    ((engineFree (coreOf s c) x = false ∨ heldBack s c x = true) → exec (.operationIssue c g) s = .next s)) ∧
  (∀ x, issuedOp s c (isOp 0x00) = some x → ∃ t, exec (.nop c) s = .next t ∧ Completed s t c x ∧ t.knotQ = s.knotQ ++ endSignal x ∧
    (∀ d, d ≠ c.val → coreOf t d = coreOf s d) ∧ Frame noReg [.cores, .knotQ, .router] s t)

/-- R192, R193, R194, R195, R406: while no producer of events waits, a local ADD or SET changes its knot, after every update that arrived before it, and no other, or aborts while the knots block takes no work; WAIT_GE completes once its counter has reached the value, and before that waits; a REMOTE update is sent under a KNOT import, aborts without one, and completes when it has been answered; outside S5 the knots block applies the update at its queue's front. -/
def Obligations.Knots : Prop := ∀ (s : State) (c : CoreId),
  (∀ (x : Slot) (set : Bool), eventsOpen s → issuedOp s c (isKnot (if set then 1 else 0)) = some x → wfld x.words 6 30 30 = 0 →
    (let i := wfld x.words 6 15 0
     let row : Instr := if set then .knotSet c else .knotAdd c
     (blockClosed s .knots = false → ∃ t, exec row s = .next t ∧
      knotOf t i = (if set then w64 x.words 8 else knotOf (drainKnots s) i + w64 x.words 8) ∧ (∀ j, j ≠ i → knotOf t j = knotOf (drainKnots s) j) ∧
      Completed s t c x ∧ t.knotQ = endSignal x ∧ t.mem = s.mem ∧ Frame noReg [.knots, .knotQ, .cores, .entries, .router, .links] s t) ∧
     (blockClosed s .knots = true → ∃ t, exec row s = .next t ∧ Aborted s t c x ∧ t.knots = s.knots ∧ Frame noReg [.cores, .produced, .router] s t))) ∧
  (∀ (x : Slot) (set : Bool), eventsOpen s → issuedOp s c (isKnot (if set then 1 else 0)) = some x → wfld x.words 6 30 30 = 1 →
    (let m := knotMsg s x set
     let row : Instr := if set then .knotSet c else .knotAdd c
     let imp := impFor s (coreLoom s c) m.dstDev.toNat m.addr.toNat 8 .knot
     (x.pos = 1 → ∃ t, exec row s = .next t ∧ Completed s t c x ∧ t.knotQ = s.knotQ ++ endSignal x ∧ Frame noReg [.cores, .knotQ, .router] s t) ∧
     (x.pos ≠ 1 → imp.isNone = true → ∃ t, exec row s = .next t ∧ Aborted s t c x ∧ t.knots = s.knots ∧ Frame noReg [.cores, .produced, .router] s t) ∧
     (x.pos ≠ 1 → imp.isNone = false → (maySend s m = false ∨ bucketOpen s (coreLoom s c) = false) → exec row s = .next s) ∧
     (∀ u, x.pos ≠ 1 → imp.isNone = false → maySend s m = true → bucketOpen s (coreLoom s c) = true → sendReq s (coreLoom s c) m (.op c x.idx) = (u, none) →
      ∃ t, exec row s = .next t ∧ t.router = u.router ∧ t.links = u.links ∧ t.knots = s.knots ∧
        (∀ y ∈ (coreOf t c).slots, y.idx = x.idx → y.pos = 1 ∧ y.waiting = 1 ∧ y.committing = true) ∧ Frame noReg [.cores, .entries, .router, .links] s t))) ∧
  (∀ x, issuedOp s c (isKnot 2) = some x →
    ((x.pos = 1 ∨ (w64 x.words 8).toNat ≤ (knotOf s (wfld x.words 6 15 0)).toNat) → ∃ t, exec (.knotWaitGe c) s = .next t ∧ Completed s t c x ∧
      t.knotQ = s.knotQ ++ endSignal x ∧ Frame noReg [.cores, .knotQ, .router] s t) ∧
    (x.pos ≠ 1 → (knotOf s (wfld x.words 6 15 0)).toNat < (w64 x.words 8).toNat → exec (.knotWaitGe c) s = .next s)) ∧
  (∀ k rest, s.knotQ = k :: rest → s.power.s5 = false → ∃ t, exec .knotUpdate s = .next t ∧ t.knotQ = rest ∧
    knotOf t k.idx = (if k.set then k.value else knotOf s k.idx + k.value) ∧ (∀ j, j ≠ k.idx → knotOf t j = knotOf s j) ∧
    (k.src = none → t.router = s.router ∧ t.links = s.links) ∧ Frame noReg [.knotQ, .knots, .cores, .router, .links] s t) ∧
  (s.knotQ = [] → exec .knotUpdate s = .next s)

/-- R54, R56, R57, R66, R78, R82, R87, R93, R99, R102: a pass of the operation whose turn it is fills the next bank when that is free, counted, and hands a tile with its last pass to the epilogue; a tile without passes goes there at once; an epilogue writes the staging buffer and frees the bank; a commit to scratchpad moves a block of rows to the output array and completes the operation with the last, and one to a stream port without credits waits; a MATMUL or CONV into scratchpad that is the core's only matrix operation runs from its issue to its end. -/
def Obligations.MatrixOps : Prop := ∀ (s : State) (c : CoreId),
  (∀ x a, arrayOp s c = some (x, a) → tilePasses x a.tile ≠ [] →
    (let bank := if a.pass = 0 then (coreOf s c).nextBank else a.bank
     let last := decide (a.pass + 1 = (tilePasses x a.tile).length)
     (¬ (a.pass = 0 ∧ bankHeld (coreOf s c) bank = true) → ∃ t, exec (.arrayPass c) s = .next t ∧
       arrRun (coreOf t c) x.idx = { a with bank := bank, pass := if last then 0 else a.pass + 1, tile := if last then a.tile + 1 else a.tile } ∧
       (coreOf t c).epiQ = (if last then (coreOf s c).epiQ ++ [(a.op, a.tile, some bank)] else (coreOf s c).epiQ) ∧
       (a.pass = 0 → bankHeld (coreOf t c) bank = true ∧ (coreOf t c).nextBank = !bank) ∧
       rd t (coreKey c 0x1D0) = rd s (coreKey c 0x1D0) + 128 ∧
       rd t (coreKey c 0x1CC) = rd s (coreKey c 0x1CC) + BitVec.ofNat 32 (streamCycles x.words (rowsOn x).length) ∧
       ScratchOnly s t c [accRange] ∧ (∀ d, d ≠ c.val → coreOf t d = coreOf s d) ∧ Frame (someRegs [coreKey c 0x1CC, coreKey c 0x1D0]) [.cores, .mem] s t) ∧
     (a.pass = 0 ∧ bankHeld (coreOf s c) bank = true → exec (.arrayPass c) s = .next s))) ∧
  (∀ x a, arrayOp s c = some (x, a) → tilePasses x a.tile = [] → ∃ t, exec (.arrayPass c) s = .next t ∧
    arrRun (coreOf t c) x.idx = { a with tile := a.tile + 1, pass := 0 } ∧ (coreOf t c).epiQ = (coreOf s c).epiQ ++ [(a.op, a.tile, none)] ∧
    (∀ d, d ≠ c.val → coreOf t d = coreOf s d) ∧ Frame noReg [.cores] s t) ∧
  (arrayOp s c = none → exec (.arrayPass c) s = .next s) ∧
  (∀ x tile bank rest, epiOp s c = some (x, tile, bank, rest) → (∃ l b, matCode s l b x.words = 0) → ∃ t, exec (.epilogue c) s = .next t ∧
    (coreOf t c).epiQ = rest ∧ (∀ b, bank = some b → bankHeld (coreOf t c) b = false) ∧
    ScratchOnly s t c [matStage x.words] ∧ (∀ d, d ≠ c.val → coreOf t d = coreOf s d) ∧ Frame noReg [.cores, .mem] s t) ∧
  (∀ x, committingMat s c = some x → mDst x.words ≠ 1 → (∃ l b, matCode s l b x.words = 0) →
    (x.pos + 1 < mMT x.words → ∃ t, exec (.commit c) s = .next t ∧ (∀ y ∈ (coreOf t c).slots, y.idx = x.idx → y.pos = x.pos + 1) ∧
      ScratchOnly s t c (opOuts x.words) ∧ (∀ d, d ≠ c.val → coreOf t d = coreOf s d) ∧ Frame noReg [.cores, .mem] s t) ∧
    (mMT x.words ≤ x.pos + 1 → ∃ t, exec (.commit c) s = .next t ∧ Completed s t c x ∧ t.knotQ = s.knotQ ++ endSignal x ∧
      ScratchOnly s t c (opOuts x.words) ∧ (∀ d, d ≠ c.val → coreOf t d = coreOf s d) ∧
      Frame (someRegs [coreKey c 0x180, coreKey c 0x184]) [.cores, .entries, .mem, .knotQ, .router] s t)) ∧
  (∀ x, committingMat s c = some x → mDst x.words = 1 → portStream s c x ≠ [] → sendRoom s c (wfld x.words 6 11 10) x.pos = 0 → exec (.commit c) s = .next s) ∧
  (∀ x, committingMat s c = none → openMats s c = [(x, { op := x.idx })] → mDst x.words = 0 → (∃ l b, matCode s l b x.words = 0) →
    (coreOf s c).arr = [] → (coreOf s c).epiQ = [] → (coreOf s c).bankBusy = (false, false) → ((coreOf s c).slots.map Slot.idx).Nodup → x.pos = 0 →
    (let i : Instr := if opcode x.words = 0x01 then .matmul c else .conv c
     ∃ t, exec i s = .next t ∧ Completed s t c x ∧ (coreOf t c).arr = [] ∧ (coreOf t c).epiQ = [] ∧ t.knotQ = s.knotQ ++ endSignal x ∧
      ScratchOnly s t c (accRange :: opWrites x.words) ∧ (∀ d, d ≠ c.val → coreOf t d = coreOf s d) ∧
      Frame (someRegs [coreKey c 0x180, coreKey c 0x184, coreKey c 0x1CC, coreKey c 0x1D0]) [.cores, .entries, .mem, .knotQ, .router] s t))

/-- R153, R157, R165, R166, R167, R169: an ATTN consumes the bobbins that have arrived, in list order, and after the last one commits and completes, bank A next; while the part is at work, a bobbin whose table entry is served enters the slot ring behind those before it, no more than the fetch depth waiting there, a promotion under way ends once its accesses are served, and a KV_WRITE into one bobbin writes its rows and its table entry and completes. -/
def Obligations.Attention : Prop := ∀ (s : State) (c : CoreId),
  (let l := coreLoom s c
   let K := fun k => accessRegs k ∨ pageRegs (loomKey l 0) k
   (∀ x t0 a, attnOp s c = some x → attnRun s c x = (t0, a) → a.ml.length = aM x.words * headsOf x.words →
    (let done := attnDone x { a with ready := [] }
     ∃ t, exec (.attn c) s = .next t ∧
      (done = false → (coreOf t c).attn.map (fun b => (b.op, b.ready, b.fetchAt, b.fetched)) = some (x.idx, [], a.fetchAt, a.fetched) ∧
        (coreOf t c).done = (coreOf s c).done ∧ t.knotQ = s.knotQ) ∧
      (done = true → Completed s t c x ∧ (coreOf t c).attn = none ∧ (coreOf t c).nextBank = false ∧ t.knotQ = s.knotQ ++ endSignal x) ∧
      ScratchOnly s t c (accRange :: attnWrites x.words) ∧ (∀ d, d ≠ c.val → coreOf t d = coreOf s d) ∧
      Frame (pageRegs (coreKey c 0)) [.cores, .entries, .mem, .knotQ, .router] s t)) ∧
   (∀ x t0 a, atWork s → (coreOf s c).promo = none → attnOp (fresh s) c = some x → attnRun (fresh s) c x = (t0, a) →
    (fetchDepth s x.words + 1 ≤ a.ready.length → ∃ t, exec (.bobbinFetch c) s = .next t ∧ (coreOf t c).attn = some a ∧
      ScratchOnly s t c [accRange] ∧ Frame noReg [.cores, .mem, .trip] s t) ∧
    (∀ j u bs v w, a.ready.length < fetchDepth s x.words + 1 → a.fetchAt < (listCount x).1 → listEnt t0 c x a.fetchAt = (j : Int) → 0 ≤ j →
      j < (tableLen x 4 : Int) → loomRead t0 (coreWho c x.idx) l (entAddr x 4 j.toNat) 16 = (u, .ok bs) → (bobOf bs).valid = true → (bobOf bs).fill ≠ 0 →
      (bobOf bs).tier ≠ 0 → (bobOf bs).busy = false → wfld x.words 5 26 26 = 0 →
      putEnt u (coreWho c x.idx) l (entAddr x 4 j.toNat) { bobOf bs with age := ageNow u } = (v, none) →
      copyIn (coreWho c x.idx) c l (bobParts x.words (bobOf bs).addr (t0Slot x.words (a.fetched % (pfDepth x.words + 1))) (min 256 (bobOf bs).fill)) v = (w, none) →
      accessesServed w →
      ∃ t, exec (.bobbinFetch c) s = .next t ∧
        (coreOf t c).attn = some { a with fetchAt := a.fetchAt + 1, fetched := a.fetched + 1,
                                          ready := a.ready ++ [(a.fetchAt, j.toNat, min 256 (bobOf bs).fill, a.fetched % (pfDepth x.words + 1))] } ∧
        LoomStores s t l [accRange, slotRing x.words] c ∧ Frame K ([.cores, .looms] ++ accessParts) s t)) ∧
   (∀ m u, atWork s → (coreOf s c).promo = some m → (coreOf s c).slots = [] → workUnit s (finishMove (fresh s) (promoWho c) m) = (u, true) →
    ∃ t, exec (.bobbinFetch c) s = .next t ∧ (coreOf t c).promo = none ∧ LoomStores s t m.loom [] c ∧
      Frame (fun k => accessRegs k ∨ pageRegs (loomKey m.loom 0) k) ([.cores, .looms] ++ accessParts) s t) ∧
   (∀ x u e v w, eventsOpen s → issuedOp s c (isOp 0x09) = some x → x.pos = 0 → (kvSpan x.words).2 = 1 → (kvSpan x.words).1 < tableLen x 0 →
    kvPlace (fresh s) c l x (kvSpan x.words).1 = (u, .val e) →
    copyOut (coreWho c x.idx) c l (kvParts x.words (kvSpan x.words).1 e.addr) (if x.committing then u else beginCommit u c x) = (v, none) →
    putEnt v (coreWho c x.idx) l (entAddr x 0 (kvSpan x.words).1) (kvEntry v x.words (kvSpan x.words).1 e) = (w, none) → accessesServed w →
    ∃ t, exec (.kvWrite c) s = .next t ∧ Completed s t c x ∧ t.knotQ = s.knotQ ++ endSignal x ∧ t.mem = w.mem ∧ LoomStores s t l [] c ∧
      Frame (fun k => K k ∨ k = coreKey c 0x184) ([.cores, .entries, .looms, .knotQ] ++ accessParts) s t))

/-- R168, R170, R171: while the part is at work, the spill engine starts when more T1 slots are in use than HIGH; STALL shows that nothing can be taken; a step of the engine stays within its loom's reach, finishes the move under way, and ends the engine when the slots in use lie below LOW; a POOL write frees every slot of its tier, in a CREATED or QUIESCED loom only. -/
def Obligations.Spill : Prop := ∀ (s : State) (l : LoomId),
  (atWork s → loomSt s l = 2 → bobCtrl s l 0 = true → bobHigh s l < usedT1 s l → ∃ t, exec (.spillStart l) s = .next t ∧ fbit (rd t (loomKey l 0x404)) 0 = true ∧
    fbit (rd t (loomKey l 0x404)) 1 = (spillTier s l).isNone ∧ Frame (someRegs [loomKey l 0x404]) [.produced] s t) ∧
  (atWork s → ¬ (loomSt s l = 2 ∧ bobCtrl s l 0 = true ∧ bobHigh s l < usedT1 s l) → ∃ t, exec (.spillStart l) s = .next t ∧
    fbit (rd t (loomKey l 0x404)) 0 = fbit (rd s (loomKey l 0x404)) 0 ∧ Frame (someRegs [loomKey l 0x404]) [.produced] s t) ∧
  ((loomOf s l).spill = none → (fbit (rd s (loomKey l 0x404)) 0 = false ∨ loomSt s l ≠ 2) → exec (.spillMove l) s = .next s) ∧
  (atWork s → (loomOf s l).spill = none → fbit (rd s (loomKey l 0x404)) 0 = true → loomSt s l = 2 → usedT1 s l < bobLow s l →
    ∃ t, exec (.spillMove l) s = .next t ∧ fbit (rd t (loomKey l 0x404)) 0 = false ∧ (loomOf t l).cands = [] ∧ Frame (someRegs [loomKey l 0x404]) [.looms] s t) ∧
  (atWork s → (∀ m, (loomOf s l).spill = some m → m.loom = l.val) → ∃ t, exec (.spillMove l) s = .next t ∧
    (∀ m u, (loomOf s l).spill = some m → fbit (rd s (loomKey l 0x404)) 0 = false → workUnit s (finishMove (fresh s) (spillWho l) m) = (u, true) → (loomOf t l).spill = none) ∧
    LoomStores s t l [] 0 ∧ Frame (fun k => accessRegs k ∨ pageRegs (loomKey l 0) k) (.looms :: accessParts) s t) ∧
  (∀ (tier : Fin 3) v, (blkOf s (loomKey l 0)).resetting = false → s.power.s5 = false →
    ((loomSt s l = 1 ∨ loomSt s l = 4) → ∃ t, exec (.loomBobPoolWrite l tier v) s = .next t ∧
      poolOf t l (tier.val + 1) = fld v 24 0 ∧ freeOf t l (tier.val + 1) = fld v 24 0 ∧
      tget 0 (loomOf t l).freeHead (tier.val + 1) = 0 ∧ tget 0 (loomOf t l).freeTail (tier.val + 1) = 0 ∧
      Frame (someRegs [tierKey l (tier.val + 1) 8, tierKey l (tier.val + 1) 0xC]) [.looms] s t) ∧
    (loomSt s l ≠ 1 → loomSt s l ≠ 4 → exec (.loomBobPoolWrite l tier v) s = .next s))

/-- R115, R116, R117, R118, R122, R124, R133, R134: a vector operation computes its rows in increasing order, each from what those before it left, writes only its output arrays, adds its flags to the sticky ones, counts its cycles and completes. -/
def Obligations.VectorRows : Prop := ∀ (s : State) (c : CoreId) (x : Slot),
  (let ws := x.words
   let fits := ∃ b, vecCode s b ws = 0
   let runs := fun (i : Instr) (cycles : Nat) (row : State → Nat → State) => ∃ t, exec i s = .next t ∧
     t.mem = ((List.range (vRows ws)).foldl row s).mem ∧ Completed s t c x ∧ t.knotQ = s.knotQ ++ endSignal x ∧
     rd t (coreKey c 0x194) = rd s (coreKey c 0x194) + BitVec.ofNat 32 cycles ∧
     (∀ i, fbit (rd s (coreKey c 0x180)) i = true → fbit (rd t (coreKey c 0x180)) i = true) ∧
     (fits → ScratchOnly s t c (opWrites ws)) ∧ (∀ d, d ≠ c.val → coreOf t d = coreOf s d) ∧
     Frame (pageRegs (coreKey c 0)) [.cores, .entries, .mem, .knotQ, .router] s t
   (vecOp s c 0x10 = some x → runs (.vec c) (vecCycles ws) fun u m => (runFM (vecRow u c ws m)).1 u) ∧
   (vecOp s c 0x11 = some x → runs (.reduce c) (vRows ws * (laneGroups ws + 7)) fun u m => (runFM (reduceRow u c ws m)).1 u) ∧
   (vecOp s c 0x12 = some x → runs (.softmax c) (vRows ws * (5 * laneGroups ws + 14)) fun u m => (runFM (softmaxRow u c ws m)).1.2 u) ∧
   (vecOp s c 0x15 = some x → runs (.rope c) (vRows ws * (2 * laneGroups ws)) fun u m => (runFM (ropeRow u c ws m)).1 u) ∧
   (vecOp s c 0x16 = some x → runs (.pool c) (vRows ws * (vol (opWin s c x).ker * laneGroups ws)) fun u m => (runFM (poolRow u c ws (opWin s c x) m)).1 u) ∧
   (vecOp s c 0x18 = some x → runs (.optim c) (vRows ws * (6 * laneGroups ws)) fun u m => (runFM (optimRow u c ws m)).1 u))

/-- R127, R128, R129, R137, R139, R151: a NORM writes its triples (PARTIAL) or its normalised rows; a NORM_MERGE writes the merged triples; a DELTA_SELECT writes its rows, then the list header with the number of rows emitted, and counts rows seen and emitted. Each completes. -/
def Obligations.NormAndDelta : Prop := ∀ (s : State) (c : CoreId) (x : Slot),
  (let ws := x.words
   let fits := ∃ b, vecCode s b ws = 0
   let ends := fun (t : State) => Completed s t c x ∧ t.knotQ = s.knotQ ++ endSignal x ∧
     (fits → ScratchOnly s t c (opWrites ws)) ∧ (∀ d, d ≠ c.val → coreOf t d = coreOf s d) ∧
     Frame (pageRegs (coreKey c 0)) [.cores, .entries, .mem, .knotQ, .router] s t
   (vecOp s c 0x13 = some x → nStats ws = 1 → ∃ t, exec (.norm c) s = .next t ∧
     t.mem = (spWr s c (spAt ws 11) ((normTriples s c ws).1.flatMap tripleBytes)).mem ∧ ends t) ∧
   (vecOp s c 0x13 = some x → nStats ws ≠ 1 → ∃ t, exec (.norm c) s = .next t ∧
     (let ts := (normTriples s c ws).1
      let rs := (runFM (ts.mapM (tripleScale ws))).1
      t.mem = ((List.range (vRows ws)).foldl (fun u m => (runFM (normRow u c ws (ts.zip rs) m)).1 u) s).mem) ∧ ends t) ∧
   (vecOp s c 0x14 = some x → ∃ t, exec (.normMerge c) s = .next t ∧
     t.mem = (spWr s c (outAt ws 0) ((runFM ((List.range (vLen ws)).mapM (mergeRecord s c ws))).1.flatMap tripleBytes)).mem ∧ ends t) ∧
   (vecOp s c 0x17 = some x → ∃ t, exec (.deltaSelect c) s = .next t ∧
     (let r := deltaRows c ws (beginCommit s c x)
      t.mem = (spWr r.1.st c (spAt ws 11) (toLe 4 r.2 ++ List.replicate 124 0)).mem ∧ r.2 ≤ vRows ws ∧
      rd t (coreKey c 0x198) = rd s (coreKey c 0x198) + BitVec.ofNat 32 (vRows ws) ∧ rd t (coreKey c 0x19C) = rd s (coreKey c 0x19C) + BitVec.ofNat 32 r.2) ∧ ends t))

/-- R181, R182, R183, R184, R186, R187, R197, R198, R214: while no producer of events waits, a LOAD or STORE whose check passes and whose rows are served in turn completes, its bytes counted, with its block changed only, and a row whose access fails aborts it; one whose check fails aborts before any byte moves; a SEND or RECV moves the bytes that its ports allow and completes with the last; a core returns a credit it owes, and a port never holds more than 32. While the part is at work, a RING_PUT whose ring takes every entry completes with the ring's WP advanced by their number; one that waits for room goes on from where it stands. -/
def Obligations.ShuttlesAndRingPut : Prop :=
  (∀ (s : State) (c : CoreId),
    (let moved := fun (t : State) (x : Slot) => (coreOf t c).shRest = ((coreOf s c).shRest + shTotal x.words) % 256 ∧
       rd t (coreKey c 0x114) = rd s (coreKey c 0x114) + BitVec.ofNat 32 (((coreOf s c).shRest + shTotal x.words) / 256)
     let K := fun k => accessRegs k ∨ k = coreKey c 0x114
     let ps := [.cores, .entries, .knotQ, .ceCounts] ++ accessParts
     (∀ x rest soft, eventsOpen s → shuttles s c 0 = x :: rest → x.pos = 0 → shAllowed s c x = true → hostShut s c x = false →
       (partsServed c x soft (shParts x.words) 0 s → ∃ t, exec (.shuttleLoad ⟨c, soft⟩) s = .next t ∧
         Completed s t c x ∧ t.knotQ = s.knotQ ++ endSignal x ∧ moved t x ∧
         (shRows x.words = 1 → shComp x.words = false → isTap (shBase s c x) = false →
           spRd t c (shBlock x.words).1 (shRowBytes x.words) = localRd s (shBase s c x) (shRowBytes x.words)) ∧
         (∀ b, ownByte s b → (b < spAddr c (shBlock x.words).1 ∨ spAddr c (shBlock x.words).1 + (shBlock x.words).2 ≤ b) → cget t.mem b = cget s.mem b) ∧
         Frame K ps s t) ∧
       (∀ u e, 0 < shParts x.words → movePart (fresh s) c (coreLoom s c) x 0 = (u, some e) → accessesServed u → ∃ t, exec (.shuttleLoad ⟨c, soft⟩) s = .next t ∧
         Aborted s t c x ∧ Frame K ps s t)) ∧
     (∀ x rest, eventsOpen s → shuttles s c 1 = x :: rest → x.pos = 0 → shAllowed s c x = true → hostShut s c x = false →
       (partsServed c x [] (shParts x.words) 0 s → ∃ t, exec (.shuttleStore c) s = .next t ∧
         Completed s t c x ∧ t.knotQ = s.knotQ ++ endSignal x ∧ moved t x ∧
         (shRows x.words = 1 → shComp x.words = false → isTap (shBase s c x) = false → holdsBytes s (shBase s c x) = true →
           cgets t.mem (shBase s c x) (shRowBytes x.words) = spRd s c (shBlock x.words).1 (shRowBytes x.words)) ∧
         StoresOnly s t [(shBase s c x, shMemSpan x.words)] ∧ Frame K ps s t) ∧
       (∀ u e, 0 < shParts x.words → movePart (fresh s) c (coreLoom s c) x 0 = (u, some e) → accessesServed u → ∃ t, exec (.shuttleStore c) s = .next t ∧
         Aborted s t c x ∧ StoresOnly s t [(shBase s c x, shMemSpan x.words)] ∧ Frame K ps s t)) ∧
     (∀ x rest, eventsOpen s → (coreOf s c).slots.filter (fun x => x.issued && (isShuttle 0 x.words || isShuttle 1 x.words)) = x :: rest →
       x.pos = 0 → x.committing = false → shAllowed s c x = false → ∃ t, exec (.accessFault c) s = .next t ∧ Aborted s t c x ∧
         (loomSt s (coreLoom s c) ≠ 0 → ∃ v ∈ tget [] t.produced (coreLoom s c), v.type = 3 ∧ v.info0 = BitVec.ofNat 64 (shBase s c x)) ∧
         t.mem = s.mem ∧ Frame noReg [.cores, .produced, .router] s t) ∧
     (∀ x rest d, shuttles s c 2 = x :: rest → portDir s c (wfld x.words 5 8 6) = some d → portTaken s c d x.idx = false →
       (let k := min (shTotal x.words - x.pos) (sendRoom s c d x.pos)
        k ≠ 0 → ∃ t, exec (.shuttleSend c) s = .next t ∧ (x.pos + k = shTotal x.words → Completed s t c x ∧ t.knotQ = s.knotQ ++ endSignal x ∧ moved t x) ∧
          (x.pos + k ≠ shTotal x.words → ∀ y ∈ (coreOf t c).slots, y.idx = x.idx → y.pos = x.pos + k) ∧
          t.mem = s.mem ∧ Frame (fun r => ∃ e, pageRegs (coreKey e 0) r) [.cores, .entries, .knotQ, .router] s t)) ∧
     (∀ x rest, shuttles s c 2 = x :: rest → portDir s c (wfld x.words 5 8 6) = none → ∃ t, exec (.shuttleSend c) s = .next t ∧ Completed s t c x ∧
       t.knotQ = s.knotQ ++ endSignal x ∧ t.mem = s.mem ∧ Frame noReg [.cores, .entries, .knotQ, .router] s t) ∧
     (∀ x rest d, shuttles s c 3 = x :: rest → portDir s c (wfld x.words 5 8 6) = some d → wfld x.words 5 9 9 = 0 → recvBefore s c d x.idx = false →
       (let k := min (shTotal x.words - x.pos) (((rxOf s c d).map List.length).foldl (· + ·) 0)
        k ≠ 0 → ∃ t, exec (.shuttleRecv c) s = .next t ∧ (x.pos + k = shTotal x.words → Completed s t c x ∧ t.knotQ = s.knotQ ++ endSignal x ∧ moved t x) ∧
          (x.pos + k ≠ shTotal x.words → ∀ y ∈ (coreOf t c).slots, y.idx = x.idx → y.pos = x.pos + k) ∧
          ScratchOnly s t c [shBlock x.words] ∧ Frame (pageRegs (coreKey c 0)) [.cores, .entries, .knotQ, .mem, .router] s t)) ∧
     (∀ d m, neighbour c (dirNum d) = some m → tget 0 (coreOf s c).owe (dirNum d) ≠ 0 → ∃ t, exec (.portCreditReturn c d) s = .next t ∧
       tget 0 (coreOf t c).owe (dirNum d) = tget 0 (coreOf s c).owe (dirNum d) - 1 ∧
       txCredits t m (facing (dirNum d)) = min 32 (txCredits s m (facing (dirNum d)) + 1) ∧ Frame (someRegs [portKey m (facing (dirNum d))]) [.cores] s t) ∧
     (∀ d, tget 0 (coreOf s c).owe (dirNum d) = 0 → exec (.portCreditReturn c d) s = .next s))) ∧
  (∀ (s : State) (c : CoreId) (x : Slot), atWork s → issuedOp (fresh s) c (isOp 0x30) = some x →
    (let l := coreLoom s c
     let r := wfld x.words 5 17 0
     let n := wfld x.words 7 16 0 - x.pos
     let put := ringPutFrom c (wfld x.words 6 17 0 * 128) l r x n (fresh s) x.pos
     let F := fun t => LoomStores s t l [] c ∧ Frame (recordRegs l) ([.cores, .entries, .knotQ] ++ recordParts) s t
     accessesServed (partDone put.1 c x put.2.1 put.2.2) →
     (put.2.2 = true → ∃ t, exec (.ringPut c) s = .next t ∧ Completed s t c x ∧ t.knotQ = s.knotQ ++ endSignal x ∧
       (ringOf t r).wp = (ringOf s r).wp + BitVec.ofNat 32 n ∧ F t) ∧
     (put.2.2 = false → ∃ t, exec (.ringPut c) s = .next t ∧ (coreOf t c).done = (coreOf s c).done ∧ x.pos ≤ put.2.1 ∧
       (∀ y ∈ (coreOf t c).slots, y.idx = x.idx → y.pos = put.2.1 ∨ put.2.1 = x.pos) ∧ F t)))

-- ## The creel, picks and parks (10, 11)

/-- R228, R230, R232, R233, R234, R253: while the part is at work, an admission whose image is served ends with the first failing check's code, waits while the quota is full, or takes the lowest free entry; a cancel ends an entry not yet in a pick and marks one that is; an ADMITTED entry whose knot is reached becomes READY; a finished entry is freed once its records and events are out. -/
def Obligations.CreelEntries : Prop := ∀ s : State, atWork s →
  (∀ (r : RingId) e, headEntry s r = some e → e.phase = .fetched → entKind e = 2 → blockClosed s .creel = false →
    (let K := fun k => accessRegs k ∨ cfgCmdRegs k ∨ k = 0x22108 ∨ k = 0x2210C
     let ps := [.entries, .endSeq, .rings, .creel, .creelCache, .admitSeq] ++ accessParts
     let image := loomReadAcross (fresh s) ⟨0x022, 0, r⟩ e.loom (fieldLe e.bytes 8 8) 256
     let ends := fun (t : State) (status code : Nat) (idx : Nat) => (∀ x ∈ t.entries, x.ring = e.ring → x.seq = e.seq →
       x.phase = .ended ∧ x.status = status ∧ x.firstFail = BitVec.ofNat 32 code ∧ x.opsDone = BitVec.ofNat 32 idx) ∧ StoresOnly s t [] ∧ Frame K ps s t
     (∀ u er, image = (u, .error er) → accessesServed u →
       ∃ t, exec (.creelAdmit r) s = .next t ∧ t.creel = s.creel ∧ ends t 8 1 0xFFFFFFFF) ∧
     (∀ u b, image = (u, .ok b) → accessesServed u →
       (admitCheck u e.loom b ≠ 0 → ∃ t, exec (.creelAdmit r) s = .next t ∧ t.creel = s.creel ∧ ends t 8 (admitCheck u e.loom b) 0xFFFFFFFF) ∧
       (admitCheck u e.loom b = 0 → creelFull s e.loom = true → ∃ t, exec (.creelAdmit r) s = .next t ∧ t.creel = s.creel ∧
         t.entries = s.entries.map (fun x => if x.ring = e.ring ∧ x.seq = e.seq then { e with id := BitVec.ofNat 64 (fieldLe b 0 8) } else x) ∧
         StoresOnly s t [] ∧ Frame K ps s t) ∧
       (∀ i, admitCheck u e.loom b = 0 → creelFull s e.loom = false → creelFree s = some i → i < 262144 →
         ∃ t, exec (.creelAdmit r) s = .next t ∧ tfind t.creel i = some (creelOfImage s e.loom b) ∧ (∀ j, j ≠ i → tfind t.creel j = tfind s.creel j) ∧
           t.admitSeq = s.admitSeq + 1 ∧ rd t 0x2210C = rd s 0x2210C + 1 ∧ ends t 0 0 i)))) ∧
  (∀ (r : RingId) e, headEntry s r = some e → e.phase = .fetched → entKind e = 3 →
    (let ends := fun (t : State) (status code : Nat) (idx : Nat) => (∀ x ∈ t.entries, x.ring = e.ring → x.seq = e.seq →
       x.phase = .ended ∧ x.status = status ∧ x.firstFail = BitVec.ofNat 32 code ∧ x.opsDone = BitVec.ofNat 32 idx) ∧
       Frame (fun k => cfgCmdRegs k ∨ k = 0x22108) [.entries, .endSeq, .rings, .creel, .creelCache, .produced, .router] s t
     let found := s.creel.find? fun p => decide (p.2.loom = e.loom) && decide (p.2.reqTag.toNat = fieldLe e.bytes 8 8)
     (found = none → ∃ t, exec (.creelCancel r) s = .next t ∧ t.creel = s.creel ∧ ends t 8 7 0xFFFFFFFF) ∧
     (∀ i c, found = some (i, c) →
       ((c.state = 1 ∨ c.state = 2) → ∃ t, exec (.creelCancel r) s = .next t ∧ tfind t.creel i = some { c with state := 7, cancelPend := false } ∧
         (loomSt s c.loom ≠ 0 → ∃ v ∈ tget [] t.produced c.loom, v.type = 0x22 ∧ v.info0 = c.reqTag) ∧ ends t 0 0 i) ∧
       ((c.state = 3 ∨ c.state = 4) → ∃ t, exec (.creelCancel r) s = .next t ∧ tfind t.creel i = some { c with cancelPend := true } ∧ ends t 0 9 i) ∧
       (c.state = 5 → ∃ t, exec (.creelCancel r) s = .next t ∧ t.creel = s.creel ∧ ends t 0 8 i) ∧
       ((c.state = 0 ∨ 5 < c.state) → ∃ t, exec (.creelCancel r) s = .next t ∧ t.creel = s.creel ∧ ends t 8 7 0xFFFFFFFF)))) ∧
  (∀ (i : CreelId) e, tfind s.creel i = some e →
    (let holds := e.state = 1 ∧ (e.condKnot = 0xFFFF ∨ e.condValue.toNat ≤ (knotOf s e.condKnot).toNat)
     let queued := !((tget [] s.produced e.loom).any fun v => (decide (v.type = 0x21) || decide (v.type = 0x22)) && decide (v.info0 = e.reqTag))
     let gone := (e.state = 5 ∧ e.outs = 0) ∨ ((e.state = 6 ∨ e.state = 7) ∧ queued = true)
     (holds → ∃ t, exec (.condRelease i) s = .next t ∧ tfind t.creel i = some { e with state := 2 } ∧
       (∀ j, j ≠ i.val → tfind t.creel j = tfind s.creel j) ∧ Frame (someRegs [0x22108]) [.creel, .creelCache] s t) ∧
     (¬ holds → exec (.condRelease i) s = .next s) ∧
     (gone → ∃ t, exec (.entryFree i) s = .next t ∧ tfind t.creel i = none ∧ (∀ j, j ≠ i.val → tfind t.creel j = tfind s.creel j) ∧ Frame noReg [.creel, .creelCache] s t) ∧
     (¬ gone → exec (.entryFree i) s = .next s)))

/-- R236, R237, R238, R239, R240, R241, R246: while the part is at work, a pick that the builder may build takes its members IN_PICK and, once it is written whole, is submitted; one in hand is written on; an urgent one also raises a park of the running step bolt; PICK_GET copies the pick of its bolt, or a zero entry; CREEL_ADVANCE advances each member of its copy. -/
def Obligations.Picks : Prop := ∀ s : State, atWork s →
  (let built := fun (t : State) (l : Nat) (urgent : Bool) => ∃ p, (loomOf t l).picks = (loomOf s l).picks ++ [p] ∧ p.urgent = urgent ∧ p.seq = (loomOf s l).pickSeq ∧
     (loomOf t l).pickSeq = (loomOf s l).pickSeq + 1 ∧ (loomOf t l).lastBuild = some s.time ∧ p.members ≠ [] ∧
     (∀ i ∈ p.members, ∃ x, tfind t.creel i = some x ∧ x.state = 3 ∧ x.loom = l) ∧
     ((loomOf t l).build = none → p.ring ≠ p.submit → (ringOf t p.submit).wp = (ringOf s p.submit).wp + 1)
   (∀ (l : LoomId) u, (loomOf s l).build = none → blockClosed s .pick = false → mayBuild s l = true → buildPick (fresh s) l (candidates s l) false = some u →
     accessesServed u → ∃ t, exec (.pickBuild l) s = .next t ∧ built t l false ∧
     LoomStores s t l [] 0 ∧ Frame (fun k => recordRegs l k ∨ k = 0x22108) ([.creel, .creelCache, .looms] ++ recordParts) s t) ∧
   (∀ l : LoomId, (loomOf s l).build = none → (mayBuild s l = false ∨ buildPick (fresh s) l (candidates s l) false = none) → exec (.pickBuild l) s = .next (fresh s)) ∧
   (∀ (l : LoomId) i, (i = .pickBuild l ∨ i = .preemptRaise l) → (loomOf s l).build.isSome = true → (loomSt s l = 2 ∨ loomSt s l = 3) → accessesServed (writePick (fresh s) l) →
     ∃ t, exec i s = .next t ∧ (loomOf t l).picks = (loomOf s l).picks ∧ t.creel = s.creel ∧ LoomStores s t l [] 0 ∧ Frame (recordRegs l) (.looms :: recordParts) s t) ∧
   (∀ (l : LoomId) p e, (loomOf s l).build = none → blockClosed s .pick = false → loomSt s l = 2 → (loomOf s l).paused = false → fbit (rd s (loomKey l 0x480)) 2 = true →
     ((loomOf s l).picks.any fun p => p.urgent) = false → runningStep s l = some (p, e) →
     (buildPick (fresh s) l (urgentCands s l p) true = none → exec (.preemptRaise l) s = .next (fresh s)) ∧
     (∀ u, buildPick (fresh s) l (urgentCands s l p) true = some u → accessesServed u → ∃ t, exec (.preemptRaise l) s = .next t ∧ built t l true ∧ (loomOf t l).urgents = 1 ∧
       fbit (rd t (loomKey l 0x4A8)) 2 = true ∧
       (∀ b, e.bolt = some b → b.stop = .none → parkFor s l e.ring e.seq = none →
         parkFor t l e.ring e.seq = some { ring := e.ring, seq := e.seq, why := .urgent, since := s.time, asker := 0 } ∧ ∀ c ∈ boltCores b, (coreOf t c).stopReq = true) ∧
       LoomStores s t l [] 0 ∧ Frame (fun k => recordRegs l k ∨ k = 0x22108 ∨ k = loomKey l 0x4A8) ([.creel, .creelCache, .looms, .entries, .cores] ++ recordParts) s t)) ∧
   (∀ l : LoomId, (loomOf s l).build = none → (loomSt s l ≠ 2 ∨ (loomOf s l).paused = true ∨ fbit (rd s (loomKey l 0x480)) 2 = false ∨
     ((loomOf s l).picks.any fun p => p.urgent) = true ∨ runningStep s l = none) → exec (.preemptRaise l) s = .next (fresh s)) ∧
   (∀ (c : CoreId) x e b, issuedOp s c (isOp 0x32) = some x → coreBolt s c = some (e, b) →
     (let dst := wfld x.words 5 17 0 * 128
      let copy := pickCopy (fresh s) (coreWho c x.idx) e (wfld x.words 6 8 0)
      let F := fun t => Frame accessRegs ([.cores, .entries, .knotQ] ++ accessParts) s t
      (∀ u bs, copy = (u, .ok bs) → accessesServed u → ∃ t, exec (.pickGet c) s = .next t ∧ Completed s t c x ∧ t.knotQ = s.knotQ ++ endSignal x ∧
        t.mem = (spWr u c dst bs).mem ∧ F t) ∧
      (pairedPick s e.loom e.ring = none → ∃ t, exec (.pickGet c) s = .next t ∧ Completed s t c x ∧ t.knotQ = s.knotQ ++ endSignal x ∧
        t.mem = (spWr s c dst (List.replicate 64 0)).mem ∧ F t) ∧
      (∀ u er, copy = (u, .error er) → accessesServed u → ∃ t, exec (.pickGet c) s = .next t ∧ Aborted s t c x ∧ F t))) ∧
   (∀ (c : CoreId) x e b, issuedOp s c (isOp 0x31) = some x → coreBolt s c = some (e, b) →
     (let base := wfld x.words 5 17 0 * 128
      let n := min (fieldLe (spRd s c base 12) 8 4) 256
      let adv := advanceFrom c base e.loom x (n - x.pos) (fresh s) x.pos
      accessesServed (partDone adv.1 c x adv.2.1 adv.2.2) → ∃ t, exec (.creelAdvance c) s = .next t ∧
       (adv.2.2 = true → Completed s t c x ∧ t.knotQ = s.knotQ ++ endSignal x) ∧
       (adv.2.2 = false → (coreOf t c).done = (coreOf s c).done ∧ (adv.2.1 ≠ x.pos → ∀ y ∈ (coreOf t c).slots, y.idx = x.idx → y.pos = adv.2.1)) ∧
       (∀ i y, n = 1 → x.pos = 0 → stillMember s e.loom (spRd s c (base + 64) 64) = some (i, y) →
          (let w := coreWho c x.idx
           let last := y.cancelPend = false ∧ y.stepCount ≤ y.step + 1
           let hand := loomWrite (fresh s) w y.loom y.outParam.toNat (handoffBytes i y)
           (y.cancelPend = true → tfind t.creel i = some { y with step := y.step + 1, state := 7, cancelPend := false }) ∧
           (y.cancelPend = false → y.step + 1 < y.stepCount → tfind t.creel i = some { y with step := y.step + 1, state := 2 }) ∧
           (last → ringOpen s w y.loom y.outSubmit 1 = false → t.creel = s.creel) ∧
           (∀ u er, last → ringOpen s w y.loom y.outSubmit 1 = true → badSlot s y.loom y.outSubmit = none → hand = (u, some er) →
             tfind t.creel i = some { y with step := y.step + 1, state := 6 }) ∧
           (∀ u v, last → ringOpen s w y.loom y.outSubmit 1 = true → badSlot s y.loom y.outSubmit = none → hand = (u, none) →
             tryPush u w y.loom y.outSubmit (boltEntryBytes y.outBoltAddr y.outBoltBytes.toNat y.reqTag true) = (v, true) →
             (ringOf t y.outSubmit).wp = (ringOf s y.outSubmit).wp + 1 ∧
             tfind t.creel i = some (if y.chunk + 1 < y.chunkCount then { y with chunk := y.chunk + 1, step := 0, state := 2, outs := y.outs + 1 }
               else { y with step := y.step + 1, state := 5, doneTime := s.time, outs := y.outs + 1 })))) ∧
       LoomStores s t e.loom [] c ∧ Frame (fun k => recordRegs e.loom k ∨ k = 0x22108) ([.creel, .creelCache, .cores, .entries, .knotQ] ++ recordParts) s t)))

/-- R68, R247, R248, R249, R250, R251, R252: a stopping core stops at its shed point with its begun commits; while the part is at work, a park whose cores have all stopped and whose images are served is saved, its bolt parked and its ports empty, or, for a recovery park that nothing holds, going on, and one whose image cannot be written ends its bolt; a parked bolt resumes once nothing holds it; a core that never reaches a shed point makes the park be abandoned with an event; a core that passes a KEEP shed point asks for a recovery park, or passes on where the point has no effect. -/
def Obligations.Parks : Prop := ∀ s : State,
  (∀ (c : CoreId) e b, coreBolt s c = some (e, b) →
    (let stops := (coreOf s c).stopReq = true ∧ (coreOf s c).stopped = false ∧ reached s c b (stopOp s c b) = true
     (stops → ∃ t, exec (.shedPointReach c) s = .next t ∧ (coreOf t c).arr = [] ∧ (coreOf t c).epiQ = [] ∧ (coreOf t c).attn = none ∧
       (coreOf t c).slots = (coreOf s c).slots.filter (fun x => x.committing) ∧ ((coreOf t c).stopped = true ∨ (coreOf t c).stopReq = false) ∧
       Frame noReg [.cores, .looms, .entries] s t) ∧
     (¬ stops → exec (.shedPointReach c) s = .next s))) ∧
  (∀ (l : LoomId) p e b u, atWork s → readyPark s l = some (p, e, b) →
    (let saves := saveAll l b (boltCores b) (fresh s)
     let kept := fun (t : State) => LoomStores s t l [] 0 ∧ Frame (fun k => accessRegs k ∨ pageRegs (loomKey l 0) k ∨ k = 0x22108 ∨ ∃ c d, k = portKey c d)
       ([.entries, .cores, .looms, .creel, .creelCache] ++ accessParts) s t
     (p.why ≠ .recovery → saves = (u, none) → accessesServed u → ∃ t, exec (.parkSave l) s = .next t ∧
       (parkFor t l e.ring e.seq).map Park.st = some 2 ∧ rd t (loomKey l 0x4B0) = rd s (loomKey l 0x4B0) + 1 ∧
       (∀ x ∈ t.entries, x.ring = e.ring → x.seq = e.seq → ∃ y, x.bolt = some y ∧ y.parked = true ∧ y.wasParked = true ∧ y.clockOn = false ∧ y.clockUs = boltClock s e b) ∧
       (∀ c ∈ boltCores b, (coreOf t c).rx = [] ∧ (coreOf t c).owe = []) ∧ kept t) ∧
     (p.why = .recovery → (∀ c ∈ boltCores b, coreHeld s l c = false) → saves = (u, none) → accessesServed u → ∃ t, exec (.parkSave l) s = .next t ∧
       parkFor t l e.ring e.seq = none ∧ rd t (loomKey l 0x4B0) = rd s (loomKey l 0x4B0) + 1 ∧
       (∀ c ∈ boltCores b, (coreOf t c).stopReq = false ∧ (coreOf t c).stopped = false) ∧ kept t) ∧
     (∀ er, saves = (u, some er) → accessesServed u → ∃ t, exec (.parkSave l) s = .next t ∧
       (∀ x ∈ t.entries, x.ring = e.ring → x.seq = e.seq → x.status = er.status ∧ ∃ y, x.bolt = some y ∧ y.stop = .failure) ∧ kept t))) ∧
  (∀ (l : LoomId) p e b, atWork s → (loomOf s l).build = none → parkedBolt s l = some (p, e, b) →
    (let b1 := { b with parked := false, clockAt := s.time, clockOn := true, stop := .none }
     (resumable s l e b = false → exec (.parkResume l) s = .next (fresh s)) ∧
     (∀ v, resumable s l e b = true → (p.why ≠ .urgent ∨ max 1 (rdF s (loomKey l 0x480) 9 6) ≤ (loomOf s l).urgents ∨ loomSt s l ≠ 2) →
       restoreAll l b1 (boltCores b1) (resetCores (fresh s) e b1) = (v, none) → accessesServed v → ∃ t, exec (.parkResume l) s = .next t ∧
       parkFor t l e.ring e.seq = none ∧ (loomOf t l).urgents = 0 ∧
       (∀ x ∈ t.entries, x.ring = e.ring → x.seq = e.seq → ∃ y, x.bolt = some y ∧ y.parked = false ∧ y.clockOn = true ∧ y.clockAt = s.time) ∧
       (∀ c ∈ boltCores b, (coreOf t c).bolt = some (e.ring, e.seq) ∧ (coreOf t c).stopReq = false ∧ (coreOf t c).stopped = false ∧ (coreOf t c).slots = []) ∧
       (∀ a, a < 0x10000000000 → cget t.mem a = cget s.mem a) ∧ t.host = s.host ∧
       Frame (fun k => accessRegs k ∨ k = loomKey l 0x4A8 ∨ k = 0x22108 ∨ ∃ c, pageRegs (coreKey c 0) k) ([.entries, .cores, .looms, .creel, .creelCache] ++ accessParts) s t))) ∧
  (∀ (c : CoreId) e b p, eventsOpen s → coreBolt s c = some (e, b) → parkFor s e.loom e.ring e.seq = some p →
    (let due := p.st = 1 ∧ b.stop = .park ∧ (coreOf s c).stopped = false ∧ (coreOf s c).stopReq = true ∧ 2 * hdr s b 32 4 * 1800 ≤ ranSince (coreOf s c)
     (due → ∃ t, exec (.parkAbandon c) s = .next t ∧ parkFor t e.loom e.ring e.seq = none ∧
       rd t (loomKey e.loom 0x4B4) = rd s (loomKey e.loom 0x4B4) + 1 ∧ (∀ d ∈ boltCores b, (coreOf t d).stopReq = false ∧ (coreOf t d).stopped = false) ∧
       (((loomOf s e.loom).paused = true ∨ loomSt s e.loom = 3) → (loomOf t e.loom).noPark = true) ∧
       (loomSt s e.loom ≠ 0 → ∃ v ∈ tget [] t.produced e.loom, v.type = 0x23 ∧ v.info0 = e.id ∧ v.info1 = BitVec.ofNat 64 c.val) ∧
       Frame (someRegs [loomKey e.loom 0x4A8, loomKey e.loom 0x4B4]) [.entries, .cores, .looms, .produced] s t) ∧
     (¬ due → exec (.parkAbandon c) s = .next s))) ∧
  (∀ (c : CoreId) e b, coreBolt s c = some (e, b) →
    (let asks := (coreOf s c).keepAt < keepReached s c b ∧ e.phase = .running ∧ b.parked = false ∧ b.stop ≠ .halt
     let free := parkFor s e.loom e.ring e.seq = none ∧ keepIdle s e b = false
     (asks → free → ∃ t, exec (.recoveryPark c) s = .next t ∧
       parkFor t e.loom e.ring e.seq = some { ring := e.ring, seq := e.seq, why := .recovery, since := s.time, asker := c.val } ∧
       (coreOf t c).keepAt = keepReached s c b ∧ (coreOf t c).stopped = true ∧ (coreOf t c).stopAt = keepReached s c b - 1 ∧
       (∀ d ∈ boltCores b, (coreOf t d).stopReq = true) ∧ Frame (someRegs [loomKey e.loom 0x4A8]) [.cores, .looms, .entries] s t) ∧
     (asks → ¬ free → ∃ t, exec (.recoveryPark c) s = .next t ∧ coreOf t c = { coreOf s c with keepAt := keepReached s c b } ∧ Frame noReg [.cores] s t) ∧
     (¬ asks → exec (.recoveryPark c) s = .next s)))

-- ## Looms (12)

/-- R257, R258, R274, R402, R435: a command is refused with STATE before READY, queues behind one that executes, and sets the overflow flag as the ninth; a page under reset refuses its write, and S5 loses it; a VF's reset queues a QUIESCE that is never refused, unless one is queued already. -/
def Obligations.LoomQueue : Prop := ∀ (s : State) (l : LoomId) (drain scrub : Bool),
  (let sends : List (Instr × LoomCmd) := [(.loomCreate l, { op := 1 }), (.loomStart l, { op := 2 }), (.loomQuiesce l drain, { op := 3, drain := drain }),
     (.loomDestroy l scrub, { op := 4, scrub := scrub }), (.loomUpdate l, { op := 5 })]
   let x := loomOf s l
   let waiting := (x.cmds.filter fun c => !c.flr).length
   let ok := (blkOf s (loomKey l 0)).resetting = false ∧ s.power.s5 = false
   (∀ p ∈ sends,
     (s.power.s5 = true → exec p.1 s = .next s) ∧
     ((blkOf s (loomKey l 0)).resetting = true → s.power.s5 = false → exec p.1 s = .next (keep s (accRefuse s (loomKey l 0x100) 2))) ∧
     (ok → 8 ≤ waiting → ∃ t, exec p.1 s = .next t ∧ fbit (rd t (loomKey l 0x104)) 5 = true ∧ Frame (someRegs [loomKey l 0x104]) [] s t) ∧
     (ok → waiting < 8 → x.executing = true → ∃ t, exec p.1 s = .next t ∧ (loomOf t l).cmds = x.cmds ++ [p.2] ∧ (loomOf t l).executing = true ∧
       rdF t (loomKey l 0x104) 3 0 = (x.cmds.length + 1) % 16 ∧ fbit (rd t (loomKey l 0x104)) 4 = true ∧
       Frame (fun k => pageRegs (loomKey l 0) k) [.looms, .cores, .entries] s t) ∧
     (ok → x.cmds = [] → x.executing = false → ready s = false → loomSt s l ≠ 3 → ∃ t, exec p.1 s = .next t ∧ (loomOf t l).cmds = [] ∧
       rdF t (loomKey l 0x104) 15 8 = 1 ∧ rdF t (loomKey l 0x104) 18 16 = p.2.op ∧ Frame (someRegs [loomKey l 0x104, loomKey l 0x108]) [.looms] s t)) ∧
   (∀ vf : FnId, (let m := (liveLooms s).find? fun i => decide (loomFn s i = vf.val)
     ((vf.val = 0 ∨ m = none) → exec (.vfFlr vf) s = .next s) ∧
     (∀ i, vf.val ≠ 0 → m = some i → (loomOf s i).cmds.any (fun c => c.flr) = true → ∃ t, exec (.vfFlr vf) s = .next t ∧ fbit (rd t (loomKey i 0x108)) 8 = true ∧
       Frame (someRegs [loomKey i 0x108]) [] s t) ∧
     (∀ i, vf.val ≠ 0 → m = some i → (loomOf s i).cmds.any (fun c => c.flr) = false → (loomOf s i).executing = true → ∃ t, exec (.vfFlr vf) s = .next t ∧
       fbit (rd t (loomKey i 0x108)) 8 = true ∧ (loomOf t i).cmds = (loomOf s i).cmds ++ [{ op := 3, flr := true }] ∧
       Frame (someRegs [loomKey i 0x104, loomKey i 0x108]) [.looms] s t) ∧
     (∀ i, vf.val ≠ 0 → m = some i → (loomOf s i).cmds = [] → (loomOf s i).executing = false → ready s = true → loomSt s i = 2 → ∃ t, exec (.vfFlr vf) s = .next t ∧
       fbit (rd t (loomKey i 0x108)) 8 = true ∧ loomSt t i = 3 ∧ (loomOf t i).noDrain = true ∧ Frame (fun k => pageRegs (loomKey i 0) k) [.looms, .cores, .entries] s t))))

/-- R235, R258, R259, R260, R261, R268, R379, R417: a CREATE whose checks pass takes its page's settings over, clears its knots, disables its rings and sets the owners; one whose check fails answers that check's code and changes nothing else. A START powers the loom's cores up, but for retired ones, and executes; while the part is at work it copies the key table, and with no parked bolt left to resume the loom reads RUNNING and LOOM_STATE is raised; the command ends once that event is staged. -/
def Obligations.LoomCreateStart : Prop := ∀ (s : State) (l : LoomId),
  (let answers := fun (t : State) (op code : Nat) => (loomOf t l).cmds = [] ∧ (loomOf t l).executing = false ∧ rdF t (loomKey l 0x104) 15 8 = code ∧ rdF t (loomKey l 0x104) 18 16 = op
   let small := fun (t : State) (ps : List Part) => Frame (someRegs [loomKey l 0x104, loomKey l 0x108]) ps s t
   ((blkOf s (loomKey l 0)).resetting = false → s.power.s5 = false → (loomOf s l).cmds = [] → (loomOf s l).executing = false → ready s = true →
     (loomSt s l = 0 → createCheck s l = 0 → ∃ t, exec (.loomCreate l) s = .next t ∧ answers t 1 0 ∧ loomSt t l = 1 ∧
       (∀ o ∈ settingOffs, lv t l o = rd s (loomKey l o)) ∧ (∀ m, m ≠ l.val → ∀ o, o < 0x1000 → lv t m o = lv s m o) ∧
       (∀ k, within k 1 (fld (rd s (loomKey l 0x118)) 15 0) (fld (rd s (loomKey l 0x11C)) 16 0) = true → knotOf t k = 0) ∧
       (∀ k, within k 1 (fld (rd s (loomKey l 0x118)) 15 0) (fld (rd s (loomKey l 0x11C)) 16 0) = false → knotOf t k = knotOf s k) ∧
       (∀ r, within r 1 (fld (rd s (loomKey l 0x110)) 17 0) (fld (rd s (loomKey l 0x114)) 18 0) = true → (ringOf t r).enable = false ∧ (ringOf t r).faulted = false) ∧
       (∀ r, within r 1 (fld (rd s (loomKey l 0x110)) 17 0) (fld (rd s (loomKey l 0x114)) 18 0) = false → ringOf t r = ringOf s r) ∧
       (∀ c, c < 384 → setHas (loomPage s l) c = true → rd t (coreKey c 0x34) = BitVec.ofNat 32 (2 ^ 31 + l.val)) ∧ (loomOf t l).pickSeq = 1 ∧
       Frame (fun k => pageRegs (loomKey l 0) k ∨ (∃ c, k = coreKey c 0x34) ∨ ∃ n, k = codecKey n 0x34) [.live, .knots, .rings, .looms] s t) ∧
     (loomSt s l = 0 → createCheck s l ≠ 0 → ∃ t, exec (.loomCreate l) s = .next t ∧ answers t 1 (createCheck s l) ∧ loomSt t l = 0 ∧ small t [.looms]) ∧
     (loomSt s l ≠ 0 → ∃ t, exec (.loomCreate l) s = .next t ∧ answers t 1 1 ∧ loomSt t l = loomSt s l ∧ small t [.looms]) ∧
     ((loomSt s l ≠ 0 ∧ loomSt s l ≠ 2) → ∃ t, exec (.loomStart l) s = .next t ∧ (loomOf t l).cmds = [{ op := 2 }] ∧ (loomOf t l).executing = true ∧ loomSt t l = loomSt s l ∧
       (∀ c ∈ loomCores s l, (coreAvail s c = true → rd t (coreKey c 0x38) = 0) ∧ (coreAvail s c = false → rd t (coreKey c 0x38) = rd s (coreKey c 0x38))) ∧
       (∀ c ∈ loomCores s l, coreAvail s c = true → rd s (coreKey c 0x38) = 2 → ∀ b, spAddr c 0 ≤ b → b < spAddr c 0 + 0x1C00000 → cget t.mem b = 0) ∧
       (∀ b, (∀ c ∈ loomCores s l, b < spAddr c 0 ∨ spAddr c 0 + 0x1C00000 ≤ b) → cget t.mem b = cget s.mem b) ∧
       Frame (fun k => k = loomKey l 0x104 ∨ k = loomKey l 0x108 ∨ (∃ c, k = coreKey c 0x38) ∨ ∃ r, pageRegs (regionKey r 0) k) [.looms, .mem] s t) ∧
     (loomSt s l = 2 → ∃ t, exec (.loomStart l) s = .next t ∧ answers t 2 0 ∧ small t [.looms]) ∧
     (loomSt s l = 0 → ∃ t, exec (.loomStart l) s = .next t ∧ answers t 2 1 ∧ small t [.looms])) ∧
   (∀ c, atWork s → (loomOf s l).cmds = [c] → (loomOf s l).executing = true → c.op = 2 →
     (let s1 := if c.applied then fresh s else prepareLoom (fresh s) l
      let table := loomReadAcross (fresh s) (keyWho l) l ((rd s (loomKey l 0x488)).toNat / 64 * 64 + (rd s (loomKey l 0x48C)).toNat * 2 ^ 32) (64 * rdF s (loomKey l 0x490) 6 0)
      (c.posted = false → ((parkedBolt s1 l).any fun p => resumable s1 l p.2.1 p.2.2) = false → accessesServed (goStart (fresh s) l c) →
        ∃ t, exec (.loomQuiesced l) s = .next t ∧ loomSt t l = 2 ∧ (loomOf t l).executing = true ∧ (loomOf t l).cmds.map (fun x => (x.op, x.posted)) = [(2, true)] ∧
         (∃ v ∈ tget [] t.produced l, v.type = 0x30 ∧ v.srcType = 0x25 ∧ v.srcInst = BitVec.ofNat 16 l.val ∧ v.info0 = 2 ∧ v.info1 = 2) ∧
         (c.applied = false → (∀ r, within r 1 (ringBase s l) (lvF s l 0x114 18 0) = true → (ringOf t r).lost = false) ∧
           ∀ u b, table = (u, .ok b) → (loomOf t l).keys = (List.range (rdF s (loomKey l 0x490) 6 0)).map fun i => keyOf (slice b (64 * i) 64)) ∧
         t.mem = s.mem ∧ Frame (fun k => accessRegs k ∨ pageRegs (loomKey l 0) k) ([.looms, .rings, .cores, .entries] ++ accessParts) s t) ∧
      (c.posted = true → stateOwed s l = true → exec (.loomQuiesced l) s = .next (fresh s)) ∧
      (c.posted = true → stateOwed s l = false → ∃ t, exec (.loomQuiesced l) s = .next t ∧ answers t 2 0 ∧ loomSt t l = loomSt s l ∧ small t [.looms, .trip]))))

/-- R223, R262, R263, R268: a QUIESCE of a RUNNING loom makes it QUIESCING and executes; with DRAIN = 0 every bolt that is no step bolt is asked to stop; in other states it answers at once. While the part is at work, a loom that has come to rest is QUIESCED, its cores clock-gated, its spill engine still and LOOM_STATE raised; the command ends once that event is staged. -/
def Obligations.LoomQuiescence : Prop := ∀ (s : State) (l : LoomId),
  (let x := loomOf s l
   let answers := fun (t : State) (op code : Nat) => (loomOf t l).cmds = [] ∧ (loomOf t l).executing = false ∧ rdF t (loomKey l 0x104) 15 8 = code ∧ rdF t (loomKey l 0x104) 18 16 = op
   (∀ drain, (blkOf s (loomKey l 0)).resetting = false → s.power.s5 = false → x.cmds = [] → x.executing = false → ready s = true →
     (loomSt s l = 2 → ∃ t, exec (.loomQuiesce l drain) s = .next t ∧ loomSt t l = 3 ∧ (loomOf t l).cmds = [{ op := 3, drain := drain }] ∧ (loomOf t l).executing = true ∧
       (loomOf t l).noDrain = !drain ∧ rdF t (loomKey l 0x104) 3 0 = 1 ∧ fbit (rd t (loomKey l 0x104)) 4 = true ∧
       (drain = false → ∀ e ∈ t.entries, e.loom = l → e.phase = .running → isStep s e = false → ∀ b, e.bolt = some b → b.parked = true ∨ b.stop ∉ [.none, .halt]) ∧
       Frame (fun k => pageRegs (loomKey l 0) k) [.looms, .cores, .entries] s t) ∧
     ((loomSt s l ≠ 0 ∧ loomSt s l ≠ 2) → ∃ t, exec (.loomQuiesce l drain) s = .next t ∧ answers t 3 0 ∧ loomSt t l = loomSt s l ∧
       Frame (someRegs [loomKey l 0x104, loomKey l 0x108]) [.looms] s t) ∧
     (loomSt s l = 0 → ∃ t, exec (.loomQuiesce l drain) s = .next t ∧ answers t 3 1 ∧ loomSt t l = 0 ∧ Frame (someRegs [loomKey l 0x104, loomKey l 0x108]) [.looms] s t)) ∧
   (∀ c, atWork s → x.cmds = [c] → x.executing = true → c.op = 3 →
     (c.posted = false → loomSt s l = 3 → loomIdle (quiesceHold (fresh s) l) l = true → ∃ t, exec (.loomQuiesced l) s = .next t ∧ loomSt t l = 4 ∧
       (loomOf t l).cmds = [{ c with posted := true }] ∧ (loomOf t l).executing = true ∧ fbit (rd t (loomKey l 0x404)) 0 = false ∧
       (∀ d ∈ loomCores s l, rd s (coreKey d 0x38) = 0 → rd t (coreKey d 0x38) = 1) ∧
       (∃ v ∈ tget [] t.produced l, v.type = 0x30 ∧ v.srcType = 0x25 ∧ v.srcInst = BitVec.ofNat 16 l.val ∧ v.info0 = 4 ∧ v.info1 = 3) ∧
       Frame (fun k => pageRegs (loomKey l 0) k ∨ ∃ d, k = coreKey d 0x38) [.looms, .cores, .entries, .produced, .trip] s t) ∧
     (c.posted = false → loomIdle (quiesceHold (fresh s) l) l = false → ∃ t, exec (.loomQuiesced l) s = .next t ∧ loomSt t l = loomSt s l ∧ (loomOf t l).cmds = [c] ∧
       (loomOf t l).executing = true ∧ Frame (fun k => pageRegs (loomKey l 0) k) [.looms, .cores, .entries, .trip] s t) ∧
     (c.posted = true → stateOwed s l = true → exec (.loomQuiesced l) s = .next (fresh s)) ∧
     (c.posted = true → stateOwed s l = false → ∃ t, exec (.loomQuiesced l) s = .next t ∧ answers t 3 0 ∧ loomSt t l = loomSt s l ∧
       Frame (someRegs [loomKey l 0x104, loomKey l 0x108]) [.looms, .trip] s t)) ∧
   (s.power.s5 = false → x.executing = false → exec (.loomQuiesced l) s = .next (fresh s)) ∧
   (s.power.s5 = true → exec (.loomQuiesced l) s = .next s))

/-- R264, R265, R330: a DESTROY of a DESTROYED loom answers OK; of a RUNNING loom it first quiesces; it executes, and while the part is at work, once nothing of the loom is left to wait for, the loom is DESTROYED, its entries and events gone, its cores power-gated and their memories zero. An UPDATE that passes its checks takes the updatable settings over, one that fails answers the check's code, and one that takes coherent exports away waits for their lines first; it ends once the loom's older accesses have completed. -/
def Obligations.LoomDestroyUpdate : Prop := ∀ (s : State) (l : LoomId),
  (let answers := fun (t : State) (op code : Nat) => (loomOf t l).cmds = [] ∧ (loomOf t l).executing = false ∧ rdF t (loomKey l 0x104) 15 8 = code ∧ rdF t (loomKey l 0x104) 18 16 = op
   let small := fun (t : State) (ps : List Part) => Frame (someRegs [loomKey l 0x104, loomKey l 0x108]) ps s t
   let others := [Part.boot, .power, .spi, .knots, .knotQ, .scan, .admitSeq, .resp, .ceCounts]
   let K := fun k => accessRegs k ∨ pageRegs (loomKey l 0) k ∨ pageRegs (tapKey 0) k
   ((blkOf s (loomKey l 0)).resetting = false → s.power.s5 = false → (loomOf s l).cmds = [] → (loomOf s l).executing = false → ready s = true →
     (∀ scrub,
       (loomSt s l = 0 → ∃ t, exec (.loomDestroy l scrub) s = .next t ∧ answers t 4 0 ∧ loomSt t l = 0 ∧ small t [.looms]) ∧
       (loomSt s l = 2 → ∃ t, exec (.loomDestroy l scrub) s = .next t ∧ loomSt t l = 3 ∧ (loomOf t l).executing = true ∧ (loomOf t l).noDrain = true ∧
         Frame (fun k => pageRegs (loomKey l 0) k) [.looms, .cores, .entries] s t) ∧
       ((loomSt s l = 1 ∨ loomSt s l = 4) → ∃ t, exec (.loomDestroy l scrub) s = .next t ∧ (loomOf t l).executing = true ∧
         (loomOf t l).cmds = [{ op := 4, scrub := scrub }] ∧ loomSt t l = loomSt s l ∧ small t [.looms])) ∧
     (loomSt s l = 0 → ∃ t, exec (.loomUpdate l) s = .next t ∧ answers t 5 1 ∧ small t [.looms]) ∧
     (loomSt s l ≠ 0 → updateCheck s l ≠ 0 → ∃ t, exec (.loomUpdate l) s = .next t ∧ answers t 5 (updateCheck s l) ∧ small t [.looms]) ∧
     (loomSt s l ≠ 0 → updateCheck s l = 0 → removedLines s (cohRanges (lv s l)) (cohRanges (loomPage s l)) = [] →
       ∃ t, exec (.loomUpdate l) s = .next t ∧ (∀ o ∈ updatableOffs, lv t l o = rd s (loomKey l o)) ∧
         (∀ o, o < 0x1000 → o ∉ updatableOffs → lv t l o = lv s l o) ∧ (∀ m, m ≠ l.val → ∀ o, o < 0x1000 → lv t m o = lv s m o) ∧ loomSt t l = loomSt s l ∧
         (loomLines s l = [] → (∀ o ∈ s.router.out, o.msg.srcLoom.val ≠ l.val ∨ s.time.toNat < o.sentAt.toNat) → answers t 5 0 ∧ t.mem = s.mem ∧ t.host = s.host) ∧
         Frame K ([.live, .looms, .cores, .entries] ++ accessParts) s t) ∧
     (loomSt s l ≠ 0 → updateCheck s l = 0 → removedLines s (cohRanges (lv s l)) (cohRanges (loomPage s l)) ≠ [] →
       ∃ t, exec (.loomUpdate l) s = .next t ∧ t.live = s.live ∧ (loomOf t l).executing = true ∧ loomSt t l = loomSt s l ∧ Frame K (.looms :: accessParts) s t)) ∧
   (∀ c, atWork s → (loomOf s l).cmds = [c] → (loomOf s l).executing = true →
     (let g := goDestroy (fresh s) l c.scrub
      c.op = 4 → accessesServed g.1 →
        (g.2 = true → ∃ t, exec (.loomQuiesced l) s = .next t ∧ answers t 4 0 ∧ loomSt t l = 0 ∧
          (∀ e ∈ t.entries, e.loom ≠ l.val) ∧ ((loomOf s l).closed = false → ∀ p ∈ t.creel, p.2.loom ≠ l.val) ∧ tget [] t.produced l = [] ∧ (∀ o, o < 0x1000 → lv t l o = 0) ∧
          (∀ d ∈ loomCores s l, rd t (coreKey d 0x38) = 2 ∧ ∀ a, spAddr d 0 ≤ a → a < spAddr d 0 + 0x1C00000 → cget t.mem a = 0) ∧
          (∀ p ∈ others, p.same s t) ∧ t.fuse = s.fuse ∧ t.time = s.time ∧ t.pending = s.pending) ∧
        (g.2 = false → ∃ t, exec (.loomQuiesced l) s = .next t ∧ (loomOf t l).executing = true ∧ (loomOf t l).cmds = [c] ∧ loomSt t l = loomSt s l ∧
          (∀ p ∈ others, p.same s t) ∧ t.fuse = s.fuse ∧ t.time = s.time ∧ t.pending = s.pending)) ∧
     (c.op = 5 → c.applied = true → strayLines s l (lv s l) = [] →
       (olderDone s l c.since = true → ∃ t, exec (.loomQuiesced l) s = .next t ∧ answers t 5 0 ∧ small t [.looms, .trip]) ∧
       (olderDone s l c.since = false → exec (.loomQuiesced l) s = .next (fresh s)))))

-- ## Losing cores, DRAM in service, host access and the ledger (13, 18, 19)

/-- R65, R69, R417, R419, R423: a core that is lost keeps only the commits it has begun, leaves the available-core map, is power-gated and is reported, its round of events waiting for the re-map when a bolt uses it and going out at once when none does, and every bolt that runs on it stops at once; a parity fault of an array that the array checks also clears the accumulators and counts where it stood. A core already retired, and a fault that nothing reads, change nothing. -/
def Obligations.CoreRetirement : Prop := ∀ (s : State) (c : CoreId), eventsOpen s →
  (let lost := fun (t : State) (cls : FaultClass) (cause : Nat) =>
     (let r := localRep s 0x040 c cls 0x040 c (retireInfo c 0x1FF cause)
      (coreOf t c).retired = true ∧ (coreOf t c).stopped = true ∧ (∀ x ∈ (coreOf t c).slots, x.committing = true) ∧
      fbit (rd t (mbxKey (0x240 + c.val / 32 * 4))) (c.val % 32) = false ∧ rd t (coreKey c 0x38) = 2 ∧ fbit (rd t (coreKey c 0x10)) (classBit cls) = true ∧
      Reported s t r ∧
      (usersOf s c = [] → ∀ l ∈ (ownerOfPage s (coreKey c 0)).toList, loomSt s l ≠ 0 → ∃ v ∈ tget [] t.produced l, v.type = 0x200 ∧ v.info1 = r.info1) ∧
      (usersOf s c ≠ [] → ∃ e, tfind t.ledger (ledgerIndex s r) = some e ∧ r.info1 ∈ e.remaps) ∧
      (∀ p ∈ usersOf s c, p.2.parked = false → (∀ d ∈ boltCores p.2, (coreOf t d).stopped = true) ∧
        ∀ x ∈ t.entries, x.ring = p.1.ring → x.seq = p.1.seq → ∃ y, x.bolt = some y ∧ y.stop ∈ [.timeout, .failure, .quiesce, .lost]))
   let K := fun k => reportRegs k ∨ k = mbxKey (0x240 + c.val / 32 * 4) ∨ pageRegs (coreKey c 0) k ∨ ∃ l, k = loomKey l 0x4A8 ∨ k = loomKey l 0x4B4
   let ps := [.cores, .entries, .looms] ++ reportParts
   (∀ cause, (coreOf s c).retired = true → exec (.coreRetire c cause) s = .next s) ∧
   (∀ cause, (coreOf s c).retired = false → ∃ t, exec (.coreRetire c cause) s = .next t ∧
     lost t (if cause = .arrayParity then .parity else .ueSram) (retireCauseNum cause) ∧ Frame K ps s t) ∧
   (∀ acc col row bank accRow, (let found := parityAt s c acc col.toNat bank accRow.toNat
     let loc := if acc then col.toNat + 2 ^ 15 * b2n bank + 2 ^ 16 * accRow.toNat else col.toNat + 2 ^ 8 * row.toNat
     (found = false → exec (.arrayParityFault c acc col row bank accRow) s = .next s) ∧
     (found = true → (coreOf s c).retired = false → ∃ t, exec (.arrayParityFault c acc col row bank accRow) s = .next t ∧
       lost t .parity 1 ∧ fbit (rd t (coreKey c 0x1C4)) (b2n acc) = true ∧
       (rdF s (coreKey c 0x1C4) 1 0 = 0 → rd t (coreKey c 0x1C8) = BitVec.ofNat 32 loc) ∧
       (rdF s (coreKey c 0x1C4) 1 0 ≠ 0 → rd t (coreKey c 0x1C8) = rd s (coreKey c 0x1C8) ∧ fbit (rd t (coreKey c 0x1C4)) 2 = true) ∧
       (∀ a, spAddr c 0x1800000 ≤ a → a < spAddr c 0x1C00000 → cget t.mem a = 0) ∧ ScratchOnly s t c [(0x1800000, 0x400000)] ∧ Frame K (.mem :: ps) s t))))

/-- R92, R418, R419, R423, R431: while the part is at work, once a bolt of a lost core has stopped or is parked, the first spare that qualifies takes the core's rank and is listed among the loom's substitutions, and the round of events that waited goes out with it; a parked bolt, or one with a further core lost, stays as it stands, another resumes, repeats from its start, or ends REPEAT_UNSAFE; without such a spare it ends CORE_LOST and its ring is lost. -/
def Obligations.CoreRemap : Prop := ∀ (s : State) (c : CoreId), atWork s →
  (let waits := remapWaits s c
   let told := fun (t : State) (typ : BitVec 16) (i0 : Option Word64) (i1 : Word64) => ∀ l ∈ (ownerOfPage s (coreKey c 0)).toList, loomSt s l ≠ 0 →
     ∃ v ∈ tget [] t.produced l, v.type = typ ∧ v.info1 = i1 ∧ ∀ w, i0 = some w → v.info0 = w
   (((coreOf s c).retired = false ∨ (usersOf s c = [] ∧ waits = none) ∨ (usersOf s c ≠ [] ∧ (usersOf s c).find? (fun p => remapReady s p.2) = none)) →
     exec (.coreRemap c) s = .next (fresh s)) ∧
   (∀ i le w, (coreOf s c).retired = true → usersOf s c = [] → waits = some (i, le, w) → ∃ t, exec (.coreRemap c) s = .next t ∧ told t 0x200 none w ∧
     Frame reportRegs (.trip :: reportParts) s t) ∧
   (∀ e b i k g, (coreOf s c).retired = true → (usersOf s c).find? (fun p => remapReady s p.2) = some (e, b) → e.loom < 32 → stageOf b c = some (i, k, g) →
     (let F := fun (t : State) => Frame (fun k => accessRegs k ∨ cfgCmdRegs k ∨ k = 0x22108 ∨ (∃ l, pageRegs (loomKey l 0) k) ∨ ∃ d, pageRegs (coreKey d 0) k)
        ([.entries, .endSeq, .rings, .cores, .creel, .creelCache, .looms] ++ accessParts) s t
      let ends := fun (t : State) (st : Nat) => (∀ x ∈ t.entries, x.ring = e.ring → x.seq = e.seq → x.phase = .ended ∧ x.status = st) ∧ LoomStores s t e.loom [] c ∧ F t
      let s1 := remapRound (fresh s) c none (some e.id)
      (∀ sub n, pickSpare s e.loom g k = some sub → freeSubst s e.loom = some n → accessesServed (remapBolt (fresh s) c sub n i k g e b) →
        (let stages := setAt b.stages i { g with cores := setAt g.cores k sub, spares := g.spares.filter (· ≠ sub) }
         let more := hasRetired s { b with stages := stages }
         let listed := fun (t : State) => rd t (loomKey e.loom (0x500 + 4 * n)) = BitVec.ofNat 32 (c + sub * 2 ^ 9 + 2 ^ 31) ∧
           ∀ j le w, waits = some (j, le, w) → told t 0x200 none ((w &&& ~~~(0x3FE00 : Word64)) ||| BitVec.ofNat 64 (sub * 2 ^ 9))
         let takes := fun (t : State) => ∀ x ∈ t.entries, x.ring = e.ring → x.seq = e.seq → ∃ y, x.bolt = some y ∧ y.remapped = true ∧ y.stages = stages
         ((b.parked = true ∨ more = true) → ∃ t, exec (.coreRemap c) s = .next t ∧ listed t ∧ takes t ∧ t.mem = s.mem ∧ F t) ∧
         (b.parked = false → more = false → b.noRepeat = true → ∃ t, exec (.coreRemap c) s = .next t ∧ listed t ∧ ends t 5) ∧
         (b.parked = false → more = false → b.noRepeat = false → ∃ t, exec (.coreRemap c) s = .next t ∧ listed t ∧ takes t ∧
           (∀ d ∈ setAt g.cores k sub, (coreOf t d).bolt = some (e.ring, e.seq) ∧ (coreOf t d).slots = []) ∧
           (b.recovery = [] → t.mem = s.mem) ∧ (∀ a, a < 0x10000000000 → cget t.mem a = cget s.mem a) ∧ F t))) ∧
      ((pickSpare s e.loom g k = none ∨ freeSubst s e.loom = none) → accessesServed (finishBolt (setRing s1 e.ring { ringOf s1 e.ring with lost := true }) e b 6) →
        ∃ t, exec (.coreRemap c) s = .next t ∧ (ringOf t e.ring).lost = true ∧ (∀ j le w, waits = some (j, le, w) → told t 0x005 (some (BitVec.ofNat 64 c)) e.id) ∧ ends t 6))))

/-- R285, R286, R287, R290, R291, R299, R420: while no producer of events waits, a refresh counts on a trained stack; a patrol scrub or a read that finds an uncorrectable block marks and reports it, and aborts the reader's operation; a corrected one counts; a channel that has failed takes its stack out of service, and a stack that is trained anew counts its retrains. MODE 1 and 2 are taken on a stack that no loom's window touches and that is not stack 0 of a ready part, which then reads TEST; MODE 0 brings the stack back to its state before; MODE 3 and a mode that is not allowed leave MODE as it was; a rise of RUN clears the error counts, and a running test counts the mismatches it finds, saturating. -/
def Obligations.DramAndTestMode : Prop :=
  (∀ (s : State) (st : StackId), eventsOpen s →
    (let ueAt := fun (t : State) (a : Nat) (repT repI : Nat) => a / 64 ∈ t.badBlocks ∧
       rd t (drcKey (a / 0x2000000000) 0x10C) = rd s (drcKey (a / 0x2000000000) 0x10C) + 1 ∧
       rd t (drcKey (a / 0x2000000000) 0x110) = BitVec.ofNat 32 (a / 64 * 64 % 2 ^ 32 + 1) ∧
       rd t (drcKey (a / 0x2000000000) 0x114) = BitVec.ofNat 32 (a / 64 * 64 / 2 ^ 32) ∧
       Reported s t (localRep s 0x050 (a / 0x2000000000) .ueDram repT repI (a / 64 * 64))
     let live := (stackOf s st).trained = true ∧ (stackOf s st).selfRefresh = false ∧ stackSt s st ≠ 2
     let scrubs := fun (a : Nat) => fbit (rd s (drcKey st 0x118)) 0 = true ∧ stackSt s st = 1 ∧ (stackOf s st).selfRefresh = false ∧
       placeOf s a = .dram st (a % 0x2000000000)
     (live → ∃ t, exec (.dramRefresh st) s = .next t ∧ stackOf t st = { stackOf s st with refreshes := (stackOf s st).refreshes + 1 } ∧
       (∀ j, j ≠ st.val → stackOf t j = stackOf s j) ∧ Frame noReg [.stackTab] s t) ∧
     (¬ live → exec (.dramRefresh st) s = .next s) ∧
     (∀ a found, ¬ scrubs a → exec (.patrolScrub st a found) s = .next s) ∧
     (∀ a, scrubs a → badBlock s (a / 64) = false → exec (.patrolScrub st a .clean) s = .next s) ∧
     (∀ a, scrubs a → badBlock s (a / 64) = false → ∃ t, exec (.patrolScrub st a .corrected) s = .next t ∧ rd t (drcKey st 0x108) = rd s (drcKey st 0x108) + 1 ∧
       (fbit (rd s (drcKey st 0x110)) 0 = false → rd t (drcKey st 0x110) = BitVec.ofNat 32 (a / 64 * 64 % 2 ^ 32) ∧ rd t (drcKey st 0x114) = BitVec.ofNat 32 (a / 2 ^ 32)) ∧
       (fbit (rd s (drcKey st 0x110)) 0 = true → rd t (drcKey st 0x110) = rd s (drcKey st 0x110) ∧ rd t (drcKey st 0x114) = rd s (drcKey st 0x114)) ∧
       Frame accessRegs [.ceCounts] s t) ∧
     (∀ a found, scrubs a → (found = .uncorrectable ∨ badBlock s (a / 64) = true) → ∃ t, exec (.patrolScrub st a found) s = .next t ∧ ueAt t a 0x050 st ∧
       Frame accessRegs ([.badBlocks, .stackTab] ++ reportParts) s t) ∧
     (∀ a o i, placeOf s a = .dram i o → ∃ t, exec (.dramUe a none) s = .next t ∧ ueAt t a 0x050 i ∧ Frame accessRegs ([.badBlocks, .stackTab] ++ reportParts) s t) ∧
     (∀ a o i (c : CoreId), placeOf s a = .dram i o → ∃ t, exec (.dramUe a (some c)) s = .next t ∧ ueAt t a 0x040 c ∧
       (∀ x, issuedFresh s c (fun _ => true) = some x → Aborted s t c x) ∧ (issuedFresh s c (fun _ => true) = none → t.cores = s.cores) ∧
       Frame accessRegs ([.badBlocks, .stackTab, .cores, .router] ++ reportParts) s t) ∧
     (∀ a r, (∀ i o, placeOf s a ≠ .dram i o) → exec (.dramUe a r) s = .next s) ∧
     (∀ (ch : Fin 32) cause, (let due := (stackSt s st = 1 ∨ stackSt s st = 3) ∧
          (match cause with
           | .retrain => 3 ≤ tget 0 (stackOf s st).retrains ch.val
           | .uncorrectableCount => 16 ≤ (lastSecond s.time (tget [] (stackOf s st).ueTimes ch.val)).length)
       let info := st.val + ch.val * 8 + (match cause with
         | .retrain => 1
         | .uncorrectableCount => 2) * 256
       let r : FaultRep := { localRep s 0x050 st .ueDram 0x050 st info with stackLost := true }
       (¬ due → exec (.dramChannelFail st ch cause) s = .next s) ∧
       (due → ∃ t, exec (.dramChannelFail st ch cause) s = .next t ∧ stackSt t st = 2 ∧ Reported s t r ∧
         (∀ a, st.val * 0x2000000000 ≤ a → a < st.val * 0x2000000000 + 0x1800000000 → cget t.mem a = 0) ∧
         (∀ a, a < st.val * 0x2000000000 ∨ st.val * 0x2000000000 + 0x1800000000 ≤ a → cget t.mem a = cget s.mem a) ∧
         (∀ x ∈ t.badBlocks, x * 64 / 0x2000000000 ≠ st.val) ∧ (st.val = 0 → t.power.emDram = true) ∧ (st.val ≠ 0 → t.power = s.power) ∧
         (∀ l ∈ stackLooms s st, ∃ v ∈ tget [] t.produced l, v.type = 0x202 ∧ v.info1 = BitVec.ofNat 64 info) ∧
         Frame (fun k => reportRegs k ∨ k = drcKey st 0x100 ∨ k = pcmKey 0x110) ([.mem, .badBlocks, .power] ++ reportParts) s t))) ∧
     (∀ (ch : Fin 32) ok, (let n := tget 0 (stackOf s st).retrains ch.val
       ((stackSt s st ≠ 1 ∨ 3 ≤ n) → exec (.dramChannelRetrain st ch ok) s = .next s) ∧
       (stackSt s st = 1 → n < 3 → ∃ t, exec (.dramChannelRetrain st ch ok) s = .next t ∧ tget 0 (stackOf t st).retrains ch.val = (if ok then 0 else n + 1) ∧
         (∀ j, j ≠ ch.val → tget 0 (stackOf t st).retrains j = tget 0 (stackOf s st).retrains j) ∧ (∀ j, j ≠ st.val → stackOf t j = stackOf s j) ∧
         Frame noReg [.stackTab] s t))))) ∧
  (∀ (s : State) (st : StackId) (v : BitVec 4) found,
    (let m := v.toNat % 4
     let free := stackLooms s st = [] ∧ ¬ (st.val = 0 ∧ ready s = true)
     let K := fun k => pageRegs (drpKey st 0) k ∨ k = drcKey st 0x100
     let old := fun (ch : Nat) => if fbit (rd s (drpKey st 0x180)) 3 then rd s (drpKey st (0x200 + 4 * ch)) else 0
     (s.power.s5 = true → exec (.drpTestCtrlWrite st ⟨v, found⟩) s = .next s) ∧
     ((blkOf s (drpKey st 0)).resetting = true → s.power.s5 = false → exec (.drpTestCtrlWrite st ⟨v, found⟩) s = .next (keep s (accRefuse s (drpKey st 0 + 0x180) 2))) ∧
     ((blkOf s (drpKey st 0)).resetting = false → s.power.s5 = false → ∃ t, exec (.drpTestCtrlWrite st ⟨v, found⟩) s = .next t ∧
       ((m = 1 ∨ m = 2) → free → rdF t (drpKey st 0x180) 1 0 = m ∧ stackSt t st = 3 ∧ (stackSt s st ≠ 3 → (stackOf t st).before = stackSt s st)) ∧
       (m = 0 → rdF t (drpKey st 0x180) 1 0 = 0 ∧ stackSt t st = (if stackSt s st = 3 then (stackOf s st).before % 4 else stackSt s st)) ∧
       ((m = 3 ∨ (m ≠ 0 ∧ ¬ free)) → rdF t (drpKey st 0x180) 1 0 = rdF s (drpKey st 0x180) 1 0) ∧
       fbit (rd t (drpKey st 0x180)) 2 = v.getLsbD 2 ∧ fbit (rd t (drpKey st 0x180)) 3 = v.getLsbD 3 ∧
       (v.getLsbD 3 = true → found = [] → ∀ ch, ch < 32 → rd t (drpKey st (0x200 + 4 * ch)) = old ch) ∧
       (∀ ch d k, v.getLsbD 3 = true → (m = 1 ∨ m = 2) → free → found = [(ch, d, k)] → ch < 32 → rd t (drpKey st (0x200 + 4 * ch)) =
         BitVec.ofNat 32 (min 65535 (fld (old ch) 15 0 + d) + min 65535 (fld (old ch) 31 16 + k) * 65536)) ∧
       (∀ j, j ≠ st.val → stackOf t j = stackOf s j) ∧ Frame K [.stackTab] s t)))

/-- R281, R272, R402, R404, R406, R438, R439: an access through BAR4 is answered as unsupported before READY, and is counted when it is refused; a write waits for a read by PF0, from BAR0 or BAR4, which first brings the writes before it to memory in their order; a read behind no waiting write reads the stack's bytes once it is served; an access through the host window moves its bytes when the loom may make it and every segment it touches is valid, and posts its event when not. -/
def Obligations.HostAccess : Prop := ∀ s : State,
  (∀ off len, (let a := bar4Addr s off
     let open4 := bar4Reach s off len = true
     let at4 := open4 ∧ barOpen s = true ∧ atWork s ∧ s.posted = []
     let got := localRead (fresh s) pcieWho none a len
     (open4 → barOpen s = false → ∃ t, exec (.bar4Read off len) s = .next t ∧ t.resp = .unsupported ∧ Frame noReg [.resp] s t) ∧
     (¬ open4 → exec (.bar4Read off len) s = .next s) ∧
     (at4 → bar4Refused s a len = true → ∃ t, exec (.bar4Read off len) s = .next t ∧ t.resp = .unsupported ∧
       rd t 0x300108 = rd s 0x300108 + 1 ∧ Frame (someRegs [0x300108]) [.resp, .trip] s t) ∧
     (∀ u bs, at4 → bar4Refused s a len = false → got = (u, .ok bs) → accessesServed u → ∃ t, exec (.bar4Read off len) s = .next t ∧
       t.resp = .data bs ∧ bs = localRd s a len ∧ StoresOnly s t [] ∧ Frame accessRegs (.resp :: accessParts) s t) ∧
     (∀ u er, at4 → bar4Refused s a len = false → got = (u, .error er) → ∃ t, exec (.bar4Read off len) s = .next t ∧ t.resp = .unsupported ∧
       (∀ b, shutPlace s pcieWho a = false → (blocksOf a len).find? (badBlock s) = some b →
         Reported s t (localRep s 0x050 (b * 64 / 0x2000000000) .ueDram 0x080 0 (b * 64))) ∧
       Frame accessRegs ([.resp, .trip, .stackTab] ++ reportParts) s t))) ∧
  (∀ off (bs : List Byte), (let a := bar4Addr s off
     let open4 := bar4Reach s off bs.length = true ∧ barOpen s = true
     (¬ open4 → exec (.bar4Write off bs) s = .next s) ∧
     (open4 → bar4Refused s a bs.length = true → ∃ t, exec (.bar4Write off bs) s = .next t ∧ rd t 0x300108 = rd s 0x300108 + 1 ∧ Frame (someRegs [0x300108]) [] s t) ∧
     (open4 → bar4Refused s a bs.length = false → exec (.bar4Write off bs) s = .next { s with posted := s.posted ++ [(a, bs)] }))) ∧
  (∀ i, (i = .pcmTimeLoRead ∨ i = .tlmEnergyLoRead ∨ ∃ off len, i = .bar4Read off len ∧ bar4Reach s off len = true ∧ barOpen s = true) → atWork s → s.posted ≠ [] →
    accessesServed (landPosted (fresh s)) → ∃ u, exec i s = exec i u ∧ u.posted = [] ∧ atWork u ∧ StoresOnly s u (s.posted.map fun p => (p.1, p.2.length)) ∧
      (∀ a bs, s.posted = [(a, bs)] → holdsBytes s a = true → isTap a = false → shutPlace s pcieWho a = false → cgets u.mem a bs.length = bs) ∧
      Frame accessRegs (.posted :: accessParts) s u) ∧
  (∀ (l : LoomId) a o, atWork s → isTap a = false → placeOf s a = .hostWin o →
    (let stops := fun (t : State) (typ : BitVec 16) (info1 : Option Word64) => t.host = s.host ∧
       (loomSt s l ≠ 0 → ∃ v ∈ tget [] t.produced l, v.type = typ ∧ v.info0 = BitVec.ofNat 64 a ∧ ∀ w, info1 = some w → v.info1 = w) ∧ Frame accessRegs [.produced, .trip] s t
     let cut := fun (t : State) => Reported s t (localRep s 0x080 0 .host 0x080 0 a) ∧ t.host = s.host ∧ Frame accessRegs (.trip :: reportParts) s t
     let goes := fun (n : Nat) (w : Bool) => allowed s l a n w = true ∧ hostOk s o n = true
     (∀ n, (allowed s l a n false = false → ∃ t, exec (.hostWindowAccess l a (.read n)) s = .next t ∧ stops t 3 none) ∧
       (allowed s l a n false = true → hostOk s o n = false → ∃ t, exec (.hostWindowAccess l a (.read n)) s = .next t ∧ stops t 4 (some 0x10)) ∧
       (goes n false → s.boot.pcieUp = false → ∃ t, exec (.hostWindowAccess l a (.read n)) s = .next t ∧ cut t) ∧
       (goes n false → s.boot.pcieUp = true → blockClosed s .pcie = true → ∃ t, exec (.hostWindowAccess l a (.read n)) s = .next t ∧ stops t 4 (some 6)) ∧
       (goes n false → s.boot.pcieUp = true → blockClosed s .pcie = false → ∃ t, exec (.hostWindowAccess l a (.read n)) s = .next t ∧
         t.resp = .data (localRd s a n) ∧ t.hostFn = some (loomFn s l) ∧ Frame accessRegs [.resp, .hostFn, .trip] s t)) ∧
     (∀ bs : List Byte, (allowed s l a bs.length true = false → ∃ t, exec (.hostWindowAccess l a (.write bs)) s = .next t ∧ stops t 3 none) ∧
       (allowed s l a bs.length true = true → hostOk s o bs.length = false → ∃ t, exec (.hostWindowAccess l a (.write bs)) s = .next t ∧ stops t 4 (some 0x10)) ∧
       (goes bs.length true → s.boot.pcieUp = false → ∃ t, exec (.hostWindowAccess l a (.write bs)) s = .next t ∧ cut t) ∧
       (goes bs.length true → s.boot.pcieUp = true → blockClosed s .pcie = true → ∃ t, exec (.hostWindowAccess l a (.write bs)) s = .next t ∧ stops t 4 (some 6)) ∧
       (goes bs.length true → s.boot.pcieUp = true → blockClosed s .pcie = false → ∃ t, exec (.hostWindowAccess l a (.write bs)) s = .next t ∧
         (∀ i, i < bs.length → (∀ j, i < j → j < bs.length → hostAddr s (o + j) ≠ hostAddr s (o + i)) → cget t.host (hostAddr s (o + i)) = bs.getD i 0) ∧
         t.hostFn = some (loomFn s l) ∧ StoresOnly s t [(a, bs.length)] ∧ Frame accessRegs [.host, .hostFn, .trip] s t)))) ∧
  (∀ (l : LoomId) a acc, atWork s → (isTap a = true ∨ ∀ o, placeOf s a ≠ .hostWin o) → exec (.hostWindowAccess l a acc) s = .next (fresh s))

/-- R275, R415, R416, R422, R423, R424, R425, R426: while no producer of events waits, a report joins its suspect's entry, which counts it, or takes the lowest free entry and starts its round of events; a report of a lost memory entry of this part fails the creel entry, bolt, directory line or operation that it concerns; a holdoff ends with a repeat round when reports came meanwhile; an entry without a pending round ages out; an entry is released; corrected errors above the threshold in a second are reported. -/
def Obligations.FaultLedger : Prop := ∀ s : State, eventsOpen s →
  (∀ r, (let ix := ledgerIndex s r
    let n := r.info1.toNat / 2 ^ 32
    let loses := r.dev.toNat = ownDev s ∧ r.cls = .ueSram ∧ r.fromDev = none
    ∃ t, exec (.faultReport r) s = .next t ∧ Reported s t r ∧ (∀ j, j ≠ ix → tfind t.ledger j = tfind s.ledger j) ∧
    (∀ e, tfind s.ledger ix = some e → tfind t.ledger ix = some (ledgerJoin s e r) ∧ (¬ loses → Frame noReg [.ledger] s t)) ∧
    (tfind s.ledger ix = none → rd t (mbxKey 0x214) = rd s (mbxKey 0x214) + 1 ∧ ((tfind t.ledger ix).map LedgerEnt.count) = some 1 ∧
      ∀ typ, mcType (ownDev s) r = some typ → ∀ l ∈ entitled s r, loomSt s l ≠ 0 → ∃ v ∈ tget [] t.produced l, v.type = BitVec.ofNat 16 typ ∧ v.time = s.time) ∧
    (∀ e, loses → r.type = 0x022 → tfind s.creel n = some e → e.state < 5 → tfind t.creel n = some { e with state := 6 } ∧
      (loomSt s e.loom ≠ 0 → ∃ v ∈ tget [] t.produced e.loom, v.type = 0x21 ∧ v.info0 = e.reqTag ∧ v.info1 = BitVec.ofNat 64 (4 + n * 2 ^ 32))) ∧
    (∀ e, loses → r.type = 0x021 → headEntry s n = some e → entKind e = 1 → e.phase = .fetched → ∀ x ∈ t.entries, x.ring = e.ring → x.seq = e.seq → x.phase = .ended ∧ x.status = 4) ∧
    (loses → r.type = 0x061 → tfind t.coh.dir n = none) ∧
    (∀ x, loses → r.reporterType = 0x040 → r.type ≠ 0x040 → issuedFresh s r.reporterInst.toNat (fun _ => true) = some x → Aborted s t r.reporterInst.toNat x) ∧
    (¬ loses → Frame reportRegs reportParts s t) ∧
    Frame (fun k => reportRegs k ∨ k = 0x22108 ∨ ∃ l, k = loomKey l 0x4A8) ([.creel, .creelCache, .entries, .endSeq, .rings, .looms, .coh, .cores, .router] ++ reportParts) s t)) ∧
  (∀ i : LedgerId, (tfind s.ledger i = none → exec (.ledgerHoldoffEnd i) s = .next s ∧ exec (.ledgerAgeOut i) s = .next s) ∧
    (∀ e, tfind s.ledger i = some e →
      (let due := e.holding = true ∧ elapsedUs s.time e.eventTime (rdF s (mbxKey 0x200) 19 0) = true
       let old := rdF s (mbxKey 0x204) 15 0 ≠ 0 ∧ roundPending s e = false ∧ elapsedUs s.time e.last (rdF s (mbxKey 0x204) 15 0 * 1000) = true
       (¬ due → exec (.ledgerHoldoffEnd i) s = .next s) ∧
       (due → e.count = e.countAt → ∃ t, exec (.ledgerHoldoffEnd i) s = .next t ∧ tfind t.ledger i = some { e with holding := false } ∧
         (∀ j, j ≠ i.val → tfind t.ledger j = tfind s.ledger j) ∧ Frame noReg [.ledger] s t) ∧
       (due → e.count ≠ e.countAt → ∃ t, exec (.ledgerHoldoffEnd i) s = .next t ∧
         tfind t.ledger i = some { e with events := e.events + 1, eventTime := s.time, countAt := e.count, holding := true } ∧
         (∀ j, j ≠ i.val → tfind t.ledger j = tfind s.ledger j) ∧
         (∀ l ∈ entitled s (entryRep e), loomSt s l ≠ 0 → ∃ v ∈ tget [] t.produced l, v.type = 0x206 ∧ v.time = s.time ∧ v.info0 = mcInfo0 i e ∧
           v.info1 = BitVec.ofNat 64 (e.count + (e.count - e.countAt) * 2 ^ 32)) ∧ Frame (fun k => ∃ x, k = pbaKey 0 x) reportParts s t) ∧
       (¬ old → exec (.ledgerAgeOut i) s = .next s) ∧
       (old → ∃ t, exec (.ledgerAgeOut i) s = .next t ∧ tfind t.ledger i = none ∧ (∀ j, j ≠ i.val → tfind t.ledger j = tfind s.ledger j) ∧ Frame noReg [.ledger] s t))) ∧
    ∃ t, exec (.flRelease i) s = .next t ∧ tfind t.ledger i = none ∧ (∀ j, j ≠ i.val → tfind t.ledger j = tfind s.ledger j) ∧ Frame noReg [.ledger] s t) ∧
  (∀ b : Block, (let p := pageOf b
    let n := (lastSecond s.time (tget [] s.ceCounts p)).length
    let storm := rdF s (mbxKey 0x208) 23 0 < n
    (¬ storm → exec (.ceStorm b) s = .next s) ∧
    (storm → ∃ t, exec (.ceStorm b) s = .next t ∧ Reported s t (localRep s (codeOf b) (instOf b) .ceStorm (codeOf b) (instOf b) n) ∧
      tget [] t.ceCounts p = [] ∧ (∀ q, q ≠ p → tget [] t.ceCounts q = tget [] s.ceCounts q) ∧ Frame reportRegs (.ceCounts :: reportParts) s t)))

-- ## Weft ports, the Tapestry and coherence (14)

/-- R24, R301, R302, R304, R306, R307, R324: enabling a port trains its links afresh, or waits for a stop in progress; disabling it lets links that carry traffic stop and turns the others off, its transmitters idle once none is left; S5 loses both writes. While no producer of events waits, a link that trains whole comes up with its neighbour's word, and with LINK_UP after a LINK_DOWN or LINK_DEGRADED; one that retrains or was degraded comes up DEGRADED on a good half; one that fails to train goes DOWN, and trains again after 100 ms. -/
def Obligations.WeftPorts : Prop := ∀ s : State,
  (∀ p : WeftId, (let en := portEn s p = true
     let busy := portStops s p = true
     let K := someRegs [wfpKey p 0x100, wfpKey p 0x104]
     (s.power.s5 = true → exec (.weftPortEnable p) s = .next s ∧ exec (.weftPortDisable p) s = .next s) ∧
     ((blkOf s (wfpKey p 0)).resetting = true → s.power.s5 = false → exec (.weftPortEnable p) s = .next (keep s (accRefuse s (wfpKey p 0 + 0x100) 2)) ∧
       exec (.weftPortDisable p) s = .next (keep s (accRefuse s (wfpKey p 0 + 0x100) 2))) ∧
     ((blkOf s (wfpKey p 0)).resetting = false → s.power.s5 = false →
       (en → exec (.weftPortEnable p) s = .next s) ∧
       (¬ en → ¬ busy → ∃ t, exec (.weftPortEnable p) s = .next t ∧ portEn t p = true ∧ t.board.wfIdle.getLsbD p = false ∧
         (∀ k ∈ portLinks s p, linkState t k = 1 ∧ (linkOf t k).credits = freshCredits (wideLink s k) ∧ (linkOf t k).txSeq = 0 ∧ (linkOf t k).rxSeq = 0 ∧
           (linkOf t k).replay = [] ∧ (linkOf t k).badLanes = 0 ∧ (linkOf t k).deg = false) ∧
         (∀ k, k / 2 ≠ p.val → linkOf t k = linkOf s k) ∧ Frame K [.links, .board] s t) ∧
       (¬ en → busy → ∃ t, exec (.weftPortEnable p) s = .next t ∧ portEn t p = true ∧ (∀ k ∈ portLinks s p, (linkOf t k).enWait = true ∧ linkState t k = linkState s k) ∧
         (∀ k, k / 2 ≠ p.val → linkOf t k = linkOf s k) ∧ Frame (someRegs [wfpKey p 0x100]) [.links] s t) ∧
       (¬ en → exec (.weftPortDisable p) s = .next s) ∧
       (en → ∃ t, exec (.weftPortDisable p) s = .next t ∧ portEn t p = false ∧
         (∀ k ∈ portLinks s p, linkState t k = (if linkWorks s k = true ∨ linkState s k = 5 then 5 else 0) ∧ (linkWorks s k = true → (linkOf t k).downAt = s.time)) ∧
         ((∀ k ∈ portLinks s p, linkWorks s k = false ∧ linkState s k ≠ 5) → t.board.wfIdle.getLsbD p = true) ∧
         (∀ k, k / 2 ≠ p.val → linkOf t k = linkOf s k) ∧ Frame K [.links, .board] s t)))) ∧
  (∀ (k : LinkId) rep, eventsOpen s → (let x := linkOf s k
     let full := ∀ n ∈ linkLanes s k, rep.lanes.getLsbD n = true
     let half := rep.peerMatches = true ∧ (goodHalf x rep).isSome = true
     let nbr := fun (t : State) (up : Bool) => rd t (wfpKey (k.val / 2) (0x108 + 4 * (k.val % 2))) = nbrWord rep up
     let K := fun r => reportRegs r ∨ pageRegs (wfpKey (k.val / 2) 0) r
     (linkState s k ≠ 1 → exec (.linkTrained k rep) s = .next s) ∧
     (linkState s k = 1 → x.retrain = false → x.deg = false → rep.peerMatches = true → full → ∃ t, exec (.linkTrained k rep) s = .next t ∧ linkState t k = 2 ∧ nbr t true ∧
       (∀ c, x.lost = some c → (linkOf t k).lost = none ∧ Reported s t (localRep s 0x060 (k.val / 2) .link 0x060 (k.val / 2) c) ∧
         ∀ l ∈ linkLooms s k, ∃ v ∈ tget [] t.produced l, v.type = 0x52 ∧ v.info0 = BitVec.ofNat 64 k.val ∧ v.info1 = BitVec.ofNat 64 c) ∧
       (x.lost = none → t.produced = s.produced) ∧ (∀ j, j ≠ k.val → linkOf t j = linkOf s j) ∧ Frame K (.links :: reportParts) s t) ∧
     (linkState s k = 1 → x.retrain = false → (x.deg = true → ¬ half) → (x.deg = false → ¬ (rep.peerMatches = true ∧ full)) → ∃ t, exec (.linkTrained k rep) s = .next t ∧
       linkState t k = 4 ∧ nbr t false ∧ (linkOf t k).downAt = s.time ∧ (∀ j, j ≠ k.val → linkOf t j = linkOf s j) ∧ Frame K [.links] s t) ∧
     (linkState s k = 1 → (x.retrain = true ∨ x.deg = true) → half → ∃ t, exec (.linkTrained k rep) s = .next t ∧ linkState t k = 3 ∧ nbr t true ∧
       (linkOf t k).lost = some 0 ∧ (linkOf t k).deg = true ∧ (∀ l ∈ linkLooms s k, ∃ v ∈ tget [] t.produced l, v.type = 0x51 ∧ v.info0 = BitVec.ofNat 64 k.val) ∧
       Reported s t (localRep s 0x060 (k.val / 2) .link 0x060 (k.val / 2) 0) ∧ (∀ j, j ≠ k.val → linkOf t j = linkOf s j) ∧ Frame K (.links :: reportParts) s t))) ∧
  (∀ k : LinkId, (let due := linkState s k = 4 ∧ s.power.s5 = false ∧ portEn s (k.val / 2) = true ∧ elapsedUs s.time (linkOf s k).downAt 100000 = true
     (¬ due → exec (.linkTrainRetry k) s = .next s) ∧
     (due → ∃ t, exec (.linkTrainRetry k) s = .next t ∧ linkState t k = 1 ∧ (linkOf t k).credits = freshCredits (wideLink s k) ∧ (linkOf t k).badLanes = 0 ∧
       (linkOf t k).txSeq = 0 ∧ (linkOf t k).rxSeq = 0 ∧ (linkOf t k).replay = [] ∧ t.board.wfIdle.getLsbD (k.val / 2) = false ∧
       (∀ j, j ≠ k.val → linkOf t j = linkOf s j) ∧ Frame (someRegs [wfpKey (k.val / 2) 0x104]) [.links, .board] s t)))

/-- R303, R304, R305, R306, R307, R322, R324, R421: a flit in its order is taken, acknowledges, and has its credit returned; a CTRL flit returns credits; one out of order is answered with one NAK, one whose CRC fails with a NAK; a NAK replays, and while no producer of events waits the sixteenth in succession takes the link down; a failed lane retrains an 8-lane link on its other half or takes the link down; a link that goes down abandons its flits, posts LINK_DOWN and is reported. -/
def Obligations.WeftLinks : Prop := ∀ s : State, eventsOpen s →
  (let K := fun p r => fabricRegs r ∨ pageRegs (wfpKey p 0) r
   let down := fun (t : State) (k cause : Nat) =>
     (let waits := portEn s (k / 2) = true ∧ (∀ j ∈ portLinks s (k / 2), j ≠ k → linkState s j ≠ 5) ∧ ∃ j ∈ portLinks s (k / 2), (linkOf s j).enWait = true
      (waits → k ∈ portLinks s (k / 2) → linkState t k = 1) ∧
      (¬ waits → linkState t k = (if portEn s (k / 2) = true ∧ (linkOf s k).enWait = false then 4 else 0)) ∧
      (linkOf t k).replay = [] ∧ (linkOf t k).waitq = [] ∧ (linkOf t k).part = [] ∧ (linkOf t k).lost = some cause ∧
      Reported s t (localRep s 0x060 (k / 2) .link 0x060 (k / 2) cause) ∧
      (∀ l ∈ linkLooms s k, ∃ v ∈ tget [] t.produced l, v.type = 0x50 ∧ v.srcType = 0x060 ∧ v.info0 = BitVec.ofNat 64 k ∧ v.info1 = BitVec.ofNat 64 cause) ∧
      Frame (K (k / 2)) ([.links, .board] ++ fabricParts) s t)
   (∀ (k : LinkId) cause, (let x := linkOf s k
      let holds := match cause with
        | .lanesLost => linkWorks s k = true
        | .peerStopped => linkWorks s k = true
        | .retrainFailed => linkState s k = 1 ∧ x.retrain = true
        | .replayLimit => linkWorks s k = true ∧ 16 ≤ x.nakRun
        | .enCleared => linkState s k = 5 ∧ ((x.replay = [] ∧ x.waitq = []) ∨ elapsedUs s.time x.downAt 10 = true)
      (¬ holds → exec (.linkDown k cause) s = .next s) ∧ (holds → ∃ t, exec (.linkDown k cause) s = .next t ∧ down t k (causeNum cause)))) ∧
   (∀ (k : LinkId) rep, linkState s k = 1 → (linkOf s k).retrain = true → ¬ (rep.peerMatches = true ∧ (goodHalf (linkOf s k) rep).isSome = true) →
     ∃ t, exec (.linkTrained k rep) s = .next t ∧ rd t (wfpKey (k.val / 2) (0x108 + 4 * (k.val % 2))) = nbrWord rep false ∧ down t k 1) ∧
   (∀ (p : WeftId) (lane : Fin 8), (let k := if portSplit s p = true ∧ 4 ≤ lane.val then 2 * p.val + 1 else 2 * p.val
      let x := linkOf s k
      let bad := x.badLanes ||| (1#8 <<< lane.val)
      let runs := linkWorks s k = true
      let dead := wideLink s k = false ∨ (halfGood bad 0 = false ∧ halfGood bad 1 = false)
      let spare := halfGood x.badLanes (lane.val / 4) = false
      (¬ runs → ∃ t, exec (.laneFail p lane) s = .next t ∧ fbit (rd t (wfpKey p 0x104)) (8 + lane.val) = false ∧ Frame (someRegs [wfpKey p 0x104]) [] s t) ∧
      (runs → dead → ∃ t, exec (.laneFail p lane) s = .next t ∧ down t k (if wideLink s k = true ∧ x.retrain = true then 1 else 0)) ∧
      (runs → ¬ dead → ∃ t, exec (.laneFail p lane) s = .next t ∧ (linkOf t k).badLanes = bad ∧ fbit (rd t (wfpKey p 0x104)) (8 + lane.val) = false ∧
        (spare → linkState t k = linkState s k) ∧ (¬ spare → linkState t k = 1 ∧ (linkOf t k).retrain = true) ∧
        (∀ j, j ≠ k → linkOf t j = linkOf s j) ∧ Frame (someRegs [wfpKey p 0x104]) [.links] s t))) ∧
   (∀ (k : LinkId) f (co un : BitVec 8), (let p := k.val / 2
      let x := linkOf s k
      let y := takeAck x f.ack
      let flows := linkFlows s k = true
      let good := f.crc = Config.crc32 (flitBytes f)
      let carries := f.kind = 1 ∨ f.kind = 2
      let counted := fun (t : State) (bad : Nat) => rd t (wfpKey p 0x110) = rd s (wfpKey p 0x110) + BitVec.ofNat 32 co.toNat ∧
        rd t (wfpKey p 0x114) = rd s (wfpKey p 0x114) + BitVec.ofNat 32 un.toNat ∧ rd t (wfpKey p 0x118) = rd s (wfpKey p 0x118) + BitVec.ofNat 32 bad ∧
        (∀ j, j ≠ k.val → linkOf t j = linkOf s j) ∧ Frame (someRegs [wfpKey p 0x110, wfpKey p 0x114, wfpKey p 0x118]) [.links, .router] s t
      let bytes := (if f.kind = 1 then [] else tget [] x.part f.vc.toNat) ++ slice f.payload 0 56
      let nak := fun (z : Link) => { z with naks := z.naks ++ [z.rxSeq], nakOpen := true }
      (¬ flows → exec (.flitReceive k f co un) s = .next s) ∧
      (flows → good → ¬ carries → ∃ t, exec (.flitReceive k f co un) s = .next t ∧ linkOf t k = (if f.kind = 3 then takeCredits y f.payload else y) ∧ t.router = s.router ∧ counted t 0) ∧
      (flows → ¬ good → ∃ t, exec (.flitReceive k f co un) s = .next t ∧ linkOf t k = (if f.kind = 0 ∨ f.kind = 3 then x else nak x) ∧ t.router = s.router ∧ counted t 1) ∧
      (flows → good → carries → f.seq ≠ x.rxSeq → ∃ t, exec (.flitReceive k f co un) s = .next t ∧ linkOf t k = (if x.nakOpen then y else nak y) ∧ t.router = s.router ∧ counted t 0) ∧
      (flows → good → carries → f.seq = x.rxSeq → ∃ t, exec (.flitReceive k f co un) s = .next t ∧ (linkOf t k).rxSeq = x.rxSeq + 1 ∧ (linkOf t k).nakOpen = false ∧
        (linkOf t k).replay = y.replay ∧ (linkOf t k).credits = y.credits ∧ (linkOf t k).rets = (returnCredit x f.vc.toNat).rets ∧
        (32 + dataLen bytes ≤ bytes.length → t.router = { s.router with inbox := s.router.inbox ++ [bytes.take (32 + dataLen bytes)] } ∧
          tget [] (linkOf t k).part f.vc.toNat = []) ∧
        (bytes.length < 32 + dataLen bytes → t.router = s.router ∧ tget [] (linkOf t k).part f.vc.toNat = bytes) ∧ counted t 0))) ∧
   (∀ (k : LinkId) seq, (let y := takeAck (linkOf s k) (seq - 1)
      let known := linkFlows s k = true ∧ ∃ f ∈ (linkOf s k).replay, f.seq = seq
      let run := if y.nakRun ≠ 0 ∧ y.nakSeq = seq then y.nakRun + 1 else 1
      (¬ known → exec (.flitNak k seq) s = .next s) ∧
      (known → run < 16 → ∃ t, exec (.flitNak k seq) s = .next t ∧ linkOf t k = { y with nakSeq := seq, nakRun := run } ∧
        rd t (wfpKey (k.val / 2) 0x11C) = rd s (wfpKey (k.val / 2) 0x11C) + 1 ∧ (∀ j, j ≠ k.val → linkOf t j = linkOf s j) ∧
        Frame (someRegs [wfpKey (k.val / 2) 0x11C]) [.links] s t) ∧
      (known → 16 ≤ run → ∃ t, exec (.flitNak k seq) s = .next t ∧ down t k 2))))

/-- R309, R310, R311, R312, R313, R315, R317, R322, R393, R405, while no producer of events waits: a request for another device has no effect here, nor has one at S5; one that a reset or an unready part turns away is answered; one ahead of its order asks for a RESEND, one behind it is answered again unless it is still being applied; a malformed one gets BAD_REQUEST, one without a grant is counted, recorded, reported and refused, one to a hole or an absent stack gets NO_TARGET; a row that a message does not belong to has no effect. A message for another device is forwarded on its route, or answered UNREACHABLE. How a duplicate EVICT is answered is log entry 52. -/
def Obligations.TapestryArrivals : Prop := ∀ (s : State) (m : TapMsg), eventsOpen s →
  (let ans := fun (t : State) (st : Nat) => Sent s t (rspTo s m st [])
   let small := fun (t : State) => Frame noReg [.router, .links, .trip] s t
   let still := fun (i : Instr) => ∃ t, exec i s = .next t ∧ Frame noReg [.trip] s t
   (∀ i ∈ [Instr.tapestryRequest m, .knotSignal m, .copy m, .readShared m, .readOwn m, .evict m], servedBy m ≠ some i → still i) ∧
   (∀ i, servedBy m = some i →
     ((m.dstDev.toNat ≠ ownDev s ∨ s.power.s5 = true) → still i) ∧
     (m.dstDev.toNat = ownDev s → s.power.s5 = false →
       (∀ st, inboundBar s m = some st → ∃ t, exec i s = .next t ∧ ans t st ∧ small t) ∧
       (inboundBar s m = none → seqPlace s m = .ahead → ∃ t, exec i s = .next t ∧ Sent s t { rspTo s m 0 [] with op := .resend, seq := rxSeqOf s m } ∧ small t) ∧
       (inboundBar s m = none → seqPlace s m = .behind → stillRuns s m = true → still i) ∧
       (inboundBar s m = none → seqPlace s m = .behind → stillRuns s m = false → ∃ t, exec i s = .next t ∧ small t ∧ (m.op = .write → ans t 0) ∧
         (m.op = .evict → Sent s t { rspTo s m 0 [] with op := .evictAck }) ∧
         (m.op = .atomic ∨ m.op = .knotSignal ∨ m.op = .copy → (let old := s.router.recent.find? fun r => decide (r.src = m.srcDev.toNat) && decide (r.vc = vcOf m) && decide (r.seq = m.seq)
           (old = none → ans t 8) ∧ ∀ r, old = some r → Sent s t r.rsp)))) ∧
     (inTurn s m → (let win := expFor s m.srcDev.toNat m.srcLoom.val m.addr.toNat (spanOf m) (rightOf m) (decide (vcOf m = 2))
       let r : FaultRep := { dev := m.srcDev, type := 0, inst := 0, cls := .other, fromDev := none, reporterType := 0x061, reporterInst := 0, info1 := 0 }
       (badReq s m = true → ∃ t, exec i s = .next t ∧ ans t 7 ∧ small t) ∧
       (badReq s m = false → win.1 = none → ∃ t, exec i s = .next t ∧ ans t 1 ∧ rd t (tapKey 0x120) = rd s (tapKey 0x120) + 1 ∧
         rd t (tapKey 0x128) = BitVec.ofNat 32 (m.srcDev.toNat + m.srcLoom.val * 2 ^ 16) ∧ Reported s t r ∧
         (∀ l more, byteOwners s m.addr.toNat = l :: more → ledgerMatch s r = none → ∃ v ∈ tget [] t.produced l, v.type = 3 ∧ v.srcType = 0x061 ∧ v.info0 = m.addr.setWidth 64) ∧
         Frame (fun k => reportRegs k ∨ k = tapKey 0x120 ∨ k = tapKey 0x128 ∨ ∃ l, k = loomKey l 0x30) ([.router, .links, .trip] ++ reportParts) s t) ∧
       (badReq s m = false → win.1 ≠ none → (placeOf s m.addr.toNat = .hole ∨ ∃ st o, placeOf s m.addr.toNat = .dram st o ∧ stackOut s st = true) →
         ∃ t, exec i s = .next t ∧ ans t 2 ∧ rd t (tapKey 0x30) = rd s (tapKey 0x30) + (if 1 < win.2 then 1 else 0) ∧ Frame (someRegs [tapKey 0x30]) [.router, .links, .trip] s t)))) ∧
   (let next := { m with hops := m.hops + 1 }
    let lost := ready s = false ∨ devValid s = false ∨ 15 < m.hops + 1 ∨ linkFor s next = none
    ((m.dstDev.toNat = ownDev s ∨ s.power.s5 = true) → exec (.tapestryForward m) s = .next s) ∧
    (m.dstDev.toNat ≠ ownDev s → s.power.s5 = false →
      (lost → vcOf m = 1 → exec (.tapestryForward m) s = .next s) ∧
      (lost → vcOf m ≠ 1 → ∃ t, exec (.tapestryForward m) s = .next t ∧ Sent s t { rspTo s m 4 [] with srcDev := m.dstDev } ∧ small t) ∧
      (∀ k, ¬ lost → linkFor s next = some k → ∃ t, exec (.tapestryForward m) s = .next t ∧ t.router = { s.router with sent := s.router.sent ++ [(next, k)] } ∧
        linkOf t k = pumpLink { linkOf s k with waitq := (linkOf s k).waitq ++ flitsOf next } ∧
        (∀ j, j ≠ k → linkOf t j = linkOf s j) ∧ small t))))

/-- R195, R284, R286, R313, R315, R322, R323, while no producer of events waits: a granted READ is answered with its bytes once it is served, a WRITE and an ATOMIC change memory as one access and are answered, a KNOT_SIGNAL is queued at the knots, a COPY sends its pieces to its destination one after another. A response completes the request its TAG names: a unit's answer is kept for it, a KNOT's slot counts it, a failed one aborts the operation, gives up an evicted line or is left for the access that wants the line, or ends the COPY; a RESEND sends the ordered requests again; a request that is not answered in time is sent once more, then fails with TIMEOUT. At S5 none of these happens. -/
def Obligations.TapestryAccesses : Prop := ∀ s : State, eventsOpen s →
  (let inMem := fun (a : Nat) => (∃ st o, placeOf s a = .dram st o) ∨ (∃ r o, placeOf s a = .pool r o) ∨ ∃ c o, placeOf s a = .scratch c o
   let spoilt := fun (a n : Nat) => (∃ st o, placeOf s a = .dram st o) ∧ (blocksOf a n).find? (badBlock s) ≠ none
   let route := fun (d : Nat) => d = ownDev s ∨ routeSet s d ≠ []
   let piece := fun (m : TapMsg) (off : Nat) => min (m.len - off) (4096 - ((copyDst m).2 + off) % 4096)
   let copied := fun (t : State) (m : TapMsg) (l off : Nat) => SentTo s t (BitVec.ofNat 14 (copyDst m).1) (fun w => w.op = .write ∧ w.len = piece m off ∧
       w.addr = BitVec.ofNat 42 ((copyDst m).2 + off) ∧ w.data = localRd s (m.addr.toNat + off) (piece m off)) ∧
     (∃ o ∈ t.router.out, o.origin = .copyPart m (off + piece m off) l ∧ o.msg.op = .write ∧ o.sentAt = s.time)
   (∀ (m : TapMsg) l, grantedBy s m l →
     (let a := m.addr.toNat
      let moved := fun (t : State) => rxSeqOf t m = m.seq + 1
      let F := fun t => Frame (fun k => accessRegs k ∨ k = tapKey 0x30) accessParts s t
      let does := fun (f : State → Nat → State) => accessesServed (arrive (fresh s) m fun t => granted t m f)
      (m.op = .read → inMem a → ¬ spoilt a m.len → does (applyReq m) → ∃ t, exec (.tapestryRequest m) s = .next t ∧ Sent s t (rspTo s m 0 (localRd s a m.len)) ∧ StoresOnly s t [] ∧ F t) ∧
      (m.op = .read → spoilt a m.len → ∃ t, exec (.tapestryRequest m) s = .next t ∧ Sent s t (rspTo s m 3 []) ∧ t.mem = s.mem ∧ F t) ∧
      (m.op = .write → inMem a → does (applyReq m) → ∃ t, exec (.tapestryRequest m) s = .next t ∧ cgets t.mem a m.len = slice m.data 0 m.len ∧ Sent s t (rspTo s m 0 []) ∧ moved t ∧
        (∃ x ∈ t.router.recent, x.src = m.srcDev.toNat ∧ x.vc = vcOf m ∧ x.seq = m.seq ∧ x.rsp = rspTo s m 0 []) ∧ StoresOnly s t [(a, m.len)] ∧ F t) ∧
      (m.op = .atomic → m.coh = false → spoilt a m.len → ∃ t, exec (.tapestryRequest m) s = .next t ∧ Sent s t (rspTo s m 3 []) ∧ moved t ∧ t.mem = s.mem ∧ F t) ∧
      (m.op = .atomic → m.coh = false → ¬ spoilt a m.len → does (applyReq m) → (let old := localRd s a m.len
        ∃ t, exec (.tapestryRequest m) s = .next t ∧ Sent s t (rspTo s m 0 old) ∧ moved t ∧
          cgets t.mem a m.len = toLe m.len (atomicNew m.aop (8 * m.len) (leNat old) (leNat (m.data.take m.len)) m.extra.toNat) ∧ StoresOnly s t [(a, m.len)] ∧ F t)) ∧
      (m.op = .knotSignal → ∃ t, exec (.knotSignal m) s = .next t ∧
        t.knotQ = s.knotQ ++ [{ idx := signalKnot m, set := m.kopSet, value := BitVec.ofNat 64 (leNat (m.data.take 8)), src := some m }] ∧ moved t ∧
        Frame (someRegs [tapKey 0x30]) [.router, .knotQ] s t) ∧
      (m.op = .copy → (let go := does fun u l => copyNext u m l 0
         (inMem a → ¬ spoilt a (piece m 0) → route (copyDst m).1 → go → ∃ t, exec (.copy m) s = .next t ∧ copied t m l 0 ∧ moved t ∧ StoresOnly s t [] ∧ F t) ∧
         (inMem a → ¬ spoilt a (piece m 0) → ¬ route (copyDst m).1 → go → ∃ t, exec (.copy m) s = .next t ∧ Sent s t (rspTo s m 4 []) ∧ moved t ∧ StoresOnly s t [] ∧ F t) ∧
         (spoilt a (piece m 0) → ∃ t, exec (.copy m) s = .next t ∧ Sent s t (rspTo s m 3 []) ∧ moved t ∧ t.mem = s.mem ∧ F t))))) ∧
   (∀ (m : TapMsg), (s.power.s5 = true → exec (.tapestryResponse m) s = .next s) ∧ (∃ t, exec (.tapestryResponse m) s = .next t ∧ Frame fabricRegs fabricParts s t) ∧
     (s.power.s5 = false → s.coll.runs = [] →
      (let gone := fun (t : State) => ∀ x ∈ t.router.out, x.msg.tag ≠ m.tag ∨ isGrant x = true
       ((m.op ≠ .rsp ∨ outTag s m.tag = none ∨ ∃ o, outTag s m.tag = some o ∧ o.msg.dstDev ≠ m.srcDev) → exec (.tapestryResponse m) s = .next (fresh s)) ∧
       (∀ o, m.op = .rsp → outTag s m.tag = some o → o.msg.dstDev = m.srcDev →
         (∀ w l a n wr, o.origin = .unit w l a n wr → ∃ t, exec (.tapestryResponse m) s = .next t ∧ gone t ∧
           t.router.replies = s.router.replies ++ [{ who := w, loom := l, addr := a, len := n, write := wr, status := m.status.toNat, code := tapCode m.status.toNat, data := m.data }] ∧
           Frame noReg [.router, .trip] s t) ∧
         (∀ line, o.origin = .coherent line → m.status = 0 → exec (.tapestryResponse m) s = .next (fresh s)) ∧
         (∀ line, o.origin = .coherent line → m.status ≠ 0 → ∃ t, exec (.tapestryResponse m) s = .next t ∧ gone t ∧
           (∀ x, tfind s.coh.lines line = some x → x.evicting = true → tfind t.coh.lines line = none) ∧
           (∀ x, tfind s.coh.lines line = some x → x.evicting = false →
             tfind t.coh.lines line = some { x with want := none, put := none, fail := some (m.status.toNat, tapCode m.status.toNat) }) ∧
           (∀ j, j ≠ line → tfind t.coh.lines j = tfind s.coh.lines j) ∧ Frame noReg [.router, .coh, .trip] s t) ∧
         (∀ c i, o.origin = .op c i → (coreOf s c).slots.find? (fun x => decide (x.idx = i)) = none → ∃ t, exec (.tapestryResponse m) s = .next t ∧ gone t ∧
           Frame noReg [.router, .trip] s t) ∧
         (∀ c i x, o.origin = .op c i → (coreOf s c).slots.find? (fun x => decide (x.idx = i)) = some x → m.status = 0 → ∃ t, exec (.tapestryResponse m) s = .next t ∧ gone t ∧
           (∃ y ∈ (coreOf t c).slots, y = { x with waiting := x.waiting - 1 }) ∧ (∀ d, d ≠ c → coreOf t d = coreOf s d) ∧ Frame noReg [.router, .cores, .trip] s t) ∧
         (∀ c i x, o.origin = .op c i → (coreOf s c).slots.find? (fun x => decide (x.idx = i)) = some x → m.status ≠ 0 → ∃ t, exec (.tapestryResponse m) s = .next t ∧ gone t ∧
           Aborted s t c x ∧ Frame noReg [.router, .cores, .produced, .trip] s t) ∧
         (∀ x off l, o.origin = .copyPart x off l → m.status ≠ 0 → ∃ t, exec (.tapestryResponse m) s = .next t ∧ gone t ∧ Sent s t (rspTo s x m.status.toNat []) ∧
           Frame noReg [.router, .links, .trip] s t) ∧
         (∀ x off l, o.origin = .copyPart x off l → m.status = 0 → x.len ≤ off → ∃ t, exec (.tapestryResponse m) s = .next t ∧ gone t ∧ Sent s t (rspTo s x 0 []) ∧
           Frame noReg [.router, .links, .trip] s t) ∧
         (∀ x off l, o.origin = .copyPart x off l → m.status = 0 → off < x.len → inMem (x.addr.toNat + off) → ¬ spoilt (x.addr.toNat + off) (piece x off) →
           shutPlace s ⟨0x061, 0, 0⟩ (x.addr.toNat + off) = false → route (copyDst x).1 → accessesServed (copyNext (dropOut (fresh s) m.tag) x l off) →
           ∃ t, exec (.tapestryResponse m) s = .next t ∧ copied t x l off ∧ StoresOnly s t [] ∧ Frame accessRegs accessParts s t) ∧
         (∀ g t0, o.origin = .coll g t0 → ∃ t, exec (.tapestryResponse m) s = .next t ∧ gone t ∧ Frame noReg [.router, .trip] s t))))) ∧
   (∀ dst vc seq, (let late := s.router.out.filter fun o => decide (o.msg.dstDev = dst) && decide (o.vc = vc.toNat) && orderedMsg o.msg && decide ((o.msg.seq - seq).toNat < 32768)
      ((late = [] ∨ s.power.s5 = true) → exec (.tapestryResend dst vc seq) s = .next s) ∧
      (s.power.s5 = false → route dst.toNat → ∃ t, exec (.tapestryResend dst vc seq) s = .next t ∧ (∀ o ∈ late, Sent s t o.msg) ∧
        t.router.out.map (fun o => (o.vc, o.origin)) = s.router.out.map (fun o => (o.vc, o.origin)) ∧ Frame noReg [.router, .links] s t) ∧
      (∃ t, exec (.tapestryResend dst vc seq) s = .next t ∧ Frame fabricRegs fabricParts s t))) ∧
   (∀ tag, ((outTag s tag = none ∨ s.power.s5 = true) → exec (.tapReqTimeout tag) s = .next s) ∧
     (∀ o, s.power.s5 = false → outTag s tag = some o →
       (let due := elapsedUs s.time o.sentAt (rdF s (tapKey 0x114) 15 0) = true
        let counted := fun (t : State) => rd t (tapKey 0x124) = rd s (tapKey 0x124) + 1
        (¬ due → exec (.tapReqTimeout tag) s = .next s) ∧
        (due → o.resent = false → route o.msg.dstDev.toNat → ∃ t, exec (.tapReqTimeout tag) s = .next t ∧ counted t ∧
          Sent s t (if orderedMsg o.msg then o.msg else { o.msg with tag := s.router.nextTag }) ∧ (∃ x ∈ t.router.out, x.origin = o.origin ∧ x.resent = true ∧ x.sentAt = s.time) ∧
          Frame (someRegs [tapKey 0x124]) [.router, .links] s t) ∧
        (due → o.resent = true → ∃ t, exec (.tapReqTimeout tag) s = .next t ∧ counted t ∧
          (∃ r : FaultRep, r.dev = o.msg.dstDev ∧ r.type = 0 ∧ r.cls = .timeout ∧ Reported s t r) ∧
          (∀ c i x, o.origin = .op c i → (coreOf s c).slots.find? (fun x => decide (x.idx = i)) = some x → Aborted s t c x) ∧ Frame fabricRegs fabricParts s t)))))

/-- R309, R315, R319, R326, R330, while no producer of events waits: a load or store that hits reads or writes the lines held, one that misses asks the home for the line it lacks, or first evicts the line whose place it needs; the failure of a line's request ends the access that meets it; an eviction sends the line home; a grant makes the line S or M, and makes the store of a whole line that asked for it; an acknowledged eviction drops it; a SNOOP is answered at once by the line's state. -/
def Obligations.CoherentLines : Prop := ∀ s : State, eventsOpen s →
  (let route := fun (d : Nat) => d = ownDev s ∨ routeSet s d ≠ []
   (∀ (l : LoomId) (dev : BitVec 14) (addr : BitVec 42) (bs : List Byte), (let line := lineOf dev.toNat addr.toNat
     let home := addr.toNat / 128 * 128
     let load := exec (.coherentLoad l dev addr) s
     let store := exec (.coherentStore l dev addr bs) s
     let on := s.power.s5 = false
     let importR := cohImport s l dev.toNat home 128 false = true
     let importW := bs ≠ [] ∧ cohImport s l dev.toNat addr.toNat bs.length true = true
     let may := on ∧ importR ∧ devValid s = true ∧ route dev.toNat
     let mayW := on ∧ importW ∧ devValid s = true ∧ route dev.toNat ∧ ∀ r ∈ s.router.replies, r.who ≠ cohWho l
     let whole := linesOf dev.toNat addr.toNat bs.length
     let sends := outstanding s dev.toNat 2 < 4 ∧ bucketOpen s l = true
     let room := fun (j : Nat) => slotRival s j = none ∧ (loomLines s l).length < rdF s (tapKey (0x200 + 4 * l.val)) 19 0
     let asks := fun (t : State) (j : Nat) (op : MsgOp) (noData : Bool) => SentTo s t dev (fun m => m.op = op ∧ m.addr = BitVec.ofNat 42 (lineHome j).2 ∧ m.noData = noData ∧ m.srcLoom = l) ∧
       (∃ o ∈ t.router.out, o.origin = .coherent j ∧ o.msg.op = op ∧ o.sentAt = s.time)
     let others := fun (t : State) (js : List Nat) => ∀ j, j ∉ js → tfind t.coh.lines j = tfind s.coh.lines j
     let told := fun (t : State) (typ : BitVec 16) => (loomSt s l ≠ 0 → ∃ v ∈ tget [] t.produced l, v.type = typ) ∧ Frame noReg [.coh, .produced, .trip] s t
     let F := fun t => Frame noReg [.coh, .router, .links, .trip] s t
     (s.power.s5 = true → load = .next s ∧ store = .next s) ∧
     (on → ¬ importR → load = .next (fresh s)) ∧ (on → ¬ importW → store = .next (fresh s)) ∧
     (on → importR → devValid s = false → ∃ t, load = .next t ∧ told t 4) ∧ (on → importW → devValid s = false → ∃ t, store = .next t ∧ told t 4) ∧
     (on → importR → devValid s = true → ¬ route dev.toNat → load = .next (fresh s)) ∧ (on → importW → devValid s = true → ¬ route dev.toNat → store = .next (fresh s)) ∧
     (∀ x st code, may → tfind s.coh.lines line = some x → x.fail = some (st, code) → ∃ t, load = .next t ∧ (st = 1 ∨ st = 2 → told t 3) ∧
       (∀ y, tfind t.coh.lines line = some y → y = { x with fail := none }) ∧ others t [line] ∧ Frame noReg [.coh, .produced, .trip] s t) ∧
     (∀ x, may → lineHit s line = some x → x.fail = none → ∃ t, load = .next t ∧ t.resp = .data (slice x.data 0 128) ∧
       tfind t.coh.lines line = some { x with lru := s.coh.tick } ∧ others t [line] ∧ Frame noReg [.coh, .resp, .trip] s t) ∧
     (∀ x, may → tfind s.coh.lines line = some x → x.fail = none → lineHit s line = none → (x.want ≠ none ∨ x.evicting = true) → load = .next (fresh s)) ∧
     (may → tfind s.coh.lines line = none → room line → sends → ∃ t, load = .next t ∧ asks t line .readShared false ∧
       tfind t.coh.lines line = some { loom := l.val, want := some false } ∧ others t [line] ∧ F t) ∧
     (may → tfind s.coh.lines line = none → room line → ¬ sends → load = .next (fresh s)) ∧
     (∀ v, may → tfind s.coh.lines line = none → slotRival s line = some v → load = .next (keep s (evictLine (fresh s) v))) ∧
     (∀ v, may → tfind s.coh.lines line = none → slotRival s line = none → ¬ room line → oldestLine (loomLines s l) = some v → load = .next (keep s (evictLine (fresh s) v))) ∧
     (mayW → (∀ j ∈ whole, ∃ x, lineHit s j = some x ∧ x.owned = true ∧ x.fail = none) → ∃ t, store = .next t ∧
       (∀ j ∈ whole, ∀ x, tfind s.coh.lines j = some x → ∃ n, tfind t.coh.lines j = some { x with data := linePatch x.data (lineHome j).2 addr.toNat bs, lru := n }) ∧
       others t whole ∧ Frame noReg [.coh, .trip] s t) ∧
     (∀ before j after, mayW → whole = before ++ j :: after → (∀ i ∈ before, ∃ x, lineHit s i = some x ∧ x.owned = true ∧ x.fail = none) →
       (let b := (lineHome j).2
        let all := within b 128 addr.toNat bs.length
        let put := if all then some (cohWho l, slice (bs.drop (b - addr.toNat)) 0 128) else none
        (∀ x st code, tfind s.coh.lines j = some x → x.fail = some (st, code) → ∃ t, store = .next t ∧ (st = 1 ∨ st = 2 → told t 3) ∧ Frame noReg [.coh, .produced, .trip] s t) ∧
        (tfind s.coh.lines j = none → room j → sends → ∃ t, store = .next t ∧ asks t j .readOwn all ∧
          tfind t.coh.lines j = some { loom := l.val, want := some true, put := put } ∧ others t [j] ∧ F t) ∧
        (∀ x, tfind s.coh.lines j = some x → x.fail = none → x.want = none → x.evicting = false → (x.valid = false ∨ x.owned = false) → sends → ∃ t, store = .next t ∧ asks t j .readOwn all ∧
          tfind t.coh.lines j = some { x with want := some true, put := put } ∧ others t [j] ∧ F t) ∧
        (∀ x, tfind s.coh.lines j = some x → x.fail = none → (x.want ≠ none ∨ x.evicting = true) → (lineHit s j = none ∨ x.owned = false) → store = .next (fresh s)))) ∧
     (∀ r, on → importW → devValid s = true → route dev.toNat → whole = [line] → s.router.replies.find? (answers (cohWho l) l (2 ^ 63 + line * 128) 128 true) = some r →
       ∃ t, store = .next t ∧ t.router = { s.router with replies := dropFirst (answers (cohWho l) l (2 ^ 63 + line * 128) 128 true) s.router.replies } ∧ Frame noReg [.router, .trip] s t) ∧
     (s.power.s5 = true ∨ tfind s.coh.lines line = none → exec (.coherentEvict dev addr) s = .next s) ∧
     (∀ x, on → tfind s.coh.lines line = some x → (let idle := x.valid = true ∧ x.want = none ∧ x.evicting = false
       let goes := devValid s = true ∧ outstanding s dev.toNat 2 < 4 ∧ bucketOpen s x.loom = true ∧ route dev.toNat
       (¬ (idle ∧ goes) → exec (.coherentEvict dev addr) s = .next s) ∧
       (idle → goes → ∃ t, exec (.coherentEvict dev addr) s = .next t ∧ tfind t.coh.lines line = some { x with evicting := true } ∧ others t [line] ∧
         SentTo s t dev (fun m => m.op = .evict ∧ m.addr = BitVec.ofNat 42 home ∧ m.data = (if x.owned then x.data else [])) ∧ Frame noReg [.coh, .router, .links] s t))))) ∧
   (∀ m : TapMsg, (let line := lineOf m.srcDev.toNat m.addr.toNat
     let gone := fun (t : State) (o : OutReq) => ∀ y ∈ t.router.out, y.msg.tag ≠ o.msg.tag ∨ isGrant y = true
     let others := fun (t : State) => ∀ j, j ≠ line → tfind t.coh.lines j = tfind s.coh.lines j
     let away := m.dstDev.toNat ≠ ownDev s ∨ s.power.s5 = true
     let grants := fun (i : Instr) (op : MsgOp) (own : Bool) =>
       ((m.op ≠ op ∨ away) → exec i s = .next s) ∧
       (∀ x o, m.op = op → inTurn s m → tfind s.coh.lines line = some x → lineOut s line = some o → x.want = some own → o.msg.tag = m.tag → ∃ t, exec i s = .next t ∧
         tfind t.coh.lines line = some { x with valid := true, owned := own, data := grantedData x m, want := none, put := none, lru := s.coh.tick } ∧
         (x.put = none → t.router.replies = s.router.replies) ∧
         (∀ w bs, x.put = some (w, bs) → t.router.replies = s.router.replies ++
           [{ who := w, loom := x.loom, addr := 2 ^ 63 + line * 128, len := 128, write := true, status := 0, code := none, data := [] }]) ∧
         others t ∧ gone t o ∧ rxSeqOf t m = m.seq + 1 ∧ Frame noReg [.coh, .router] s t) ∧
       (m.op = op → inTurn s m → (tfind s.coh.lines line = none ∨ lineOut s line = none) → ∃ t, exec i s = .next t ∧ t.coh = s.coh ∧ rxSeqOf t m = m.seq + 1 ∧ Frame noReg [.router] s t)
     grants (.grantS m) .grantS false ∧ grants (.grantM m) .grantM true ∧
     (∀ x o, m.op = .evictAck → tfind s.coh.lines line = some x → lineOut s line = some o →
       (x.evicting = true → o.msg.tag = m.tag → ∃ t, exec (.evictAck m) s = .next t ∧ tfind t.coh.lines line = none ∧ others t ∧ gone t o ∧ Frame noReg [.coh, .router] s t) ∧
       ((x.evicting = false ∨ o.msg.tag ≠ m.tag) → exec (.evictAck m) s = .next s)) ∧
     ((m.op ≠ .evictAck ∨ tfind s.coh.lines line = none ∨ lineOut s line = none) → exec (.evictAck m) s = .next s) ∧
     ((m.op ≠ .snoop ∨ away) → exec (.snoop m) s = .next s) ∧
     (m.op = .snoop → inTurn s m → (let answered := fun (t : State) (k : SnpKind) (d : List Byte) => SentTo s t m.srcDev (fun w => w.op = .snpRsp ∧ w.snp = k ∧ w.data = d ∧ w.addr = m.addr ∧ w.tag = m.tag) ∧
         (∃ r ∈ t.router.recent, r.src = m.srcDev.toNat ∧ r.vc = 2 ∧ r.seq = m.seq ∧ r.rsp.op = .snpRsp ∧ r.rsp.snp = k ∧ r.rsp.data = d) ∧ rxSeqOf t m = m.seq + 1
       (tfind s.coh.lines line = none → ∃ t, exec (.snoop m) s = .next t ∧ answered t .ackI [] ∧ Frame noReg [.router, .links] s t) ∧
       (∀ x, tfind s.coh.lines line = some x → (let a := snoopAnswer x m.snpInv
         ∃ t, exec (.snoop m) s = .next t ∧ answered t a.1 a.2.1 ∧
           ((a.2.2.valid = true ∨ a.2.2.want ≠ none ∨ a.2.2.evicting = true ∨ a.2.2.fail ≠ none) → tfind t.coh.lines line = some a.2.2) ∧
           (a.2.2.valid = false → a.2.2.want = none → a.2.2.evicting = false → a.2.2.fail = none → tfind t.coh.lines line = none) ∧
           others t ∧ Frame noReg [.coh, .router, .links] s t)))))))

/-- R294, R327, R328, R329, while no producer of events waits: the home queues a request behind its line, snoops the holders that must give the line up, or grants it: READ_SHARED adds a sharer, READ_OWN leaves the requester as owner, an ATOMIC changes memory with no holder left; a grant that would carry an uncorrectable block is answered POISON instead; an EVICT writes an owned line home, removes the holder and is acknowledged; the last answer to its snoops lets a request go on; a full directory set first gives up its earliest entry. That the home's charge waits for no tokens is log entry 50. -/
def Obligations.CoherentHome : Prop := ∀ s : State, eventsOpen s →
  (∀ (m : TapMsg) l i, grantedBy s m l → servedBy m = some i → vcOf m = 2 →
    (let line := homeLineOf m
     let queued := lineQueued s line = true ∨ lineBusy s line = true ∨ (m.op ≠ .atomic ∧ (dirVictim s line m.srcDev.toNat).isSome = true)
     let needs := snoopNeeds s m
     let clean := fun (a n : Nat) => (blocksOf a n).find? (badBlock s) = none
     let F := fun t => Frame (fun k => accessRegs k ∨ k = tapKey 0x30) accessParts s t
     let others := fun (t : State) => ∀ j, j ≠ line → tfind t.coh.dir j = tfind s.coh.dir j
     let sharer := ∃ e, tfind s.coh.dir line = some e ∧ e.owned = false ∧ e.group = none ∧ m.srcDev.toNat ∈ e.holders
     let noData := m.noData = true ∨ sharer
     (m.op ≠ .evict → queued → ∃ t, exec i s = .next t ∧ t.coh.queue = s.coh.queue ++ [m] ∧ t.coh.dir = s.coh.dir ∧ Frame (someRegs [tapKey 0x30]) [.router, .coh] s t) ∧
     (m.op ≠ .evict → ¬ queued → needs.1 ≠ [] → ∃ t, exec i s = .next t ∧
       t.coh.busy = s.coh.busy ++ [{ line := line, req := some m, waits := needs.1, inv := needs.2, keep := ((tfind s.coh.dir line).map DirEnt.holders).getD [] }] ∧
       (∀ d ∈ needs.1, SentTo s t (BitVec.ofNat 14 d) fun w => w.op = .snoop ∧ w.snpInv = needs.2 ∧ w.addr = BitVec.ofNat 42 (line * 128)) ∧
       t.coh.dir = s.coh.dir ∧ Frame (someRegs [tapKey 0x30]) [.router, .links, .coh] s t) ∧
     (m.op = .readShared → ¬ queued → needs.1 = [] → clean (line * 128) 128 → ∃ t e, exec i s = .next t ∧ tfind t.coh.dir line = some e ∧ e.owned = false ∧ (e.group = none → m.srcDev.toNat ∈ e.holders) ∧
       SentTo s t m.srcDev (fun w => w.op = .grantS ∧ w.data = localRd s (line * 128) 128 ∧ w.tag = m.tag) ∧ (∃ o ∈ t.router.out, o.origin = .grant line ∧ o.msg.op = .grantS) ∧
       others t ∧ t.mem = s.mem ∧ F t) ∧
     (m.op = .readOwn → ¬ queued → needs.1 = [] → (noData ∨ clean (line * 128) 128) → ∃ t, exec i s = .next t ∧
       (∃ n, tfind t.coh.dir line = some { owned := true, holders := [m.srcDev.toNat], age := n }) ∧
       SentTo s t m.srcDev (fun w => w.op = .grantM ∧ w.tag = m.tag ∧ (¬ noData → w.data = localRd s (line * 128) 128) ∧ (noData → w.data = [])) ∧
       (∃ o ∈ t.router.out, o.origin = .grant line ∧ o.msg.op = .grantM) ∧ others t ∧ t.mem = s.mem ∧ F t) ∧
     ((m.op = .readShared ∨ (m.op = .readOwn ∧ ¬ noData)) → ¬ queued → needs.1 = [] → ¬ clean (line * 128) 128 → ∃ t, exec i s = .next t ∧ Sent s t (rspTo s m 3 []) ∧ t.mem = s.mem ∧ F t) ∧
     (m.op = .atomic → ¬ queued → needs.1 = [] → ¬ clean m.addr.toNat m.len → ∃ t, exec i s = .next t ∧ Sent s t (rspTo s m 3 []) ∧ t.mem = s.mem ∧ F t) ∧
     (m.op = .atomic → ¬ queued → needs.1 = [] → clean m.addr.toNat m.len → ∃ t, exec i s = .next t ∧ tfind t.coh.dir line = none ∧
       Sent s t (rspTo s m 0 (localRd s m.addr.toNat m.len)) ∧
       cgets t.mem m.addr.toNat m.len = toLe m.len (atomicNew m.aop (8 * m.len) (leNat (localRd s m.addr.toNat m.len)) (leNat (m.data.take m.len)) m.extra.toNat) ∧
       (∀ b, b < m.addr.toNat ∨ m.addr.toNat + m.len ≤ b → cget t.mem b = cget s.mem b) ∧ F t) ∧
     (m.op = .evict → ∃ t, exec i s = .next t ∧ SentTo s t m.srcDev (fun w => w.op = .evictAck ∧ w.tag = m.tag ∧ w.addr = m.addr) ∧
       (lineBusy s line = false → s.coh.queue = [] →
         (∀ e, tfind s.coh.dir line = some e → (dirEmpty (dropHolder e m.srcDev.toNat) = true → tfind t.coh.dir line = none) ∧
           (dirEmpty (dropHolder e m.srcDev.toNat) = false → tfind t.coh.dir line = some (dropHolder e m.srcDev.toNat)) ∧
           (e.owned = true → m.data ≠ [] → (∀ o, placeOf s m.addr.toNat ≠ .hostWin o) → cgets t.mem (line * 128) 128 = slice m.data 0 128) ∧
           ((e.owned = false ∨ m.data = []) → t.mem = s.mem)) ∧
         (tfind s.coh.dir line = none → t.mem = s.mem ∧ t.coh.dir = s.coh.dir)) ∧ Frame fabricRegs fabricParts s t))) ∧
  (∀ m : TapMsg, (let d := m.srcDev.toNat
     let kept := s.router.out.find? fun o => decide (o.msg.op = .snoop) && decide (o.msg.tag = m.tag) && decide (o.msg.dstDev = m.srcDev)
     let bs := if m.snp = .ackI then [] else m.data
     ((m.op ≠ .snpRsp ∨ kept = none) → exec (.snpRsp m) s = .next s) ∧
     (∀ o, m.op = .snpRsp → kept = some o → (∃ t, exec (.snpRsp m) s = .next t ∧ Frame fabricRegs fabricParts s t) ∧
       ((∀ line, o.origin ≠ .snoop line) → ∃ t, exec (.snpRsp m) s = .next t ∧ t.router = { s.router with out := dropFirst (fun x => decide (x = o)) s.router.out } ∧ Frame noReg [.router] s t) ∧
       (∀ line, o.origin = .snoop line → (let found := s.coh.busy.find? fun t => decide (t.line = line) && t.waits.contains d
         ((m.snp = .evictPending ∨ found = none) → ∃ t, exec (.snpRsp m) s = .next t ∧ t.coh = s.coh ∧ Frame noReg [.router] s t) ∧
         (∀ x, m.snp ≠ .evictPending → found = some x → ((∃ st f, placeOf s (line * 128) = .dram st f) ∨ ∃ q f, placeOf s (line * 128) = .pool q f) → (∀ b ∈ blocksOf (line * 128) 128, badBlock s b = false) →
           (x.waits.filter (· ≠ d) ≠ [] → ∃ t, exec (.snpRsp m) s = .next t ∧
             (∃ y ∈ t.coh.busy, y.line = line ∧ y.req = x.req ∧ y.waits = x.waits.filter (· ≠ d) ∧ y.keep = (if m.snp = .dataS then x.keep else x.keep.filter (· ≠ d))) ∧
             (bs ≠ [] → cgets t.mem (line * 128) 128 = slice bs 0 128) ∧ (bs = [] → t.mem = s.mem) ∧
             (∀ b, b < line * 128 ∨ line * 128 + 128 ≤ b → cget t.mem b = cget s.mem b) ∧ Frame noReg [.mem, .coh, .router] s t) ∧
           (x.waits.filter (· ≠ d) = [] → ∃ t, exec (.snpRsp m) s = .next t ∧
             (∀ r, x.req = some r → homeLineOf r = line → r.op = .readOwn → SentTo s t r.srcDev fun w => w.op = .grantM ∧ w.tag = r.tag) ∧
             (∀ r, x.req = some r → homeLineOf r = line → r.op = .readShared → SentTo s t r.srcDev fun w => w.op = .grantS ∧ w.tag = r.tag) ∧ Frame fabricRegs fabricParts s t))))))) ∧
  (∀ addr : BitVec 42, (let found := s.coh.queue.find? fun q => decide (homeLineOf q = addr.toNat / 128)
     ((found = none ∨ s.power.s5 = true) → exec (.dirBackinv addr) s = .next s) ∧
     (∀ m, found = some m → dirVictim s (homeLineOf m) m.srcDev.toNat = none → exec (.dirBackinv addr) s = .next s) ∧
     (∀ m v, found = some m → dirVictim s (homeLineOf m) m.srcDev.toNat = some v → lineBusy s v = true → exec (.dirBackinv addr) s = .next s) ∧
     (∃ t, exec (.dirBackinv addr) s = .next t ∧ Frame fabricRegs fabricParts s t) ∧
     (∀ m v e, s.power.s5 = false → found = some m → dirVictim s (homeLineOf m) m.srcDev.toNat = some v → lineBusy s v = false → tfind s.coh.dir v = some e → dirTargets e ≠ [] →
       ∃ t, exec (.dirBackinv addr) s = .next t ∧ rd t (tapKey 0x11C) = rd s (tapKey 0x11C) + 1 ∧
         t.coh.busy = s.coh.busy ++ [{ line := v, req := none, waits := dirTargets e, inv := true, keep := [] }] ∧
         (∀ d ∈ dirTargets e, SentTo s t (BitVec.ofNat 14 d) fun w => w.op = .snoop ∧ w.snpInv = true ∧ w.addr = BitVec.ofNat 42 (v * 128)) ∧
         Frame (someRegs [tapKey 0x11C]) [.coh, .router, .links] s t)))

-- ## Collectives (15)

/-- R333, R334, R337, R338, R341, R342, R343, R344, R345, R346, while no producer of events waits: a core's collective reads its group block once and enters an engine that has room; one whose group block cannot be read aborts, one that fails a check aborts with COLL_ERROR and its cause; one that starts sends its OPEN to every partner; in a group of one member it moves or folds its block into DST and completes. At S5 nothing happens. -/
def Obligations.CollectiveIssue : Prop := ∀ (s : State) (c : CoreId), eventsOpen s →
  (let rows : List (Instr × List Nat) := [(.allReduce c, [0x40, 0x46]), (.reduceScatter c, [0x41]), (.allGather c, [0x42]), (.allToAll c, [0x43]), (.broadcast c, [0x44]),
     (.permute c, [0x45]), (.barrier c, [0x47])]
   let l := coreLoom s c
   let of := fun (ops : List Nat) => issuedFresh s c fun ws => ops.any fun o => isOp o ws
   let stops := fun (t : State) (x : Slot) (cause : Nat) => Aborted s t c x ∧
     (loomSt s l ≠ 0 → ∃ v ∈ tget [] t.produced l, v.type = 0x60 ∧ v.srcType = 0x061 ∧ v.info0 = (x.words.getD 7 0).setWidth 64 ∧ v.info1 = BitVec.ofNat 64 cause)
   ∀ p ∈ rows,
     (s.power.s5 = true → exec p.1 s = .next s) ∧
     (∃ t, exec p.1 s = .next t ∧ Frame fabricRegs fabricParts s t) ∧
     (s.power.s5 = false → (of p.2 = none ∨ 64 ≤ s.coll.runs.length) → collIdle s → exec p.1 s = .next (fresh s)) ∧
     (∀ x, s.power.s5 = false → of p.2 = some x → s.coll.runs = [] →
       (let w := coreWho c x.idx
        let ga := (w64 x.words 8).toNat
        (∀ u e, loomRead (fresh s) w l ga 64 = (u, .error e) → accessesServed u → ∃ t, exec p.1 s = .next t ∧ Aborted s t c x) ∧
        (∀ u v z hd ms mv, loomRead (fresh s) w l ga 64 = (u, .ok hd) → loomRead u w l (ga + 64) (16 * min (fieldLe hd 4 4) 16384) = (v, .ok ms) →
          ((opcode x.words ≠ 0x45 ∨ (x.words.getD 14 0).toNat = 0) → z = v ∧ mv = []) →
          (opcode x.words = 0x45 → (x.words.getD 14 0).toNat ≠ 0 → loomRead v w l (ga + 64 + 16 * fieldLe hd 4 4) (32 * (x.words.getD 14 0).toNat) = (z, .ok mv)) →
          accessesServed z →
          (let r := makeRun s c x hd ms mv
           let n := fieldLe hd 4 4
           let good := groupBad r n = false ∧ collAlias r = false ∧ (opcode x.words = 0x45 → permBad n r.moves = false)
           let quiet := tagAborted s r.group r.tag = false ∧ (∀ h ∈ s.coll.opens, h.1.group ≠ r.group ∨ h.1.loom.val ≠ l) ∧ ∀ o ∈ s.router.out, o.origin ≠ .coll r.group r.tag
           let moves := fun (src dst k : Nat) => neverWaits s l ∧ openTo s (collWho r) l src k false ∧ openTo s (collWho r) l dst k true
           let ends := fun (t : State) => Completed s t c x ∧ t.knotQ = s.knotQ ++ endSignal x ∧ rd t (tapKey 0x284) = rd s (tapKey 0x284) + 1
           let copied := fun (src dst k : Nat) => ∃ t, exec p.1 s = .next t ∧ ends t ∧ cgets t.mem dst k = localRd s src k ∧ StoresOnly s t [(dst, k)]
           (groupBad r n = true → ∃ t, exec p.1 s = .next t ∧ stops t x 1) ∧
           (groupBad r n = false → collAlias r = true → ∃ t, exec p.1 s = .next t ∧ stops t x 2) ∧
           (groupBad r n = false → collAlias r = false → opcode x.words = 0x45 → permBad n r.moves = true → ∃ t, exec p.1 s = .next t ∧ stops t x 5) ∧
           (good → tagAborted s r.group r.tag = true → ∃ t, exec p.1 s = .next t ∧ stops t x 4) ∧
           (good → tagAborted s r.group r.tag = false → opcode x.words ∉ [0x42, 0x43, 0x44] → ∃ t, exec p.1 s = .next t ∧
             ∀ j ∈ partnerRanks r, ∀ m, r.members[j]? = some m → (m.1, m.2.1, runKey r, r.opn) ∈ t.coll.sentOpen) ∧
           (good → quiet → n = 1 →
             (opcode x.words = 0x47 → ∃ t, exec p.1 s = .next t ∧ ends t ∧ StoresOnly s t []) ∧
             ((opcode x.words = 0x42 ∨ opcode x.words = 0x43) → 0 < collCount r 0 → moves r.src r.dst (collCount r 0 * collElem r) → copied r.src r.dst (collCount r 0 * collElem r)) ∧
             (opcode x.words = 0x44 → r.src ≠ r.dst → 0 < r.opn.nElem → moves r.src r.dst (r.opn.nElem * collElem r) → copied r.src r.dst (r.opn.nElem * collElem r)) ∧
             (opcode x.words = 0x44 → r.src = r.dst → ∃ t, exec p.1 s = .next t ∧ ends t ∧ StoresOnly s t []) ∧
             (∀ so d, r.moves = [(0, 0, so, d, 4096)] → moves (r.src + so) (r.dst + d) 4096 → opcode x.words = 0x45 → copied (r.src + so) (r.dst + d) 4096) ∧
             (opcode x.words ∈ [0x40, 0x41, 0x46] → collElem r = (if r.opn.rfmt then 2 else 4) → 0 < foldLen r → foldLen r ≤ chunkElems → moves r.src r.dst (foldLen r * collElem r) →
               (let own := runFM (ownValues r (localRd s r.src (foldLen r * collElem r)))
                let out := (runFM (finishFold r (f32s (f32Bytes own.1)))).1
                ∃ t, exec p.1 s = .next t ∧ ends t ∧ out.length = foldLen r * collElem r ∧ cgets t.mem r.dst out.length = out ∧ StoresOnly s t [(r.dst, foldLen r * collElem r)]))))))))

/-- R317, R339, R341, R345, R346, while no producer of events waits: an OPEN of an aborted TAG is answered with ABORT, one that no collective runs for is held, one that does not match aborts the collective with OPEN_MISMATCH; a barrier completes with the last OPEN; an ABORT is recorded and aborts the member that runs its TAG; of memory, an abort changes at most what the collective would write; a grant lets a chunk go out; a REDUCE_FORWARD is taken under a grant, and refused else. At S5 nothing happens. -/
def Obligations.CollectiveMessages : Prop := ∀ (s : State) (k : CollKey), eventsOpen s →
  (let stops := fun (t : State) (r : CollRun) (cause : Nat) =>
     (∀ x, (coreOf s r.core).slots.find? (fun x => decide (x.idx = r.idx)) = some x → Aborted s t r.core x) ∧
     (∀ m ∈ collPartners r, ∃ q ∈ t.coll.sentAbort, q.1 = m.1 ∧ q.2.group = r.group ∧ q.2.tag = r.tag) ∧
     (loomSt s r.loom ≠ 0 → ∃ v ∈ tget [] t.produced r.loom, v.type = 0x60 ∧ v.info0 = r.tag.setWidth 64 ∧ v.info1 = BitVec.ofNat 64 (cause + k.fromDev.toNat * 2 ^ 32)) ∧
     (∀ a, (∀ p ∈ dstRanges r, a < p.1 ∨ p.1 + p.2 ≤ a) → cget t.mem a = cget s.mem a) ∧ Frame fabricRegs fabricParts s t
   let rest := fun (i : Instr) (u : State) => collIdle u → exec i s = .next (fresh u)
   let held := fun (o : CollOpen) => { s with coll := { s.coll with opens := holdOpen s.coll.opens k o } }
   (∀ o n pull m d, ∀ i ∈ [Instr.collOpen k o, .collAbort k, .stagingGrant k n pull, .reduceForward m k d],
     (s.power.s5 = true → exec i s = .next s) ∧ ∃ t, exec i s = .next t ∧ Frame fabricRegs fabricParts s t) ∧
   (s.power.s5 = false →
    (∀ o, tagAborted s k.group k.tag = true → rest (.collOpen k o)
      { s with coll := { s.coll with sentAbort := s.coll.sentAbort ++ [(k.fromDev.toNat, { k with fromDev := BitVec.ofNat 14 (ownDev s) })] } }) ∧
    (∀ o, tagAborted s k.group k.tag = false → runOf s k = none → rest (.collOpen k o) (held o)) ∧
    (∀ o r q, tagAborted s k.group k.tag = false → runOf s k = some r → rankOf r k.fromDev.toNat = some q → q ∈ r.opened → rest (.collOpen k o) (held o)) ∧
    (∀ o r, tagAborted s k.group k.tag = false → runOf s k = some r → rankOf r k.fromDev.toNat = none → rest (.collOpen k o) s) ∧
    (∀ o, (k, o) ∈ (held o).coll.opens ∧ ∀ h ∈ (held o).coll.opens, h.1.fromDev = k.fromDev → h.1.group = k.group → h.1.loom = k.loom → h = (k, o)) ∧
    (∀ o r q, s.coll.runs = [r] → tagAborted s k.group k.tag = false → runOf s k = some r → rankOf r k.fromDev.toNat = some q → q ∉ r.opened → (k.tag ≠ r.tag ∨ o ≠ r.opn) →
      ∃ t, exec (.collOpen k o) s = .next t ∧ stops t r 3) ∧
    (∀ r q x, s.coll.runs = [r] → tagAborted s k.group k.tag = false → runOf s k = some r → rankOf r k.fromDev.toNat = some q → q ∉ r.opened → k.tag = r.tag → r.opcode = 0x47 →
      (∀ j ∈ partnerRanks r, j = q ∨ j ∈ r.opened) → r.parts = [] → r.results = [] → (∀ o ∈ s.router.out, o.origin ≠ .coll r.group r.tag) →
      (coreOf s r.core).slots.find? (fun x => decide (x.idx = r.idx)) = some x →
      ∃ t, exec (.collOpen k r.opn) s = .next t ∧ Completed s t r.core x ∧ t.knotQ = s.knotQ ++ endSignal x ∧ t.coll.runs = [] ∧ rd t (tapKey 0x284) = rd s (tapKey 0x284) + 1 ∧
        Frame fabricRegs fabricParts s t) ∧
    (let found := s.coll.runs.find? fun r => decide (r.group = k.group) && decide (r.tag = k.tag) && decide (r.loom = k.loom.val)
     let recorded := fun (t : State) => t.coll.aborts.length ≤ 64 ∧ ∃ a ∈ t.coll.aborts, a.1 = k.group ∧ k.tag ∈ a.2 ∧ a.2.length ≤ 256
     recorded (recordAbort s k.group k.tag) ∧ (found = none → rest (.collAbort k) (recordAbort s k.group k.tag)) ∧
     (∀ r, s.coll.runs = [r] → found = some r → ∃ t, exec (.collAbort k) s = .next t ∧ recorded t ∧ stops t r 4)) ∧
    (∀ n pull, (runOf s k = none ∨ ∃ r, runOf s k = some r ∧ (r.tag ≠ k.tag ∨ rankOf r k.fromDev.toNat = none)) → rest (.stagingGrant k n pull) s) ∧
    (∀ n pull r q, runOf s k = some r → r.tag = k.tag → rankOf r k.fromDev.toNat = some q → rest (.stagingGrant k n pull)
      (setRun s { r with grants := tput r.grants q (tget 0 r.grants q + n), pulls := r.pulls ++ pull.toList })) ∧
    (∀ n r q m i, s.coll.runs = [r] → runOf s k = some r → r.tag = k.tag → rankOf r k.fromDev.toNat = some q → r.members[q]? = some m → 0 < n →
      (r.opcode = 0x42 ∨ r.opcode = 0x43 ∨ r.opcode = 0x44) → r.parts = [] → (∀ j, j ≠ q → tget 0 r.grants j = 0) → q ∈ partnerRanks r →
      (List.range (cdiv (sendRange r q).2 4096)).find? (fun j => !(r.sentChunks.contains (q, j))) = some i →
      (let a := r.src + (sendRange r q).1 + 4096 * i
       let len := min 4096 ((sendRange r q).2 - 4096 * i)
       neverWaits s r.loom → openTo s (collWho r) r.loom a len false → devValid s = true → outstanding s (m.1 % 2 ^ 14) 3 < 128 → bucketOpen s r.loom = true →
       ∃ t, exec (.stagingGrant k n none) s = .next t ∧ SentTo s t (BitVec.ofNat 14 m.1) (fun w => w.op = .reduceForward ∧ w.data = localRd s a len) ∧ Frame fabricRegs fabricParts s t)) ∧
    (∀ (m : TapMsg) d, (let taken := fun (r : CollRun) => runOf s k = some r ∧ r.tag = k.tag ∧ rankOf r k.fromDev.toNat ≠ none ∧ stagingOpen s r m = true
      let small := fun (t : State) => Frame noReg [.router, .links, .trip] s t
      ((m.op ≠ .reduceForward ∨ m.dstDev.toNat ≠ ownDev s) → rest (.reduceForward m k d) s) ∧
      (s.coll.runs = [] → m.op = .reduceForward → m.dstDev.toNat = ownDev s → ∀ st, inboundBar s m = some st → ∃ t, exec (.reduceForward m k d) s = .next t ∧
        Sent s t (rspTo s m st []) ∧ small t) ∧
      (s.coll.runs = [] → m.op = .reduceForward → inTurn s m → badReq s m = true → ∃ t, exec (.reduceForward m k d) s = .next t ∧ Sent s t (rspTo s m 7 []) ∧
        rxSeqOf t m = m.seq + 1 ∧ small t) ∧
      (s.coll.runs = [] → m.op = .reduceForward → inTurn s m → badReq s m = false → ∃ t, exec (.reduceForward m k d) s = .next t ∧ Sent s t (rspTo s m 1 []) ∧
        rd t (tapKey 0x120) = rd s (tapKey 0x120) + 1 ∧ rxSeqOf t m = m.seq + 1 ∧
        Frame (fun j => reportRegs j ∨ j = tapKey 0x120 ∨ j = tapKey 0x128 ∨ ∃ l, j = loomKey l 0x30) ([.router, .links, .trip] ++ reportParts) s t) ∧
      (∀ r, m.op = .reduceForward → inTurn s m → badReq s m = false → taken r →
        (let a := stageAt r ((r.freed + r.parts.length) % max 1 (stageUnits r))
         neverWaits s r.loom → openTo s (collWho r) r.loom a d.data.length true → ∃ t, exec (.reduceForward m k d) s = .next t ∧ Sent s t (rspTo s m 0 []) ∧
           rxSeqOf t m = m.seq + 1 ∧ Frame fabricRegs fabricParts s t))))))

-- ## The codec (16)

/-- R352, R357, R358, R359, R360, R363, R369, R371, R373, R374, while no producer of events waits: a codec operation enters its channel's queue of 16 and commits; a channel that may work takes it at once: a session opens from a record that passes its checks, a chunk joins the stream and completes once its syntax finds room, a picture begins, a flush writes its END record; a command that a rule refuses ends with CODEC_REFUSED and its cause. How many units of syntax a chunk makes is free (log entry 9). At S5 nothing happens. -/
def Obligations.CodecCommands : Prop := ∀ (s : State) (c : CoreId), eventsOpen s →
  (let rows : List (Instr × Nat) := [(.codecConfig c, 0x38), (.codecDecode c, 0x39), (.codecEncode c, 0x3A), (.codecFlush c, 0x3B)]
   let alone := fun (n : Nat) => ∀ j, j < 16 → j ≠ n → ∀ y ∈ (codecOf s j).cmds, y.core ≠ c.val
   let G := fun (t : State) => Frame (fun j => (∃ l, recordRegs l j) ∨ ∃ m, pageRegs (codecKey m 0) j) ([.cores, .entries, .codecs, .knotQ] ++ recordParts) s t
   ∀ p ∈ rows,
     (s.power.s5 = true → exec p.1 s = .next s) ∧ (∃ t, exec p.1 s = .next t ∧ G t) ∧
     (issuedFresh s c (isOp p.2) = none → (∀ j, j < 16 → ∀ y ∈ (codecOf s j).cmds, y.core ≠ c.val) → exec p.1 s = .next s) ∧
     (∀ x, s.power.s5 = false → issuedFresh s c (isOp p.2) = some x →
       (let n := wfld x.words 5 3 0
        let k := codecOf s n
        let l := coreLoom s c
        let cmd : CodecCmd := { core := c, idx := x.idx, words := x.words }
        let s1 := fresh (takeCmd s c p.2)
        let full := 16 ≤ k.cmds.length ∨ (blkOf s (codecKey n 0)).pending = true ∨ (blkOf s (codecKey n 0)).resetting = true
        let waits := fun (t : State) => (coreOf t c).done = (coreOf s c).done ∧ (∃ y ∈ (coreOf t c).slots, y.idx = x.idx ∧ y.committing = true)
        let own := ((coreOf s c).slots.find? fun y => decide (y.idx = x.idx)).getD x
        let ends := fun (t : State) => Completed s t c x ∧ t.knotQ = s.knotQ ++ endSignal own ∧ (codecOf t n).cmds = []
        let F := fun (t : State) => LoomStores s t l [] 0 ∧ Frame (fun j => recordRegs l j ∨ ∃ m, pageRegs (codecKey m 0) j) ([.cores, .entries, .codecs, .knotQ] ++ recordParts) s t
        let refused := fun (cause : Nat) => ∃ t, exec p.1 s = .next t ∧ ends t ∧ (codecOf t n).session = k.session ∧ rdF t (codecKey n 0x118) 7 0 = cause ∧
          (loomSt s l ≠ 0 → ∃ v ∈ tget [] t.produced l, v.type = 0x100 ∧ v.srcType = 0x070 ∧ v.info0 = BitVec.ofNat 64 n ∧ v.info1 = BitVec.ofNat 64 cause) ∧ F t
        let member := ganged s n = true ∧ leaderOf n ≠ n
        let addr := (w64 x.words 6).toNat
        let r := sess k 36 3 % 2 ^ 18
        let pushed := fun (t : State) => (ringOf t r).wp = (ringOf s r).wp + 1
        let push := codecPush s1 n (codecRecord s1 n 2 0 0 0 0 0 0 0 0)
        let put := push.2 = true ∧ accessesServed push.1
        let opening := loomRead (setCodec s1 n { codecOf s1 n with on := true }) (codecWho n) l addr 256
        let chunk := loomRead s1 (codecWho n) l addr (x.words.getD 8 0).toNat
        (full → alone n → (∀ y ∈ k.cmds, y.core ≠ c.val) → exec p.1 s = .next s) ∧
        (¬ full → alone n → codecRuns s n = false → ∃ t, exec p.1 s = .next t ∧ (codecOf t n).cmds = k.cmds ++ [cmd] ∧ (codecOf t n).loom = l ∧ waits t ∧
          Frame (fun j => ∃ m, pageRegs (codecKey m 0) j) [.cores, .entries, .codecs] s t) ∧
        (¬ full → alone n → codecRuns s n = true → k.cmds = [] →
          (member → refused 5) ∧
          (¬ member → k.session = none → p.2 ≠ 0x38 → refused 1) ∧
          (¬ member → k.session = none → p.2 = 0x38 →
            (∀ u e, opening = (u, .error e) → accessesServed u → refused 2) ∧
            (∀ u b, opening = (u, .ok b) → accessesServed u → sessionBad s l n b = true → refused 2) ∧
            (∀ u b, opening = (u, .ok b) → accessesServed u → sessionBad s l n b = false → ∃ t, exec p.1 s = .next t ∧ ends t ∧ (codecOf t n).session = some b ∧
              (codecOf t n).on = true ∧ (codecOf t n).loom = l ∧ F t)) ∧
          (¬ member → k.session ≠ none → p.2 = 0x39 → isEnc n = true → refused 6) ∧
          (¬ member → k.session ≠ none → p.2 = 0x3A → isEnc n = false → refused 6) ∧
          (¬ member → k.session ≠ none → p.2 = 0x3A → isEnc n = true → wfld x.words 8 8 0 ≠ ctbRows k → refused 2) ∧
          (∀ u bs, ¬ member → k.session ≠ none → p.2 = 0x39 → isEnc n = false → chunk = (u, .ok bs) → accessesServed u →
            ∃ t, exec p.1 s = .next t ∧ (codecOf t n).stream = k.stream.dropLast ++ [(k.stream.getLast?.getD []) ++ bs] ∧
              (codecOf t n).marks = k.marks ++ [((k.stream.map List.length).sum, w64 x.words 10)] ∧
              rd t (codecKey n 0x114) = rd s (codecKey n 0x114) + BitVec.ofNat 32 ((k.bytes + bs.length) / 4096) ∧ (codecOf t n).bytes = (k.bytes + bs.length) % 4096 ∧
              (synFull (codecOf t n) = false → ends t ∧ (codecOf t n).waitSince = some s.time) ∧
              (synFull (codecOf t n) = true → waits t ∧ (codecOf t n).cmds = [{ cmd with read := true }] ∧ (codecOf t n).waitSince = none) ∧ F t) ∧
          (∀ u e, ¬ member → k.session ≠ none → p.2 = 0x39 → isEnc n = false → chunk = (u, .error e) → accessesServed u →
            ∃ t, exec p.1 s = .next t ∧ ends t ∧ (codecOf t n).stream = k.stream ∧ F t) ∧
          (¬ member → k.session ≠ none → p.2 = 0x3A → isEnc n = true → wfld x.words 8 8 0 = ctbRows k → ∃ t, exec p.1 s = .next t ∧ waits t ∧ (codecOf t n).cmds = [cmd] ∧
            (k.cur = none → (codecOf t n).cur = (beginPicture k cmd).cur) ∧ (k.cur ≠ none → (codecOf t n).cur = k.cur) ∧ F t) ∧
          (¬ member → k.session ≠ none → (p.2 = 0x38 ∨ p.2 = 0x3B) → flushed s n = false → ∃ t, exec p.1 s = .next t ∧ waits t ∧ (codecOf t n).cmds = [cmd] ∧ (codecOf t n).session = k.session ∧ F t) ∧
          (¬ member → k.session ≠ none → p.2 = 0x3B → flushed s n = true → put → ∃ t, exec p.1 s = .next t ∧ ends t ∧ pushed t ∧
            (wfld x.words 5 4 4 = 1 → (codecOf t n).session = none ∧ (codecOf t n).on = false) ∧ (wfld x.words 5 4 4 ≠ 1 → (codecOf t n).session = k.session) ∧ F t) ∧
          (¬ member → k.session ≠ none → p.2 = 0x38 → flushed s n = true → put → ∃ t, exec p.1 s = .next t ∧ pushed t ∧ F t)))))

/-- R352, R362, R363, R364, R365, R366, R367, R369, R370, R371, R373, R374, while no producer of events waits: a band whose knot is reached joins its picture, which is complete with its last band and ended by a band that fails; a slice that fits the bitstream buffer is written, recorded and counted, a picture ended by an error gets its last record; a decoded picture waits for its syntax, goes into a free buffer, is recorded and counted; a sequence that is not supported is recorded and refused; a wait for input longer than STALL_US is posted once; a fault stops the channel. Where a row does nothing of its own, the channel's waiting commands go on as far as they can. What the codec computes is free (log entry 9). At S5 nothing happens. -/
def Obligations.CodecPictures : Prop := ∀ (s : State) (n : ChanId), eventsOpen s →
  (let k := codecOf s n
   let l := k.loom
   let r := sess k 36 3 % 2 ^ 18
   let pushed := fun (t : State) => (ringOf t r).wp = (ringOf s r).wp + 1
   let F := fun (t : State) => Frame (fun j => recordRegs l j ∨ ∃ m, pageRegs (codecKey m 0) j) ([.cores, .codecs, .knotQ] ++ recordParts) s t
   let only := fun (i : Instr) => exec i s = .next (keep s (chanGo (fresh s) n))
   let put := fun (p : State × Bool) => p.2 = true ∧ accessesServed p.1
   (∀ damage refMissing hashBad size bits, ∀ i ∈ [Instr.codecBandRead n, .codecSliceDone n, .codecPictureDone n damage refMissing hashBad, .sequenceUnsupported n size, .codecStall n, .codecFault n bits],
     s.power.s5 = true → exec i s = .next s) ∧
   (∀ damage refMissing hashBad size, ∀ i ∈ [Instr.codecBandRead n, .codecSliceDone n, .codecPictureDone n damage refMissing hashBad, .sequenceUnsupported n size],
     ∃ t, exec i s = .next t ∧ LoomStores s t l [] 0 ∧ F t) ∧
   (s.power.s5 = false →
    ((k.cmds = [] ∨ k.cur = none) → only (.codecBandRead n)) ∧
    (∀ x rest q, k.cmds = x :: rest → k.cur = some q →
      (let works := codecRuns s n = true ∧ opcode x.words = 0x3A ∧ (lookahead s k = 0 ∨ k.held.length < lookahead s k)
       let steady := works ∧ k.session ≠ none ∧ (ganged s n = false ∨ leaderOf n = n.val) ∧ isEnc n = true ∧ wfld x.words 8 8 0 = ctbRows k
       let band := bandRecord (fresh s) n x
       (¬ works → only (.codecBandRead n)) ∧
       (∀ t0 b, steady → band = (t0, .ok b) → accessesServed t0 → knotFieldOk s l (fieldLe b 20 2) = true → bandReady s b = false → ∃ t, exec (.codecBandRead n) s = .next t ∧
         (codecOf t n).waitSince = some (k.waitSince.getD s.time) ∧ (codecOf t n).cur = some q ∧ (codecOf t n).cmds = k.cmds ∧ F t) ∧
       (∀ t0 b u luma v chroma w, steady → rest = [] → band = (t0, .ok b) → knotFieldOk s l (fieldLe b 20 2) = true → bandReady s b = true →
         readRows t0 n (fieldLe b 16 4) (encRow k) (bandRows k x.band).1 (fieldLe b 0 8) = (u, .ok luma) →
         readRows u n (fieldLe b 16 4) (encRow k) (bandRows k x.band).2 (fieldLe b 8 8) = (v, .ok chroma) →
         copyBand v n x.band (luma.map (cleanRow k)) (chroma.map (cleanRow k)) = (w, none) → accessesServed w →
         (let q1 := { q with bands := q.bands ++ [(luma.map (cleanRow k) ++ chroma.map (cleanRow k)).flatten] }
          (x.band + 1 ≠ ctbRows k → ∃ t, exec (.codecBandRead n) s = .next t ∧ (codecOf t n).cur = some q1 ∧ (codecOf t n).cmds = [{ x with band := x.band + 1 }] ∧
            (sess k 70 2 ≠ 0xFFFF → t.knotQ = s.knotQ ++ [{ idx := sess k 70 2, set := false, value := 1 }]) ∧ F t) ∧
          (x.band + 1 = ctbRows k → ∃ t, exec (.codecBandRead n) s = .next t ∧ (codecOf t n).cur = none ∧ (codecOf t n).held = k.held ++ [q1] ∧ (codecOf t n).cmds = [] ∧
            (∀ y, (coreOf s x.core).slots.find? (fun y => decide (y.idx = x.idx) && y.committing) = some y → Completed s t x.core y) ∧ F t))) ∧
       (∀ t0 e, works → rest = [] → band = (t0, .error e) → accessesServed t0 → ∃ t, exec (.codecBandRead n) s = .next t ∧ (codecOf t n).cur = none ∧
         (codecOf t n).held = k.held ++ [{ q with err := true }] ∧ (codecOf t n).cmds = [] ∧ F t))) ∧
    (let u := startSlice (fresh s) n
     let s1 := setCodec u n { codecOf u n with used := stillUsed u (codecOf u n) }
     let k := codecOf s1 n
     let works := codecClock s n = true ∧ isEnc n = true ∧ k.session ≠ none ∧ (codecRuns s n = true ∨ k.made = true) ∧ outReady s1 n = true
     let mark := fun (q : CodecPic) => 16 * b2n q.key + 32 * b2n (decide (1 ≤ shedLevel s) && decide (0 < byteAt (k.session.getD []) 3 / 16))
     let coded := fun (t : State) (errs : Nat) (q : CodecPic) => (codecOf t n).picSeq = k.picSeq + 1 ∧ (codecOf t n).slice = 0 ∧ (codecOf t n).held = k.held.drop 1 ∧
       (codecOf t n).coded = k.coded ++ [(q.bands.flatten, q.force, min (lookahead s k) k.held.length)] ∧
       rd t (codecKey n 0x108) = rd s (codecKey n 0x108) + 1 ∧ rd t (codecKey n 0x10C) = rd s (codecKey n 0x10C) + BitVec.ofNat 32 errs ∧
       (sess k 88 2 ≠ 0xFFFF → t.knotQ = s.knotQ ++ [{ idx := sess k 88 2, set := false, value := 1 }])
     ((¬ works ∨ codable s1 k = none) → only (.codecSliceDone n)) ∧
     (∀ q, works → codable s1 k = some q → q.err = false → k.made = false → only (.codecSliceDone n)) ∧
     (∀ q, works → codable s1 k = some q → q.err = true → k.cmds = [] → put (codecPush s1 n (codecRecord s1 n 1 (1 + 8 + mark q) (sess k 40 8 + k.bsPos) 0 0 q.pts 0 0 k.slice)) →
       ∃ t, exec (.codecSliceDone n) s = .next t ∧ pushed t ∧ coded t 1 q ∧ F t) ∧
     (∀ q, works → codable s1 k = some q → q.err = false → k.made = true →
       (let bs := nextSlice s1 k q
        let size := sess k 48 4
        let fits := (k.used.map fun u => u.2.2).sum + bs.length ≤ size
        let wb := writeBitstream s1 n k.bsPos bs
        let last := rowsTo k k.slice = ctbRows k
        (¬ fits → only (.codecSliceDone n)) ∧
        (fits → k.cmds = [] → outBad s1 n = false → wb.2 = none →
          put (codecPush wb.1 n (codecRecord wb.1 n 1 (8 * b2n (decide last) + mark q) (sess k 40 8 + k.bsPos) bs.length 0 q.pts 0 0 k.slice)) →
          ∃ t, exec (.codecSliceDone n) s = .next t ∧ pushed t ∧ (codecOf t n).bsPos = (k.bsPos + bs.length) % size ∧ (codecOf t n).used = k.used ++ [((ringOf s r).wp, k.bsPos, bs.length)] ∧
            rd t (codecKey n 0x114) = rd s (codecKey n 0x114) + BitVec.ofNat 32 ((k.bytes + bs.length) / 4096) ∧
            (last → coded t 0 q) ∧ (¬ last → (codecOf t n).slice = k.slice + 1 ∧ (codecOf t n).picSeq = k.picSeq) ∧ F t) ∧
        (∀ e more, fits → k.cmds = [] → outBad s1 n = false → wb.2 = some e → accessesServed wb.1 → k.held = q :: more → ∃ t, exec (.codecSliceDone n) s = .next t ∧
          (codecOf t n).held = { q with err := true } :: more ∧ (codecOf t n).picSeq = k.picSeq ∧ F t)))) ∧
    (let s1 := setCodec (fresh s) n { k with used := stillUsed s k }
     let k := codecOf s1 n
     let works := codecRuns s n = true ∧ isEnc n = false ∧ k.session ≠ none ∧ k.stream ≠ [] ∧ (ganged s n = false ∨ leaderOf n = n.val)
     let geo := Config.pictureGeometry (k.session.getD []) k.stream k.picSeq
     let start := Config.pictureStart (k.session.getD []) k.stream k.picSeq
     let nerr := fun (damage : List Nat) => errBlocks (cdiv geo.1 64) (cdiv geo.2.1 64) damage
     (∀ damage refMissing hashBad, (let done := exec (.codecPictureDone n damage refMissing hashBad) s
       (¬ works → only (.codecPictureDone n damage refMissing hashBad)) ∧
       (works → k.syn < unitsNeeded k → k.cmds = [] → ∃ t, done = .next t ∧ (codecOf t n).eaten = k.eaten + k.syn ∧ (codecOf t n).syn = 0 ∧ (codecOf t n).picSeq = k.picSeq ∧ F t) ∧
       (works → unitsNeeded k ≤ k.syn → (outReady s1 n = false ∨ freeBuffer k = none) → only (.codecPictureDone n damage refMissing hashBad)) ∧
       (∀ i, works → unitsNeeded k ≤ k.syn → outReady s1 n = true → outBad s1 n = false → freeBuffer k = some i → k.cmds = [] →
         (let wp := writePicture s1 n k (sess k 56 8 + i * sess k 64 4) damage
          let flags := b2n (decide (0 < nerr damage)) + 2 * b2n refMissing + 4 * b2n hashBad + 16 * b2n start.2
          wp.2 = none → put (codecPush wp.1 n (codecRecord wp.1 n 0 flags (sess k 56 8 + i * sess k 64 4) i (nerr damage) (ptsAt k.marks start.1) geo.1 geo.2.1 0)) →
          ∃ t, done = .next t ∧ i < sess k 68 2 ∧ (∀ u ∈ k.used, u.2.1 ≠ i) ∧ pushed t ∧ (codecOf t n).picSeq = k.picSeq + 1 ∧ (codecOf t n).used = k.used ++ [((ringOf s r).wp, i, 1)] ∧
            (codecOf t n).discard = false ∧ rd t (codecKey n 0x108) = rd s (codecKey n 0x108) + 1 ∧
            rd t (codecKey n 0x10C) = rd s (codecKey n 0x10C) + (if 0 < nerr damage then 1 else 0) ∧ rd t (codecKey n 0x110) = rd s (codecKey n 0x110) + (if refMissing then 1 else 0) ∧
            (sess k 88 2 ≠ 0xFFFF → t.knotQ = s.knotQ ++ [{ idx := sess k 88 2, set := false, value := 1 }]) ∧ F t)))) ∧
     (let open0 := codecRuns s n = true ∧ isEnc n = false ∧ k.session ≠ none ∧ k.stream ≠ []
      ∀ size, (¬ open0 → only (.sequenceUnsupported n size)) ∧
        (open0 → k.cmds = [] → put (codecPush (fresh s) n (codecRecord (fresh s) n 3 64 0 0 0 (ptsAt k.marks start.1) geo.1 geo.2.1 0)) → ∃ t, exec (.sequenceUnsupported n size) s = .next t ∧
          pushed t ∧ (codecOf t n).discard = true ∧ rdF t (codecKey n 0x118) 7 0 = (if size then 4 else 3) ∧
          (loomSt s l ≠ 0 → ∃ v ∈ tget [] t.produced l, v.type = 0x100 ∧ v.info0 = BitVec.ofNat 64 n.val ∧ v.info1 = BitVec.ofNat 64 (if size then 4 else 3)) ∧ F t))) ∧
    (let due := ∃ t0, k.waitSince = some t0 ∧ k.session ≠ none ∧ sess k 72 3 ≠ 0 ∧ k.stallPosted = false ∧ elapsedUs s.time t0 (sess k 72 3) = true
     (¬ due → exec (.codecStall n) s = .next s) ∧
     (due → ∃ t, exec (.codecStall n) s = .next t ∧ (codecOf t n).stallPosted = true ∧ (∀ j, j ≠ n.val → codecOf t j = codecOf s j) ∧
       (loomSt s l ≠ 0 → ∃ v ∈ tget [] t.produced l, v.type = 0x101 ∧ v.srcType = 0x070 ∧ v.info0 = BitVec.ofNat 64 n.val ∧
         (isEnc n = false → v.info1 = BitVec.ofNat 64 (k.stream.map List.length).sum)) ∧ Frame noReg [.codecs, .produced] s t)) ∧
    (∀ bits : BitVec 8, (fbit (rd s (codecKey n 0x100)) 10 = true → exec (.codecFault n bits) s = .next s) ∧
      (fbit (rd s (codecKey n 0x100)) 10 = false → ∃ t, exec (.codecFault n bits) s = .next t ∧ fbit (rd t (codecKey n 0x100)) 10 = true ∧
        (∀ i, i < 8 → bits.getLsbD i = true → fbit (rd t (codecKey n 0x10)) i = true) ∧
        (let own := (ownerOfPage s (codecKey n 0)).getD l
         loomSt s own ≠ 0 → ∃ v ∈ tget [] t.produced own, v.type = 0x103 ∧ v.info0 = BitVec.ofNat 64 n.val ∧ v.info1 = BitVec.ofNat 64 (rdF t (codecKey n 0x10) 7 0)) ∧
        Frame (pageRegs (codecKey n 0)) [.codecs, .produced] s t))))

-- ## The machine as a whole

/-- R197, R226, R254, R276, R299, R332, R396, R413, R430, R440, R442: the registers that reset leaves at a value other than zero, and that value; a port with a neighbour holds its 32 credits, one without shows its edge; every loom is DESTROYED, the timestamp is 0, nothing waits and the storage is empty. What the spec gives no reset value for is named in log entries 4 to 7. -/
def Obligations.ResetValues : Prop :=
  (∀ c : CoreId, rdF State.reset (coreKey c 0x108) 2 0 = 7 ∧ rdF State.reset (coreKey c 0x108) 6 4 = 7 ∧ rd State.reset (coreKey c 0x180) = 0 ∧
    ∀ d : Fin 4, (hasNbr State.reset c d = true → rd State.reset (coreKey c (0x120 + 4 * d)) = 32) ∧
      (hasNbr State.reset c d = false → fbit (rd State.reset (coreKey c (0x120 + 4 * d))) 16 = true)) ∧
  (∀ k : Fin 8, rd State.reset (0x20100 + 4 * k) = 1) ∧ rd State.reset 0x21100 = 4096 ∧
  (∀ l : LoomId, rdF State.reset (loomKey l 0x10C) 13 12 = 1 ∧ rdF State.reset (loomKey l 0x480) 5 3 = 7 ∧ rdF State.reset (loomKey l 0x480) 9 6 = 1 ∧
    rdF State.reset (loomKey l 0x480) 18 10 = 256 ∧ rdF State.reset (loomKey l 0x484) 15 0 = 200 ∧ rd State.reset (loomKey l 0x4B8) = 1 ∧
    rd State.reset (tapKey (0x200 + 4 * l)) = 16384 ∧ rdF State.reset (tapKey (0x180 + 4 * l)) 22 16 = 64 ∧ loomSt State.reset l = 0 ∧
    ∀ st : StackId, rdF State.reset (loomKey l (0x1C0 + 4 * st)) 22 16 = 64) ∧
  (∀ st : StackId, rdF State.reset (drcKey st 0x118) 0 0 = 1 ∧ rdF State.reset (drcKey st 0x118) 15 8 = 24) ∧
  rd State.reset (tapKey 0x114) = 100 ∧ rdF State.reset (pcmKey 0x114) 11 0 = 2600 ∧ rd State.reset (rstKey 0x100) = 1 ∧ rd State.reset (rstKey 0x10C) = 1000 ∧
  rdF State.reset (mbxKey 0x200) 19 0 = 1000 ∧ rdF State.reset (mbxKey 0x200) 30 20 = 2047 ∧ rd State.reset (mbxKey 0x204) = 1000 ∧ rd State.reset (mbxKey 0x208) = 1024 ∧
  rd State.reset (rstKey 0x108) = 0 ∧ State.reset.time = 0 ∧ State.reset.pending = [] ∧ StorageWf State.reset ∧ (∀ a, cget State.reset.mem a = 0)

/-- The model's own step (DESIGN CHOICE, log entry 1): the command at the front of the queue runs on the state with the rest of the queue, and on an empty queue the always-on domain ticks: the timestamp counts one tick of 51.2 ns (R376), GPIO_IN shows the pins (R444), byte buckets fill up to their bursts and what a loom owes to a stack shrinks (R292, R320), a core asked to stop counts its cycles until it stops (R250), and only the counters of waiting time change beside: that of bolt-store space only while an entry waits for it, a core's only while it holds an operation (R69, R88, R95, R197, R215, R223, R331; log entry 11). -/
def Obligations.StepRunsFront : Prop :=
  (∀ (c : Instr) (r : List Instr) (s : State), step { s with pending := c :: r } = exec c { s with pending := r }) ∧
  (∀ s : State, s.pending = [] → ∃ t, step s = .next t ∧ t.time = s.time + 1 ∧ t.fuse = s.fuse ∧ t.pending = [] ∧ rd t 0x120 = s.board.gpio.setWidth 32 ∧
    (∀ k, k ∉ [0x120, 0x21104, 0x10184] → (∀ p, p < 16 → k ≠ wfpKey p 0x120) → (∀ c o, o ∈ [0x110, 0x130, 0x188, 0x1D4] → k ≠ coreKey c o) → rd t k = rd s k) ∧
    ((∀ e ∈ s.entries, e.phase ≠ .waitStore) → rd t 0x21104 = rd s 0x21104) ∧
    (∀ c : CoreId, (coreOf s c).slots = [] → ∀ o ∈ [0x110, 0x130, 0x188, 0x1D4], rd t (coreKey c o) = rd s (coreKey c o)) ∧
    (∀ c, coreOf t c = { coreOf s c with stopRan := (coreOf t c).stopRan } ∧ (coreOf s c).stopRan ≤ (coreOf t c).stopRan ∧
      (((coreOf s c).stopReq = false ∨ (coreOf s c).stopped = true) → coreOf t c = coreOf s c)) ∧
    (∀ p, p ∉ [Part.stackTab, Part.router, Part.cores] → p.same s t) ∧
    (∀ l : LoomId, tget 0 s.router.bucket l ≤ rdF s (tapKey (0x180 + 4 * l)) 22 16 * 1024 →
      tget 0 t.router.bucket l ≤ rdF s (tapKey (0x180 + 4 * l)) 22 16 * 1024 ∧ tget 0 s.router.bucket l ≤ tget 0 t.router.bucket l) ∧
    (∀ (l : LoomId) (st : StackId), tget 0 (stackOf t st).debt l ≤ tget 0 (stackOf s st).debt l ∧
      (tget 0 (stackOf s st).bucket l ≤ regCap s l st → tget 0 (stackOf t st).bucket l ≤ regCap s l st)))

/-- R7, R376, R398, R445: no step ends the machine, and whatever is commanded, the part keeps what identifies it and its enable map, its anti-rollback count, revoked keys and debug disable only grow; the timestamp counts by one on a tick, starts again at a power-on reset and is written by nothing else; a command takes itself from the queue and puts none there. -/
def Obligations.StepKeepsFusesAndTime : Prop := ∀ s : State,
  ∃ t, step s = .next t ∧ FusesGrow s.fuse t.fuse ∧ t.pending = s.pending.drop 1 ∧
    (s.pending = [] → t.time = s.time + 1) ∧
    (∀ c r, s.pending = c :: r → (∀ straps resetN, c ≠ .powerOnReset straps resetN) → t.time = s.time) ∧
    (∀ straps resetN r, s.pending = .powerOnReset straps resetN :: r → t.time = 0)

/-- Every step keeps the canonical form of local memory, host memory and flash (the form is the model's; log entry 4): equal contents stay equal data, whatever command runs. -/
def Obligations.StepKeepsStorage : Prop := ∀ s t : State, StorageWf s → step s = .next t → StorageWf t

-- ## Number formats

/-- R25, R27, R36, R38: for every floating format and MX element, every encoding that is no NaN is the encoding of the value it stands for, and every NaN is written as the canonical one; a value that the format represents is rounded to itself in every mode without a flag, but a subnormal under FTZ, which becomes a zero of its sign with UNDERFLOW and INEXACT. -/
def Obligations.StoredFormats : Prop := ∀ code w : Nat, code < 10 → w < 2 ^ elemBits code →
  (decFloat code w ≠ .nan → encFloat code (decFloat code w) = w ∧
    (∀ c : RCtl, (c.ftz = false ∨ subElem code w = false) →
      encFloat code (runFM (roundTo (fspec code) c (decFloat code w))).1 = w ∧ (runFM (roundTo (fspec code) c (decFloat code w))).2 = 0) ∧
    (∀ c : RCtl, c.ftz = true → subElem code w = true →
      (runFM (roundTo (fspec code) c (decFloat code w))).1 = .fin (isNeg (decFloat code w)) 0 0 ∧
      (runFM (roundTo (fspec code) c (decFloat code w))).2 = fUnderflow ||| fInexact)) ∧
  (decFloat code w = .nan → code < 5 → decFloat code (encFloat code (decFloat code w)) = .nan ∧ encFloat code (decFloat code w) = nanBits code ∧ bitOf (nanBits code) (elemBits code - 1) = false)

/-- R38, R39: an exact magnitude m × 2^e that does not fit lies between two neighbours q and q + 1 of the format's grid; RTZ takes the lower, RNE the nearer and of two equally near the even one, SR the upper when the element's 32 random bits lie below the discarded fraction; a magnitude that fits is taken as it is, and only the others are inexact. -/
def Obligations.Rounding : Prop := ∀ (f : FSpec) (m : Nat) (e : Int), m ≠ 0 →
  (let u := max ((Nat.log2 m : Int) + e) f.emin - f.mb
   let k := (u - e).toNat
   let q := m / 2 ^ k
   let d := m % 2 ^ k
   (u ≤ e → ∀ rm, ∃ q1, roundMag f rm m e false = (q1, u, false) ∧ q1 = m * 2 ^ (e - u).toNat) ∧
   (e < u → q * 2 ^ k + d = m ∧ d < 2 ^ k ∧ q < 2 ^ (f.mb + 1) ∧
     roundMag f .rtz m e false = (q, u, decide (d ≠ 0)) ∧
     (∃ q1, roundMag f .rne m e false = (q1, u, decide (d ≠ 0)) ∧ (q1 = q ∨ q1 = q + 1) ∧ (2 * d < 2 ^ k → q1 = q) ∧ (2 ^ k < 2 * d → q1 = q + 1) ∧ (2 * d = 2 ^ k → q1 % 2 = 0)) ∧
     (∀ x, ∃ q1, roundMag f (.sr x) m e false = (q1, u, decide (d ≠ 0)) ∧ (x < d * 2 ^ 32 / 2 ^ k → q1 = q + 1) ∧ (d * 2 ^ 32 / 2 ^ k ≤ x → q1 = q))) ∧
   (∀ s, (runFM (roundTo f { rm := .rne } (.fin s m e))).2.getLsbD 2 = beyondMax f (roundMag f .rne m e false).1 (roundMag f .rne m e false).2.1))
end

