-- ==== Sys2Proof/Laws/State.lean ====
section
/-! SUPPORT. What each named update of State leaves alone: one lemma per field per update, true by rfl, so that no proof unfolds a record update. -/

namespace Sys2Proof.Machine

variable (s : State)

@[simp] theorem wr_fuse (k : Nat) (v : Word32) : (wr s k v).fuse = s.fuse := rfl
@[simp] theorem wr_time (k : Nat) (v : Word32) : (wr s k v).time = s.time := rfl
@[simp] theorem wr_live (k : Nat) (v : Word32) : (wr s k v).live = s.live := rfl
@[simp] theorem wr_mem (k : Nat) (v : Word32) : (wr s k v).mem = s.mem := rfl
@[simp] theorem wr_host (k : Nat) (v : Word32) : (wr s k v).host = s.host := rfl
@[simp] theorem wr_spi (k : Nat) (v : Word32) : (wr s k v).spi = s.spi := rfl
@[simp] theorem wr_badBlocks (k : Nat) (v : Word32) : (wr s k v).badBlocks = s.badBlocks := rfl
@[simp] theorem wr_knots (k : Nat) (v : Word32) : (wr s k v).knots = s.knots := rfl
@[simp] theorem wr_knotQ (k : Nat) (v : Word32) : (wr s k v).knotQ = s.knotQ := rfl
@[simp] theorem wr_board (k : Nat) (v : Word32) : (wr s k v).board = s.board := rfl
@[simp] theorem wr_boot (k : Nat) (v : Word32) : (wr s k v).boot = s.boot := rfl
@[simp] theorem wr_power (k : Nat) (v : Word32) : (wr s k v).power = s.power := rfl
@[simp] theorem wr_regions (k : Nat) (v : Word32) : (wr s k v).regions = s.regions := rfl
@[simp] theorem wr_rings (k : Nat) (v : Word32) : (wr s k v).rings = s.rings := rfl
@[simp] theorem wr_scan (k : Nat) (v : Word32) : (wr s k v).scan = s.scan := rfl
@[simp] theorem wr_entries (k : Nat) (v : Word32) : (wr s k v).entries = s.entries := rfl
@[simp] theorem wr_endSeq (k : Nat) (v : Word32) : (wr s k v).endSeq = s.endSeq := rfl
@[simp] theorem wr_produced (k : Nat) (v : Word32) : (wr s k v).produced = s.produced := rfl
@[simp] theorem wr_staged (k : Nat) (v : Word32) : (wr s k v).staged = s.staged := rfl
@[simp] theorem wr_msix (k : Nat) (v : Word32) : (wr s k v).msix = s.msix := rfl
@[simp] theorem wr_cores (k : Nat) (v : Word32) : (wr s k v).cores = s.cores := rfl
@[simp] theorem wr_looms (k : Nat) (v : Word32) : (wr s k v).looms = s.looms := rfl
@[simp] theorem wr_creel (k : Nat) (v : Word32) : (wr s k v).creel = s.creel := rfl
@[simp] theorem wr_admitSeq (k : Nat) (v : Word32) : (wr s k v).admitSeq = s.admitSeq := rfl
@[simp] theorem wr_creelCache (k : Nat) (v : Word32) : (wr s k v).creelCache = s.creelCache := rfl
@[simp] theorem wr_stacks (k : Nat) (v : Word32) : (wr s k v).stackTab = s.stackTab := rfl
@[simp] theorem wr_links (k : Nat) (v : Word32) : (wr s k v).links = s.links := rfl
@[simp] theorem wr_router (k : Nat) (v : Word32) : (wr s k v).router = s.router := rfl
@[simp] theorem wr_coh (k : Nat) (v : Word32) : (wr s k v).coh = s.coh := rfl
@[simp] theorem wr_coll (k : Nat) (v : Word32) : (wr s k v).coll = s.coll := rfl
@[simp] theorem wr_codecs (k : Nat) (v : Word32) : (wr s k v).codecs = s.codecs := rfl
@[simp] theorem wr_ledger (k : Nat) (v : Word32) : (wr s k v).ledger = s.ledger := rfl
@[simp] theorem wr_ceCounts (k : Nat) (v : Word32) : (wr s k v).ceCounts = s.ceCounts := rfl
@[simp] theorem wr_blks (k : Nat) (v : Word32) : (wr s k v).blks = s.blks := rfl
@[simp] theorem wr_resp (k : Nat) (v : Word32) : (wr s k v).resp = s.resp := rfl
@[simp] theorem wr_freeCtr (k : Nat) (v : Word32) : (wr s k v).freeCtr = s.freeCtr := rfl
@[simp] theorem wr_hostFn (k : Nat) (v : Word32) : (wr s k v).hostFn = s.hostFn := rfl
@[simp] theorem wr_posted (k : Nat) (v : Word32) : (wr s k v).posted = s.posted := rfl
@[simp] theorem wr_trip (k : Nat) (v : Word32) : (wr s k v).trip = s.trip := rfl
@[simp] theorem wr_pending (k : Nat) (v : Word32) : (wr s k v).pending = s.pending := rfl

@[simp] theorem memWr_fuse (a : Nat) (bs : List Byte) : (memWr s a bs).fuse = s.fuse := rfl
@[simp] theorem memWr_time (a : Nat) (bs : List Byte) : (memWr s a bs).time = s.time := rfl
@[simp] theorem memWr_regs (a : Nat) (bs : List Byte) : (memWr s a bs).regs = s.regs := rfl
@[simp] theorem memWr_live (a : Nat) (bs : List Byte) : (memWr s a bs).live = s.live := rfl
@[simp] theorem memWr_host (a : Nat) (bs : List Byte) : (memWr s a bs).host = s.host := rfl
@[simp] theorem memWr_spi (a : Nat) (bs : List Byte) : (memWr s a bs).spi = s.spi := rfl
@[simp] theorem memWr_badBlocks (a : Nat) (bs : List Byte) : (memWr s a bs).badBlocks = s.badBlocks := rfl
@[simp] theorem memWr_knots (a : Nat) (bs : List Byte) : (memWr s a bs).knots = s.knots := rfl
@[simp] theorem memWr_knotQ (a : Nat) (bs : List Byte) : (memWr s a bs).knotQ = s.knotQ := rfl
@[simp] theorem memWr_board (a : Nat) (bs : List Byte) : (memWr s a bs).board = s.board := rfl
@[simp] theorem memWr_boot (a : Nat) (bs : List Byte) : (memWr s a bs).boot = s.boot := rfl
@[simp] theorem memWr_power (a : Nat) (bs : List Byte) : (memWr s a bs).power = s.power := rfl
@[simp] theorem memWr_regions (a : Nat) (bs : List Byte) : (memWr s a bs).regions = s.regions := rfl
@[simp] theorem memWr_rings (a : Nat) (bs : List Byte) : (memWr s a bs).rings = s.rings := rfl
@[simp] theorem memWr_scan (a : Nat) (bs : List Byte) : (memWr s a bs).scan = s.scan := rfl
@[simp] theorem memWr_entries (a : Nat) (bs : List Byte) : (memWr s a bs).entries = s.entries := rfl
@[simp] theorem memWr_endSeq (a : Nat) (bs : List Byte) : (memWr s a bs).endSeq = s.endSeq := rfl
@[simp] theorem memWr_produced (a : Nat) (bs : List Byte) : (memWr s a bs).produced = s.produced := rfl
@[simp] theorem memWr_staged (a : Nat) (bs : List Byte) : (memWr s a bs).staged = s.staged := rfl
@[simp] theorem memWr_msix (a : Nat) (bs : List Byte) : (memWr s a bs).msix = s.msix := rfl
@[simp] theorem memWr_cores (a : Nat) (bs : List Byte) : (memWr s a bs).cores = s.cores := rfl
@[simp] theorem memWr_looms (a : Nat) (bs : List Byte) : (memWr s a bs).looms = s.looms := rfl
@[simp] theorem memWr_creel (a : Nat) (bs : List Byte) : (memWr s a bs).creel = s.creel := rfl
@[simp] theorem memWr_admitSeq (a : Nat) (bs : List Byte) : (memWr s a bs).admitSeq = s.admitSeq := rfl
@[simp] theorem memWr_creelCache (a : Nat) (bs : List Byte) : (memWr s a bs).creelCache = s.creelCache := rfl
@[simp] theorem memWr_stacks (a : Nat) (bs : List Byte) : (memWr s a bs).stackTab = s.stackTab := rfl
@[simp] theorem memWr_links (a : Nat) (bs : List Byte) : (memWr s a bs).links = s.links := rfl
@[simp] theorem memWr_router (a : Nat) (bs : List Byte) : (memWr s a bs).router = s.router := rfl
@[simp] theorem memWr_coh (a : Nat) (bs : List Byte) : (memWr s a bs).coh = s.coh := rfl
@[simp] theorem memWr_coll (a : Nat) (bs : List Byte) : (memWr s a bs).coll = s.coll := rfl
@[simp] theorem memWr_codecs (a : Nat) (bs : List Byte) : (memWr s a bs).codecs = s.codecs := rfl
@[simp] theorem memWr_ledger (a : Nat) (bs : List Byte) : (memWr s a bs).ledger = s.ledger := rfl
@[simp] theorem memWr_ceCounts (a : Nat) (bs : List Byte) : (memWr s a bs).ceCounts = s.ceCounts := rfl
@[simp] theorem memWr_blks (a : Nat) (bs : List Byte) : (memWr s a bs).blks = s.blks := rfl
@[simp] theorem memWr_resp (a : Nat) (bs : List Byte) : (memWr s a bs).resp = s.resp := rfl
@[simp] theorem memWr_freeCtr (a : Nat) (bs : List Byte) : (memWr s a bs).freeCtr = s.freeCtr := rfl
@[simp] theorem memWr_hostFn (a : Nat) (bs : List Byte) : (memWr s a bs).hostFn = s.hostFn := rfl
@[simp] theorem memWr_posted (a : Nat) (bs : List Byte) : (memWr s a bs).posted = s.posted := rfl
@[simp] theorem memWr_trip (a : Nat) (bs : List Byte) : (memWr s a bs).trip = s.trip := rfl
@[simp] theorem memWr_pending (a : Nat) (bs : List Byte) : (memWr s a bs).pending = s.pending := rfl
@[simp] theorem memWr_rd (a : Nat) (bs : List Byte) (j : Nat) : rd (memWr s a bs) j = rd s j := rfl

@[simp] theorem memZero_fuse (a n : Nat) : (memZero s a n).fuse = s.fuse := rfl
@[simp] theorem memZero_time (a n : Nat) : (memZero s a n).time = s.time := rfl
@[simp] theorem memZero_regs (a n : Nat) : (memZero s a n).regs = s.regs := rfl
@[simp] theorem memZero_live (a n : Nat) : (memZero s a n).live = s.live := rfl
@[simp] theorem memZero_host (a n : Nat) : (memZero s a n).host = s.host := rfl
@[simp] theorem memZero_spi (a n : Nat) : (memZero s a n).spi = s.spi := rfl
@[simp] theorem memZero_badBlocks (a n : Nat) : (memZero s a n).badBlocks = s.badBlocks := rfl
@[simp] theorem memZero_knots (a n : Nat) : (memZero s a n).knots = s.knots := rfl
@[simp] theorem memZero_knotQ (a n : Nat) : (memZero s a n).knotQ = s.knotQ := rfl
@[simp] theorem memZero_board (a n : Nat) : (memZero s a n).board = s.board := rfl
@[simp] theorem memZero_boot (a n : Nat) : (memZero s a n).boot = s.boot := rfl
@[simp] theorem memZero_power (a n : Nat) : (memZero s a n).power = s.power := rfl
@[simp] theorem memZero_regions (a n : Nat) : (memZero s a n).regions = s.regions := rfl
@[simp] theorem memZero_rings (a n : Nat) : (memZero s a n).rings = s.rings := rfl
@[simp] theorem memZero_scan (a n : Nat) : (memZero s a n).scan = s.scan := rfl
@[simp] theorem memZero_entries (a n : Nat) : (memZero s a n).entries = s.entries := rfl
@[simp] theorem memZero_endSeq (a n : Nat) : (memZero s a n).endSeq = s.endSeq := rfl
@[simp] theorem memZero_produced (a n : Nat) : (memZero s a n).produced = s.produced := rfl
@[simp] theorem memZero_staged (a n : Nat) : (memZero s a n).staged = s.staged := rfl
@[simp] theorem memZero_msix (a n : Nat) : (memZero s a n).msix = s.msix := rfl
@[simp] theorem memZero_cores (a n : Nat) : (memZero s a n).cores = s.cores := rfl
@[simp] theorem memZero_looms (a n : Nat) : (memZero s a n).looms = s.looms := rfl
@[simp] theorem memZero_creel (a n : Nat) : (memZero s a n).creel = s.creel := rfl
@[simp] theorem memZero_admitSeq (a n : Nat) : (memZero s a n).admitSeq = s.admitSeq := rfl
@[simp] theorem memZero_creelCache (a n : Nat) : (memZero s a n).creelCache = s.creelCache := rfl
@[simp] theorem memZero_stacks (a n : Nat) : (memZero s a n).stackTab = s.stackTab := rfl
@[simp] theorem memZero_links (a n : Nat) : (memZero s a n).links = s.links := rfl
@[simp] theorem memZero_router (a n : Nat) : (memZero s a n).router = s.router := rfl
@[simp] theorem memZero_coh (a n : Nat) : (memZero s a n).coh = s.coh := rfl
@[simp] theorem memZero_coll (a n : Nat) : (memZero s a n).coll = s.coll := rfl
@[simp] theorem memZero_codecs (a n : Nat) : (memZero s a n).codecs = s.codecs := rfl
@[simp] theorem memZero_ledger (a n : Nat) : (memZero s a n).ledger = s.ledger := rfl
@[simp] theorem memZero_ceCounts (a n : Nat) : (memZero s a n).ceCounts = s.ceCounts := rfl
@[simp] theorem memZero_blks (a n : Nat) : (memZero s a n).blks = s.blks := rfl
@[simp] theorem memZero_resp (a n : Nat) : (memZero s a n).resp = s.resp := rfl
@[simp] theorem memZero_freeCtr (a n : Nat) : (memZero s a n).freeCtr = s.freeCtr := rfl
@[simp] theorem memZero_hostFn (a n : Nat) : (memZero s a n).hostFn = s.hostFn := rfl
@[simp] theorem memZero_posted (a n : Nat) : (memZero s a n).posted = s.posted := rfl
@[simp] theorem memZero_trip (a n : Nat) : (memZero s a n).trip = s.trip := rfl
@[simp] theorem memZero_pending (a n : Nat) : (memZero s a n).pending = s.pending := rfl
@[simp] theorem memZero_rd (a n : Nat) (j : Nat) : rd (memZero s a n) j = rd s j := rfl

@[simp] theorem resetRegs_fuse (lo hi : Nat) : (resetRegs s lo hi).fuse = s.fuse := rfl
@[simp] theorem resetRegs_time (lo hi : Nat) : (resetRegs s lo hi).time = s.time := rfl
@[simp] theorem resetRegs_live (lo hi : Nat) : (resetRegs s lo hi).live = s.live := rfl
@[simp] theorem resetRegs_mem (lo hi : Nat) : (resetRegs s lo hi).mem = s.mem := rfl
@[simp] theorem resetRegs_host (lo hi : Nat) : (resetRegs s lo hi).host = s.host := rfl
@[simp] theorem resetRegs_spi (lo hi : Nat) : (resetRegs s lo hi).spi = s.spi := rfl
@[simp] theorem resetRegs_badBlocks (lo hi : Nat) : (resetRegs s lo hi).badBlocks = s.badBlocks := rfl
@[simp] theorem resetRegs_knots (lo hi : Nat) : (resetRegs s lo hi).knots = s.knots := rfl
@[simp] theorem resetRegs_knotQ (lo hi : Nat) : (resetRegs s lo hi).knotQ = s.knotQ := rfl
@[simp] theorem resetRegs_board (lo hi : Nat) : (resetRegs s lo hi).board = s.board := rfl
@[simp] theorem resetRegs_boot (lo hi : Nat) : (resetRegs s lo hi).boot = s.boot := rfl
@[simp] theorem resetRegs_power (lo hi : Nat) : (resetRegs s lo hi).power = s.power := rfl
@[simp] theorem resetRegs_regions (lo hi : Nat) : (resetRegs s lo hi).regions = s.regions := rfl
@[simp] theorem resetRegs_rings (lo hi : Nat) : (resetRegs s lo hi).rings = s.rings := rfl
@[simp] theorem resetRegs_scan (lo hi : Nat) : (resetRegs s lo hi).scan = s.scan := rfl
@[simp] theorem resetRegs_entries (lo hi : Nat) : (resetRegs s lo hi).entries = s.entries := rfl
@[simp] theorem resetRegs_endSeq (lo hi : Nat) : (resetRegs s lo hi).endSeq = s.endSeq := rfl
@[simp] theorem resetRegs_produced (lo hi : Nat) : (resetRegs s lo hi).produced = s.produced := rfl
@[simp] theorem resetRegs_staged (lo hi : Nat) : (resetRegs s lo hi).staged = s.staged := rfl
@[simp] theorem resetRegs_msix (lo hi : Nat) : (resetRegs s lo hi).msix = s.msix := rfl
@[simp] theorem resetRegs_cores (lo hi : Nat) : (resetRegs s lo hi).cores = s.cores := rfl
@[simp] theorem resetRegs_looms (lo hi : Nat) : (resetRegs s lo hi).looms = s.looms := rfl
@[simp] theorem resetRegs_creel (lo hi : Nat) : (resetRegs s lo hi).creel = s.creel := rfl
@[simp] theorem resetRegs_admitSeq (lo hi : Nat) : (resetRegs s lo hi).admitSeq = s.admitSeq := rfl
@[simp] theorem resetRegs_creelCache (lo hi : Nat) : (resetRegs s lo hi).creelCache = s.creelCache := rfl
@[simp] theorem resetRegs_stacks (lo hi : Nat) : (resetRegs s lo hi).stackTab = s.stackTab := rfl
@[simp] theorem resetRegs_links (lo hi : Nat) : (resetRegs s lo hi).links = s.links := rfl
@[simp] theorem resetRegs_router (lo hi : Nat) : (resetRegs s lo hi).router = s.router := rfl
@[simp] theorem resetRegs_coh (lo hi : Nat) : (resetRegs s lo hi).coh = s.coh := rfl
@[simp] theorem resetRegs_coll (lo hi : Nat) : (resetRegs s lo hi).coll = s.coll := rfl
@[simp] theorem resetRegs_codecs (lo hi : Nat) : (resetRegs s lo hi).codecs = s.codecs := rfl
@[simp] theorem resetRegs_ledger (lo hi : Nat) : (resetRegs s lo hi).ledger = s.ledger := rfl
@[simp] theorem resetRegs_ceCounts (lo hi : Nat) : (resetRegs s lo hi).ceCounts = s.ceCounts := rfl
@[simp] theorem resetRegs_blks (lo hi : Nat) : (resetRegs s lo hi).blks = s.blks := rfl
@[simp] theorem resetRegs_resp (lo hi : Nat) : (resetRegs s lo hi).resp = s.resp := rfl
@[simp] theorem resetRegs_freeCtr (lo hi : Nat) : (resetRegs s lo hi).freeCtr = s.freeCtr := rfl
@[simp] theorem resetRegs_hostFn (lo hi : Nat) : (resetRegs s lo hi).hostFn = s.hostFn := rfl
@[simp] theorem resetRegs_posted (lo hi : Nat) : (resetRegs s lo hi).posted = s.posted := rfl
@[simp] theorem resetRegs_trip (lo hi : Nat) : (resetRegs s lo hi).trip = s.trip := rfl
@[simp] theorem resetRegs_pending (lo hi : Nat) : (resetRegs s lo hi).pending = s.pending := rfl

@[simp] theorem setLoom_fuse (l : Nat) (x : Loom) : (setLoom s l x).fuse = s.fuse := rfl
@[simp] theorem setLoom_time (l : Nat) (x : Loom) : (setLoom s l x).time = s.time := rfl
@[simp] theorem setLoom_regs (l : Nat) (x : Loom) : (setLoom s l x).regs = s.regs := rfl
@[simp] theorem setLoom_live (l : Nat) (x : Loom) : (setLoom s l x).live = s.live := rfl
@[simp] theorem setLoom_mem (l : Nat) (x : Loom) : (setLoom s l x).mem = s.mem := rfl
@[simp] theorem setLoom_host (l : Nat) (x : Loom) : (setLoom s l x).host = s.host := rfl
@[simp] theorem setLoom_spi (l : Nat) (x : Loom) : (setLoom s l x).spi = s.spi := rfl
@[simp] theorem setLoom_badBlocks (l : Nat) (x : Loom) : (setLoom s l x).badBlocks = s.badBlocks := rfl
@[simp] theorem setLoom_knots (l : Nat) (x : Loom) : (setLoom s l x).knots = s.knots := rfl
@[simp] theorem setLoom_knotQ (l : Nat) (x : Loom) : (setLoom s l x).knotQ = s.knotQ := rfl
@[simp] theorem setLoom_board (l : Nat) (x : Loom) : (setLoom s l x).board = s.board := rfl
@[simp] theorem setLoom_boot (l : Nat) (x : Loom) : (setLoom s l x).boot = s.boot := rfl
@[simp] theorem setLoom_power (l : Nat) (x : Loom) : (setLoom s l x).power = s.power := rfl
@[simp] theorem setLoom_regions (l : Nat) (x : Loom) : (setLoom s l x).regions = s.regions := rfl
@[simp] theorem setLoom_rings (l : Nat) (x : Loom) : (setLoom s l x).rings = s.rings := rfl
@[simp] theorem setLoom_scan (l : Nat) (x : Loom) : (setLoom s l x).scan = s.scan := rfl
@[simp] theorem setLoom_entries (l : Nat) (x : Loom) : (setLoom s l x).entries = s.entries := rfl
@[simp] theorem setLoom_endSeq (l : Nat) (x : Loom) : (setLoom s l x).endSeq = s.endSeq := rfl
@[simp] theorem setLoom_produced (l : Nat) (x : Loom) : (setLoom s l x).produced = s.produced := rfl
@[simp] theorem setLoom_staged (l : Nat) (x : Loom) : (setLoom s l x).staged = s.staged := rfl
@[simp] theorem setLoom_msix (l : Nat) (x : Loom) : (setLoom s l x).msix = s.msix := rfl
@[simp] theorem setLoom_cores (l : Nat) (x : Loom) : (setLoom s l x).cores = s.cores := rfl
@[simp] theorem setLoom_creel (l : Nat) (x : Loom) : (setLoom s l x).creel = s.creel := rfl
@[simp] theorem setLoom_admitSeq (l : Nat) (x : Loom) : (setLoom s l x).admitSeq = s.admitSeq := rfl
@[simp] theorem setLoom_creelCache (l : Nat) (x : Loom) : (setLoom s l x).creelCache = s.creelCache := rfl
@[simp] theorem setLoom_stacks (l : Nat) (x : Loom) : (setLoom s l x).stackTab = s.stackTab := rfl
@[simp] theorem setLoom_links (l : Nat) (x : Loom) : (setLoom s l x).links = s.links := rfl
@[simp] theorem setLoom_router (l : Nat) (x : Loom) : (setLoom s l x).router = s.router := rfl
@[simp] theorem setLoom_coh (l : Nat) (x : Loom) : (setLoom s l x).coh = s.coh := rfl
@[simp] theorem setLoom_coll (l : Nat) (x : Loom) : (setLoom s l x).coll = s.coll := rfl
@[simp] theorem setLoom_codecs (l : Nat) (x : Loom) : (setLoom s l x).codecs = s.codecs := rfl
@[simp] theorem setLoom_ledger (l : Nat) (x : Loom) : (setLoom s l x).ledger = s.ledger := rfl
@[simp] theorem setLoom_ceCounts (l : Nat) (x : Loom) : (setLoom s l x).ceCounts = s.ceCounts := rfl
@[simp] theorem setLoom_blks (l : Nat) (x : Loom) : (setLoom s l x).blks = s.blks := rfl
@[simp] theorem setLoom_resp (l : Nat) (x : Loom) : (setLoom s l x).resp = s.resp := rfl
@[simp] theorem setLoom_freeCtr (l : Nat) (x : Loom) : (setLoom s l x).freeCtr = s.freeCtr := rfl
@[simp] theorem setLoom_hostFn (l : Nat) (x : Loom) : (setLoom s l x).hostFn = s.hostFn := rfl
@[simp] theorem setLoom_posted (l : Nat) (x : Loom) : (setLoom s l x).posted = s.posted := rfl
@[simp] theorem setLoom_trip (l : Nat) (x : Loom) : (setLoom s l x).trip = s.trip := rfl
@[simp] theorem setLoom_pending (l : Nat) (x : Loom) : (setLoom s l x).pending = s.pending := rfl
@[simp] theorem setLoom_rd (l : Nat) (x : Loom) (j : Nat) : rd (setLoom s l x) j = rd s j := rfl

@[simp] theorem setCore_fuse (c : Nat) (x : Core) : (setCore s c x).fuse = s.fuse := rfl
@[simp] theorem setCore_time (c : Nat) (x : Core) : (setCore s c x).time = s.time := rfl
@[simp] theorem setCore_regs (c : Nat) (x : Core) : (setCore s c x).regs = s.regs := rfl
@[simp] theorem setCore_live (c : Nat) (x : Core) : (setCore s c x).live = s.live := rfl
@[simp] theorem setCore_mem (c : Nat) (x : Core) : (setCore s c x).mem = s.mem := rfl
@[simp] theorem setCore_host (c : Nat) (x : Core) : (setCore s c x).host = s.host := rfl
@[simp] theorem setCore_spi (c : Nat) (x : Core) : (setCore s c x).spi = s.spi := rfl
@[simp] theorem setCore_badBlocks (c : Nat) (x : Core) : (setCore s c x).badBlocks = s.badBlocks := rfl
@[simp] theorem setCore_knots (c : Nat) (x : Core) : (setCore s c x).knots = s.knots := rfl
@[simp] theorem setCore_knotQ (c : Nat) (x : Core) : (setCore s c x).knotQ = s.knotQ := rfl
@[simp] theorem setCore_board (c : Nat) (x : Core) : (setCore s c x).board = s.board := rfl
@[simp] theorem setCore_boot (c : Nat) (x : Core) : (setCore s c x).boot = s.boot := rfl
@[simp] theorem setCore_power (c : Nat) (x : Core) : (setCore s c x).power = s.power := rfl
@[simp] theorem setCore_regions (c : Nat) (x : Core) : (setCore s c x).regions = s.regions := rfl
@[simp] theorem setCore_rings (c : Nat) (x : Core) : (setCore s c x).rings = s.rings := rfl
@[simp] theorem setCore_scan (c : Nat) (x : Core) : (setCore s c x).scan = s.scan := rfl
@[simp] theorem setCore_entries (c : Nat) (x : Core) : (setCore s c x).entries = s.entries := rfl
@[simp] theorem setCore_endSeq (c : Nat) (x : Core) : (setCore s c x).endSeq = s.endSeq := rfl
@[simp] theorem setCore_produced (c : Nat) (x : Core) : (setCore s c x).produced = s.produced := rfl
@[simp] theorem setCore_staged (c : Nat) (x : Core) : (setCore s c x).staged = s.staged := rfl
@[simp] theorem setCore_msix (c : Nat) (x : Core) : (setCore s c x).msix = s.msix := rfl
@[simp] theorem setCore_looms (c : Nat) (x : Core) : (setCore s c x).looms = s.looms := rfl
@[simp] theorem setCore_creel (c : Nat) (x : Core) : (setCore s c x).creel = s.creel := rfl
@[simp] theorem setCore_admitSeq (c : Nat) (x : Core) : (setCore s c x).admitSeq = s.admitSeq := rfl
@[simp] theorem setCore_creelCache (c : Nat) (x : Core) : (setCore s c x).creelCache = s.creelCache := rfl
@[simp] theorem setCore_stacks (c : Nat) (x : Core) : (setCore s c x).stackTab = s.stackTab := rfl
@[simp] theorem setCore_links (c : Nat) (x : Core) : (setCore s c x).links = s.links := rfl
@[simp] theorem setCore_router (c : Nat) (x : Core) : (setCore s c x).router = s.router := rfl
@[simp] theorem setCore_coh (c : Nat) (x : Core) : (setCore s c x).coh = s.coh := rfl
@[simp] theorem setCore_coll (c : Nat) (x : Core) : (setCore s c x).coll = s.coll := rfl
@[simp] theorem setCore_codecs (c : Nat) (x : Core) : (setCore s c x).codecs = s.codecs := rfl
@[simp] theorem setCore_ledger (c : Nat) (x : Core) : (setCore s c x).ledger = s.ledger := rfl
@[simp] theorem setCore_ceCounts (c : Nat) (x : Core) : (setCore s c x).ceCounts = s.ceCounts := rfl
@[simp] theorem setCore_blks (c : Nat) (x : Core) : (setCore s c x).blks = s.blks := rfl
@[simp] theorem setCore_resp (c : Nat) (x : Core) : (setCore s c x).resp = s.resp := rfl
@[simp] theorem setCore_freeCtr (c : Nat) (x : Core) : (setCore s c x).freeCtr = s.freeCtr := rfl
@[simp] theorem setCore_hostFn (c : Nat) (x : Core) : (setCore s c x).hostFn = s.hostFn := rfl
@[simp] theorem setCore_posted (c : Nat) (x : Core) : (setCore s c x).posted = s.posted := rfl
@[simp] theorem setCore_trip (c : Nat) (x : Core) : (setCore s c x).trip = s.trip := rfl
@[simp] theorem setCore_pending (c : Nat) (x : Core) : (setCore s c x).pending = s.pending := rfl
@[simp] theorem setCore_rd (c : Nat) (x : Core) (j : Nat) : rd (setCore s c x) j = rd s j := rfl

@[simp] theorem setRing_fuse (r : Nat) (x : Ring) : (setRing s r x).fuse = s.fuse := rfl
@[simp] theorem setRing_time (r : Nat) (x : Ring) : (setRing s r x).time = s.time := rfl
@[simp] theorem setRing_regs (r : Nat) (x : Ring) : (setRing s r x).regs = s.regs := rfl
@[simp] theorem setRing_live (r : Nat) (x : Ring) : (setRing s r x).live = s.live := rfl
@[simp] theorem setRing_mem (r : Nat) (x : Ring) : (setRing s r x).mem = s.mem := rfl
@[simp] theorem setRing_host (r : Nat) (x : Ring) : (setRing s r x).host = s.host := rfl
@[simp] theorem setRing_spi (r : Nat) (x : Ring) : (setRing s r x).spi = s.spi := rfl
@[simp] theorem setRing_badBlocks (r : Nat) (x : Ring) : (setRing s r x).badBlocks = s.badBlocks := rfl
@[simp] theorem setRing_knots (r : Nat) (x : Ring) : (setRing s r x).knots = s.knots := rfl
@[simp] theorem setRing_knotQ (r : Nat) (x : Ring) : (setRing s r x).knotQ = s.knotQ := rfl
@[simp] theorem setRing_board (r : Nat) (x : Ring) : (setRing s r x).board = s.board := rfl
@[simp] theorem setRing_boot (r : Nat) (x : Ring) : (setRing s r x).boot = s.boot := rfl
@[simp] theorem setRing_power (r : Nat) (x : Ring) : (setRing s r x).power = s.power := rfl
@[simp] theorem setRing_regions (r : Nat) (x : Ring) : (setRing s r x).regions = s.regions := rfl
@[simp] theorem setRing_scan (r : Nat) (x : Ring) : (setRing s r x).scan = s.scan := rfl
@[simp] theorem setRing_entries (r : Nat) (x : Ring) : (setRing s r x).entries = s.entries := rfl
@[simp] theorem setRing_endSeq (r : Nat) (x : Ring) : (setRing s r x).endSeq = s.endSeq := rfl
@[simp] theorem setRing_produced (r : Nat) (x : Ring) : (setRing s r x).produced = s.produced := rfl
@[simp] theorem setRing_staged (r : Nat) (x : Ring) : (setRing s r x).staged = s.staged := rfl
@[simp] theorem setRing_msix (r : Nat) (x : Ring) : (setRing s r x).msix = s.msix := rfl
@[simp] theorem setRing_cores (r : Nat) (x : Ring) : (setRing s r x).cores = s.cores := rfl
@[simp] theorem setRing_looms (r : Nat) (x : Ring) : (setRing s r x).looms = s.looms := rfl
@[simp] theorem setRing_creel (r : Nat) (x : Ring) : (setRing s r x).creel = s.creel := rfl
@[simp] theorem setRing_admitSeq (r : Nat) (x : Ring) : (setRing s r x).admitSeq = s.admitSeq := rfl
@[simp] theorem setRing_creelCache (r : Nat) (x : Ring) : (setRing s r x).creelCache = s.creelCache := rfl
@[simp] theorem setRing_stacks (r : Nat) (x : Ring) : (setRing s r x).stackTab = s.stackTab := rfl
@[simp] theorem setRing_links (r : Nat) (x : Ring) : (setRing s r x).links = s.links := rfl
@[simp] theorem setRing_router (r : Nat) (x : Ring) : (setRing s r x).router = s.router := rfl
@[simp] theorem setRing_coh (r : Nat) (x : Ring) : (setRing s r x).coh = s.coh := rfl
@[simp] theorem setRing_coll (r : Nat) (x : Ring) : (setRing s r x).coll = s.coll := rfl
@[simp] theorem setRing_codecs (r : Nat) (x : Ring) : (setRing s r x).codecs = s.codecs := rfl
@[simp] theorem setRing_ledger (r : Nat) (x : Ring) : (setRing s r x).ledger = s.ledger := rfl
@[simp] theorem setRing_ceCounts (r : Nat) (x : Ring) : (setRing s r x).ceCounts = s.ceCounts := rfl
@[simp] theorem setRing_blks (r : Nat) (x : Ring) : (setRing s r x).blks = s.blks := rfl
@[simp] theorem setRing_resp (r : Nat) (x : Ring) : (setRing s r x).resp = s.resp := rfl
@[simp] theorem setRing_freeCtr (r : Nat) (x : Ring) : (setRing s r x).freeCtr = s.freeCtr := rfl
@[simp] theorem setRing_hostFn (r : Nat) (x : Ring) : (setRing s r x).hostFn = s.hostFn := rfl
@[simp] theorem setRing_posted (r : Nat) (x : Ring) : (setRing s r x).posted = s.posted := rfl
@[simp] theorem setRing_trip (r : Nat) (x : Ring) : (setRing s r x).trip = s.trip := rfl
@[simp] theorem setRing_pending (r : Nat) (x : Ring) : (setRing s r x).pending = s.pending := rfl
@[simp] theorem setRing_rd (r : Nat) (x : Ring) (j : Nat) : rd (setRing s r x) j = rd s j := rfl

@[simp] theorem setRegion_fuse (r : Nat) (x : Region) : (setRegion s r x).fuse = s.fuse := rfl
@[simp] theorem setRegion_time (r : Nat) (x : Region) : (setRegion s r x).time = s.time := rfl
@[simp] theorem setRegion_regs (r : Nat) (x : Region) : (setRegion s r x).regs = s.regs := rfl
@[simp] theorem setRegion_live (r : Nat) (x : Region) : (setRegion s r x).live = s.live := rfl
@[simp] theorem setRegion_mem (r : Nat) (x : Region) : (setRegion s r x).mem = s.mem := rfl
@[simp] theorem setRegion_host (r : Nat) (x : Region) : (setRegion s r x).host = s.host := rfl
@[simp] theorem setRegion_spi (r : Nat) (x : Region) : (setRegion s r x).spi = s.spi := rfl
@[simp] theorem setRegion_badBlocks (r : Nat) (x : Region) : (setRegion s r x).badBlocks = s.badBlocks := rfl
@[simp] theorem setRegion_knots (r : Nat) (x : Region) : (setRegion s r x).knots = s.knots := rfl
@[simp] theorem setRegion_knotQ (r : Nat) (x : Region) : (setRegion s r x).knotQ = s.knotQ := rfl
@[simp] theorem setRegion_board (r : Nat) (x : Region) : (setRegion s r x).board = s.board := rfl
@[simp] theorem setRegion_boot (r : Nat) (x : Region) : (setRegion s r x).boot = s.boot := rfl
@[simp] theorem setRegion_power (r : Nat) (x : Region) : (setRegion s r x).power = s.power := rfl
@[simp] theorem setRegion_rings (r : Nat) (x : Region) : (setRegion s r x).rings = s.rings := rfl
@[simp] theorem setRegion_scan (r : Nat) (x : Region) : (setRegion s r x).scan = s.scan := rfl
@[simp] theorem setRegion_entries (r : Nat) (x : Region) : (setRegion s r x).entries = s.entries := rfl
@[simp] theorem setRegion_endSeq (r : Nat) (x : Region) : (setRegion s r x).endSeq = s.endSeq := rfl
@[simp] theorem setRegion_produced (r : Nat) (x : Region) : (setRegion s r x).produced = s.produced := rfl
@[simp] theorem setRegion_staged (r : Nat) (x : Region) : (setRegion s r x).staged = s.staged := rfl
@[simp] theorem setRegion_msix (r : Nat) (x : Region) : (setRegion s r x).msix = s.msix := rfl
@[simp] theorem setRegion_cores (r : Nat) (x : Region) : (setRegion s r x).cores = s.cores := rfl
@[simp] theorem setRegion_looms (r : Nat) (x : Region) : (setRegion s r x).looms = s.looms := rfl
@[simp] theorem setRegion_creel (r : Nat) (x : Region) : (setRegion s r x).creel = s.creel := rfl
@[simp] theorem setRegion_admitSeq (r : Nat) (x : Region) : (setRegion s r x).admitSeq = s.admitSeq := rfl
@[simp] theorem setRegion_creelCache (r : Nat) (x : Region) : (setRegion s r x).creelCache = s.creelCache := rfl
@[simp] theorem setRegion_stacks (r : Nat) (x : Region) : (setRegion s r x).stackTab = s.stackTab := rfl
@[simp] theorem setRegion_links (r : Nat) (x : Region) : (setRegion s r x).links = s.links := rfl
@[simp] theorem setRegion_router (r : Nat) (x : Region) : (setRegion s r x).router = s.router := rfl
@[simp] theorem setRegion_coh (r : Nat) (x : Region) : (setRegion s r x).coh = s.coh := rfl
@[simp] theorem setRegion_coll (r : Nat) (x : Region) : (setRegion s r x).coll = s.coll := rfl
@[simp] theorem setRegion_codecs (r : Nat) (x : Region) : (setRegion s r x).codecs = s.codecs := rfl
@[simp] theorem setRegion_ledger (r : Nat) (x : Region) : (setRegion s r x).ledger = s.ledger := rfl
@[simp] theorem setRegion_ceCounts (r : Nat) (x : Region) : (setRegion s r x).ceCounts = s.ceCounts := rfl
@[simp] theorem setRegion_blks (r : Nat) (x : Region) : (setRegion s r x).blks = s.blks := rfl
@[simp] theorem setRegion_resp (r : Nat) (x : Region) : (setRegion s r x).resp = s.resp := rfl
@[simp] theorem setRegion_freeCtr (r : Nat) (x : Region) : (setRegion s r x).freeCtr = s.freeCtr := rfl
@[simp] theorem setRegion_hostFn (r : Nat) (x : Region) : (setRegion s r x).hostFn = s.hostFn := rfl
@[simp] theorem setRegion_posted (r : Nat) (x : Region) : (setRegion s r x).posted = s.posted := rfl
@[simp] theorem setRegion_trip (r : Nat) (x : Region) : (setRegion s r x).trip = s.trip := rfl
@[simp] theorem setRegion_pending (r : Nat) (x : Region) : (setRegion s r x).pending = s.pending := rfl
@[simp] theorem setRegion_rd (r : Nat) (x : Region) (j : Nat) : rd (setRegion s r x) j = rd s j := rfl

@[simp] theorem setStack_fuse (st : Nat) (x : Stack) : (setStack s st x).fuse = s.fuse := rfl
@[simp] theorem setStack_time (st : Nat) (x : Stack) : (setStack s st x).time = s.time := rfl
@[simp] theorem setStack_regs (st : Nat) (x : Stack) : (setStack s st x).regs = s.regs := rfl
@[simp] theorem setStack_live (st : Nat) (x : Stack) : (setStack s st x).live = s.live := rfl
@[simp] theorem setStack_mem (st : Nat) (x : Stack) : (setStack s st x).mem = s.mem := rfl
@[simp] theorem setStack_host (st : Nat) (x : Stack) : (setStack s st x).host = s.host := rfl
@[simp] theorem setStack_spi (st : Nat) (x : Stack) : (setStack s st x).spi = s.spi := rfl
@[simp] theorem setStack_badBlocks (st : Nat) (x : Stack) : (setStack s st x).badBlocks = s.badBlocks := rfl
@[simp] theorem setStack_knots (st : Nat) (x : Stack) : (setStack s st x).knots = s.knots := rfl
@[simp] theorem setStack_knotQ (st : Nat) (x : Stack) : (setStack s st x).knotQ = s.knotQ := rfl
@[simp] theorem setStack_board (st : Nat) (x : Stack) : (setStack s st x).board = s.board := rfl
@[simp] theorem setStack_boot (st : Nat) (x : Stack) : (setStack s st x).boot = s.boot := rfl
@[simp] theorem setStack_power (st : Nat) (x : Stack) : (setStack s st x).power = s.power := rfl
@[simp] theorem setStack_regions (st : Nat) (x : Stack) : (setStack s st x).regions = s.regions := rfl
@[simp] theorem setStack_rings (st : Nat) (x : Stack) : (setStack s st x).rings = s.rings := rfl
@[simp] theorem setStack_scan (st : Nat) (x : Stack) : (setStack s st x).scan = s.scan := rfl
@[simp] theorem setStack_entries (st : Nat) (x : Stack) : (setStack s st x).entries = s.entries := rfl
@[simp] theorem setStack_endSeq (st : Nat) (x : Stack) : (setStack s st x).endSeq = s.endSeq := rfl
@[simp] theorem setStack_produced (st : Nat) (x : Stack) : (setStack s st x).produced = s.produced := rfl
@[simp] theorem setStack_staged (st : Nat) (x : Stack) : (setStack s st x).staged = s.staged := rfl
@[simp] theorem setStack_msix (st : Nat) (x : Stack) : (setStack s st x).msix = s.msix := rfl
@[simp] theorem setStack_cores (st : Nat) (x : Stack) : (setStack s st x).cores = s.cores := rfl
@[simp] theorem setStack_looms (st : Nat) (x : Stack) : (setStack s st x).looms = s.looms := rfl
@[simp] theorem setStack_creel (st : Nat) (x : Stack) : (setStack s st x).creel = s.creel := rfl
@[simp] theorem setStack_admitSeq (st : Nat) (x : Stack) : (setStack s st x).admitSeq = s.admitSeq := rfl
@[simp] theorem setStack_creelCache (st : Nat) (x : Stack) : (setStack s st x).creelCache = s.creelCache := rfl
@[simp] theorem setStack_links (st : Nat) (x : Stack) : (setStack s st x).links = s.links := rfl
@[simp] theorem setStack_router (st : Nat) (x : Stack) : (setStack s st x).router = s.router := rfl
@[simp] theorem setStack_coh (st : Nat) (x : Stack) : (setStack s st x).coh = s.coh := rfl
@[simp] theorem setStack_coll (st : Nat) (x : Stack) : (setStack s st x).coll = s.coll := rfl
@[simp] theorem setStack_codecs (st : Nat) (x : Stack) : (setStack s st x).codecs = s.codecs := rfl
@[simp] theorem setStack_ledger (st : Nat) (x : Stack) : (setStack s st x).ledger = s.ledger := rfl
@[simp] theorem setStack_ceCounts (st : Nat) (x : Stack) : (setStack s st x).ceCounts = s.ceCounts := rfl
@[simp] theorem setStack_blks (st : Nat) (x : Stack) : (setStack s st x).blks = s.blks := rfl
@[simp] theorem setStack_resp (st : Nat) (x : Stack) : (setStack s st x).resp = s.resp := rfl
@[simp] theorem setStack_freeCtr (st : Nat) (x : Stack) : (setStack s st x).freeCtr = s.freeCtr := rfl
@[simp] theorem setStack_hostFn (st : Nat) (x : Stack) : (setStack s st x).hostFn = s.hostFn := rfl
@[simp] theorem setStack_posted (st : Nat) (x : Stack) : (setStack s st x).posted = s.posted := rfl
@[simp] theorem setStack_trip (st : Nat) (x : Stack) : (setStack s st x).trip = s.trip := rfl
@[simp] theorem setStack_pending (st : Nat) (x : Stack) : (setStack s st x).pending = s.pending := rfl
@[simp] theorem setStack_rd (st : Nat) (x : Stack) (j : Nat) : rd (setStack s st x) j = rd s j := rfl

@[simp] theorem setLink_fuse (k : Nat) (x : Link) : (setLink s k x).fuse = s.fuse := rfl
@[simp] theorem setLink_time (k : Nat) (x : Link) : (setLink s k x).time = s.time := rfl
@[simp] theorem setLink_regs (k : Nat) (x : Link) : (setLink s k x).regs = s.regs := rfl
@[simp] theorem setLink_live (k : Nat) (x : Link) : (setLink s k x).live = s.live := rfl
@[simp] theorem setLink_mem (k : Nat) (x : Link) : (setLink s k x).mem = s.mem := rfl
@[simp] theorem setLink_host (k : Nat) (x : Link) : (setLink s k x).host = s.host := rfl
@[simp] theorem setLink_spi (k : Nat) (x : Link) : (setLink s k x).spi = s.spi := rfl
@[simp] theorem setLink_badBlocks (k : Nat) (x : Link) : (setLink s k x).badBlocks = s.badBlocks := rfl
@[simp] theorem setLink_knots (k : Nat) (x : Link) : (setLink s k x).knots = s.knots := rfl
@[simp] theorem setLink_knotQ (k : Nat) (x : Link) : (setLink s k x).knotQ = s.knotQ := rfl
@[simp] theorem setLink_board (k : Nat) (x : Link) : (setLink s k x).board = s.board := rfl
@[simp] theorem setLink_boot (k : Nat) (x : Link) : (setLink s k x).boot = s.boot := rfl
@[simp] theorem setLink_power (k : Nat) (x : Link) : (setLink s k x).power = s.power := rfl
@[simp] theorem setLink_regions (k : Nat) (x : Link) : (setLink s k x).regions = s.regions := rfl
@[simp] theorem setLink_rings (k : Nat) (x : Link) : (setLink s k x).rings = s.rings := rfl
@[simp] theorem setLink_scan (k : Nat) (x : Link) : (setLink s k x).scan = s.scan := rfl
@[simp] theorem setLink_entries (k : Nat) (x : Link) : (setLink s k x).entries = s.entries := rfl
@[simp] theorem setLink_endSeq (k : Nat) (x : Link) : (setLink s k x).endSeq = s.endSeq := rfl
@[simp] theorem setLink_produced (k : Nat) (x : Link) : (setLink s k x).produced = s.produced := rfl
@[simp] theorem setLink_staged (k : Nat) (x : Link) : (setLink s k x).staged = s.staged := rfl
@[simp] theorem setLink_msix (k : Nat) (x : Link) : (setLink s k x).msix = s.msix := rfl
@[simp] theorem setLink_cores (k : Nat) (x : Link) : (setLink s k x).cores = s.cores := rfl
@[simp] theorem setLink_looms (k : Nat) (x : Link) : (setLink s k x).looms = s.looms := rfl
@[simp] theorem setLink_creel (k : Nat) (x : Link) : (setLink s k x).creel = s.creel := rfl
@[simp] theorem setLink_admitSeq (k : Nat) (x : Link) : (setLink s k x).admitSeq = s.admitSeq := rfl
@[simp] theorem setLink_creelCache (k : Nat) (x : Link) : (setLink s k x).creelCache = s.creelCache := rfl
@[simp] theorem setLink_stacks (k : Nat) (x : Link) : (setLink s k x).stackTab = s.stackTab := rfl
@[simp] theorem setLink_router (k : Nat) (x : Link) : (setLink s k x).router = s.router := rfl
@[simp] theorem setLink_coh (k : Nat) (x : Link) : (setLink s k x).coh = s.coh := rfl
@[simp] theorem setLink_coll (k : Nat) (x : Link) : (setLink s k x).coll = s.coll := rfl
@[simp] theorem setLink_codecs (k : Nat) (x : Link) : (setLink s k x).codecs = s.codecs := rfl
@[simp] theorem setLink_ledger (k : Nat) (x : Link) : (setLink s k x).ledger = s.ledger := rfl
@[simp] theorem setLink_ceCounts (k : Nat) (x : Link) : (setLink s k x).ceCounts = s.ceCounts := rfl
@[simp] theorem setLink_blks (k : Nat) (x : Link) : (setLink s k x).blks = s.blks := rfl
@[simp] theorem setLink_resp (k : Nat) (x : Link) : (setLink s k x).resp = s.resp := rfl
@[simp] theorem setLink_freeCtr (k : Nat) (x : Link) : (setLink s k x).freeCtr = s.freeCtr := rfl
@[simp] theorem setLink_hostFn (k : Nat) (x : Link) : (setLink s k x).hostFn = s.hostFn := rfl
@[simp] theorem setLink_posted (k : Nat) (x : Link) : (setLink s k x).posted = s.posted := rfl
@[simp] theorem setLink_trip (k : Nat) (x : Link) : (setLink s k x).trip = s.trip := rfl
@[simp] theorem setLink_pending (k : Nat) (x : Link) : (setLink s k x).pending = s.pending := rfl
@[simp] theorem setLink_rd (k : Nat) (x : Link) (j : Nat) : rd (setLink s k x) j = rd s j := rfl

@[simp] theorem setCodec_fuse (n : Nat) (x : Codec) : (setCodec s n x).fuse = s.fuse := rfl
@[simp] theorem setCodec_time (n : Nat) (x : Codec) : (setCodec s n x).time = s.time := rfl
@[simp] theorem setCodec_regs (n : Nat) (x : Codec) : (setCodec s n x).regs = s.regs := rfl
@[simp] theorem setCodec_live (n : Nat) (x : Codec) : (setCodec s n x).live = s.live := rfl
@[simp] theorem setCodec_mem (n : Nat) (x : Codec) : (setCodec s n x).mem = s.mem := rfl
@[simp] theorem setCodec_host (n : Nat) (x : Codec) : (setCodec s n x).host = s.host := rfl
@[simp] theorem setCodec_spi (n : Nat) (x : Codec) : (setCodec s n x).spi = s.spi := rfl
@[simp] theorem setCodec_badBlocks (n : Nat) (x : Codec) : (setCodec s n x).badBlocks = s.badBlocks := rfl
@[simp] theorem setCodec_knots (n : Nat) (x : Codec) : (setCodec s n x).knots = s.knots := rfl
@[simp] theorem setCodec_knotQ (n : Nat) (x : Codec) : (setCodec s n x).knotQ = s.knotQ := rfl
@[simp] theorem setCodec_board (n : Nat) (x : Codec) : (setCodec s n x).board = s.board := rfl
@[simp] theorem setCodec_boot (n : Nat) (x : Codec) : (setCodec s n x).boot = s.boot := rfl
@[simp] theorem setCodec_power (n : Nat) (x : Codec) : (setCodec s n x).power = s.power := rfl
@[simp] theorem setCodec_regions (n : Nat) (x : Codec) : (setCodec s n x).regions = s.regions := rfl
@[simp] theorem setCodec_rings (n : Nat) (x : Codec) : (setCodec s n x).rings = s.rings := rfl
@[simp] theorem setCodec_scan (n : Nat) (x : Codec) : (setCodec s n x).scan = s.scan := rfl
@[simp] theorem setCodec_entries (n : Nat) (x : Codec) : (setCodec s n x).entries = s.entries := rfl
@[simp] theorem setCodec_endSeq (n : Nat) (x : Codec) : (setCodec s n x).endSeq = s.endSeq := rfl
@[simp] theorem setCodec_produced (n : Nat) (x : Codec) : (setCodec s n x).produced = s.produced := rfl
@[simp] theorem setCodec_staged (n : Nat) (x : Codec) : (setCodec s n x).staged = s.staged := rfl
@[simp] theorem setCodec_msix (n : Nat) (x : Codec) : (setCodec s n x).msix = s.msix := rfl
@[simp] theorem setCodec_cores (n : Nat) (x : Codec) : (setCodec s n x).cores = s.cores := rfl
@[simp] theorem setCodec_looms (n : Nat) (x : Codec) : (setCodec s n x).looms = s.looms := rfl
@[simp] theorem setCodec_creel (n : Nat) (x : Codec) : (setCodec s n x).creel = s.creel := rfl
@[simp] theorem setCodec_admitSeq (n : Nat) (x : Codec) : (setCodec s n x).admitSeq = s.admitSeq := rfl
@[simp] theorem setCodec_creelCache (n : Nat) (x : Codec) : (setCodec s n x).creelCache = s.creelCache := rfl
@[simp] theorem setCodec_stacks (n : Nat) (x : Codec) : (setCodec s n x).stackTab = s.stackTab := rfl
@[simp] theorem setCodec_links (n : Nat) (x : Codec) : (setCodec s n x).links = s.links := rfl
@[simp] theorem setCodec_router (n : Nat) (x : Codec) : (setCodec s n x).router = s.router := rfl
@[simp] theorem setCodec_coh (n : Nat) (x : Codec) : (setCodec s n x).coh = s.coh := rfl
@[simp] theorem setCodec_coll (n : Nat) (x : Codec) : (setCodec s n x).coll = s.coll := rfl
@[simp] theorem setCodec_ledger (n : Nat) (x : Codec) : (setCodec s n x).ledger = s.ledger := rfl
@[simp] theorem setCodec_ceCounts (n : Nat) (x : Codec) : (setCodec s n x).ceCounts = s.ceCounts := rfl
@[simp] theorem setCodec_blks (n : Nat) (x : Codec) : (setCodec s n x).blks = s.blks := rfl
@[simp] theorem setCodec_resp (n : Nat) (x : Codec) : (setCodec s n x).resp = s.resp := rfl
@[simp] theorem setCodec_freeCtr (n : Nat) (x : Codec) : (setCodec s n x).freeCtr = s.freeCtr := rfl
@[simp] theorem setCodec_hostFn (n : Nat) (x : Codec) : (setCodec s n x).hostFn = s.hostFn := rfl
@[simp] theorem setCodec_posted (n : Nat) (x : Codec) : (setCodec s n x).posted = s.posted := rfl
@[simp] theorem setCodec_trip (n : Nat) (x : Codec) : (setCodec s n x).trip = s.trip := rfl
@[simp] theorem setCodec_pending (n : Nat) (x : Codec) : (setCodec s n x).pending = s.pending := rfl
@[simp] theorem setCodec_rd (n : Nat) (x : Codec) (j : Nat) : rd (setCodec s n x) j = rd s j := rfl

@[simp] theorem setBlk_fuse (p : Nat) (x : Blk) : (setBlk s p x).fuse = s.fuse := rfl
@[simp] theorem setBlk_time (p : Nat) (x : Blk) : (setBlk s p x).time = s.time := rfl
@[simp] theorem setBlk_regs (p : Nat) (x : Blk) : (setBlk s p x).regs = s.regs := rfl
@[simp] theorem setBlk_live (p : Nat) (x : Blk) : (setBlk s p x).live = s.live := rfl
@[simp] theorem setBlk_mem (p : Nat) (x : Blk) : (setBlk s p x).mem = s.mem := rfl
@[simp] theorem setBlk_host (p : Nat) (x : Blk) : (setBlk s p x).host = s.host := rfl
@[simp] theorem setBlk_spi (p : Nat) (x : Blk) : (setBlk s p x).spi = s.spi := rfl
@[simp] theorem setBlk_badBlocks (p : Nat) (x : Blk) : (setBlk s p x).badBlocks = s.badBlocks := rfl
@[simp] theorem setBlk_knots (p : Nat) (x : Blk) : (setBlk s p x).knots = s.knots := rfl
@[simp] theorem setBlk_knotQ (p : Nat) (x : Blk) : (setBlk s p x).knotQ = s.knotQ := rfl
@[simp] theorem setBlk_board (p : Nat) (x : Blk) : (setBlk s p x).board = s.board := rfl
@[simp] theorem setBlk_boot (p : Nat) (x : Blk) : (setBlk s p x).boot = s.boot := rfl
@[simp] theorem setBlk_power (p : Nat) (x : Blk) : (setBlk s p x).power = s.power := rfl
@[simp] theorem setBlk_regions (p : Nat) (x : Blk) : (setBlk s p x).regions = s.regions := rfl
@[simp] theorem setBlk_rings (p : Nat) (x : Blk) : (setBlk s p x).rings = s.rings := rfl
@[simp] theorem setBlk_scan (p : Nat) (x : Blk) : (setBlk s p x).scan = s.scan := rfl
@[simp] theorem setBlk_entries (p : Nat) (x : Blk) : (setBlk s p x).entries = s.entries := rfl
@[simp] theorem setBlk_endSeq (p : Nat) (x : Blk) : (setBlk s p x).endSeq = s.endSeq := rfl
@[simp] theorem setBlk_produced (p : Nat) (x : Blk) : (setBlk s p x).produced = s.produced := rfl
@[simp] theorem setBlk_staged (p : Nat) (x : Blk) : (setBlk s p x).staged = s.staged := rfl
@[simp] theorem setBlk_msix (p : Nat) (x : Blk) : (setBlk s p x).msix = s.msix := rfl
@[simp] theorem setBlk_cores (p : Nat) (x : Blk) : (setBlk s p x).cores = s.cores := rfl
@[simp] theorem setBlk_looms (p : Nat) (x : Blk) : (setBlk s p x).looms = s.looms := rfl
@[simp] theorem setBlk_creel (p : Nat) (x : Blk) : (setBlk s p x).creel = s.creel := rfl
@[simp] theorem setBlk_admitSeq (p : Nat) (x : Blk) : (setBlk s p x).admitSeq = s.admitSeq := rfl
@[simp] theorem setBlk_creelCache (p : Nat) (x : Blk) : (setBlk s p x).creelCache = s.creelCache := rfl
@[simp] theorem setBlk_stacks (p : Nat) (x : Blk) : (setBlk s p x).stackTab = s.stackTab := rfl
@[simp] theorem setBlk_links (p : Nat) (x : Blk) : (setBlk s p x).links = s.links := rfl
@[simp] theorem setBlk_router (p : Nat) (x : Blk) : (setBlk s p x).router = s.router := rfl
@[simp] theorem setBlk_coh (p : Nat) (x : Blk) : (setBlk s p x).coh = s.coh := rfl
@[simp] theorem setBlk_coll (p : Nat) (x : Blk) : (setBlk s p x).coll = s.coll := rfl
@[simp] theorem setBlk_codecs (p : Nat) (x : Blk) : (setBlk s p x).codecs = s.codecs := rfl
@[simp] theorem setBlk_ledger (p : Nat) (x : Blk) : (setBlk s p x).ledger = s.ledger := rfl
@[simp] theorem setBlk_ceCounts (p : Nat) (x : Blk) : (setBlk s p x).ceCounts = s.ceCounts := rfl
@[simp] theorem setBlk_resp (p : Nat) (x : Blk) : (setBlk s p x).resp = s.resp := rfl
@[simp] theorem setBlk_freeCtr (p : Nat) (x : Blk) : (setBlk s p x).freeCtr = s.freeCtr := rfl
@[simp] theorem setBlk_hostFn (p : Nat) (x : Blk) : (setBlk s p x).hostFn = s.hostFn := rfl
@[simp] theorem setBlk_posted (p : Nat) (x : Blk) : (setBlk s p x).posted = s.posted := rfl
@[simp] theorem setBlk_trip (p : Nat) (x : Blk) : (setBlk s p x).trip = s.trip := rfl
@[simp] theorem setBlk_pending (p : Nat) (x : Blk) : (setBlk s p x).pending = s.pending := rfl
@[simp] theorem setBlk_rd (p : Nat) (x : Blk) (j : Nat) : rd (setBlk s p x) j = rd s j := rfl

@[simp] theorem keep_fuse (t : State) : (keep s t).fuse = s.fuse := rfl
@[simp] theorem keep_time (t : State) : (keep s t).time = s.time := rfl
@[simp] theorem keep_regs (t : State) : (keep s t).regs = t.regs := rfl
@[simp] theorem keep_live (t : State) : (keep s t).live = t.live := rfl
@[simp] theorem keep_mem (t : State) : (keep s t).mem = t.mem := rfl
@[simp] theorem keep_host (t : State) : (keep s t).host = t.host := rfl
@[simp] theorem keep_spi (t : State) : (keep s t).spi = t.spi := rfl
@[simp] theorem keep_badBlocks (t : State) : (keep s t).badBlocks = t.badBlocks := rfl
@[simp] theorem keep_knots (t : State) : (keep s t).knots = t.knots := rfl
@[simp] theorem keep_knotQ (t : State) : (keep s t).knotQ = t.knotQ := rfl
@[simp] theorem keep_board (t : State) : (keep s t).board = t.board := rfl
@[simp] theorem keep_boot (t : State) : (keep s t).boot = t.boot := rfl
@[simp] theorem keep_power (t : State) : (keep s t).power = t.power := rfl
@[simp] theorem keep_regions (t : State) : (keep s t).regions = t.regions := rfl
@[simp] theorem keep_rings (t : State) : (keep s t).rings = t.rings := rfl
@[simp] theorem keep_scan (t : State) : (keep s t).scan = t.scan := rfl
@[simp] theorem keep_entries (t : State) : (keep s t).entries = t.entries := rfl
@[simp] theorem keep_endSeq (t : State) : (keep s t).endSeq = t.endSeq := rfl
@[simp] theorem keep_produced (t : State) : (keep s t).produced = t.produced := rfl
@[simp] theorem keep_staged (t : State) : (keep s t).staged = t.staged := rfl
@[simp] theorem keep_msix (t : State) : (keep s t).msix = t.msix := rfl
@[simp] theorem keep_cores (t : State) : (keep s t).cores = t.cores := rfl
@[simp] theorem keep_looms (t : State) : (keep s t).looms = t.looms := rfl
@[simp] theorem keep_creel (t : State) : (keep s t).creel = t.creel := rfl
@[simp] theorem keep_admitSeq (t : State) : (keep s t).admitSeq = t.admitSeq := rfl
@[simp] theorem keep_creelCache (t : State) : (keep s t).creelCache = t.creelCache := rfl
@[simp] theorem keep_stacks (t : State) : (keep s t).stackTab = t.stackTab := rfl
@[simp] theorem keep_links (t : State) : (keep s t).links = t.links := rfl
@[simp] theorem keep_router (t : State) : (keep s t).router = t.router := rfl
@[simp] theorem keep_coh (t : State) : (keep s t).coh = t.coh := rfl
@[simp] theorem keep_coll (t : State) : (keep s t).coll = t.coll := rfl
@[simp] theorem keep_codecs (t : State) : (keep s t).codecs = t.codecs := rfl
@[simp] theorem keep_ledger (t : State) : (keep s t).ledger = t.ledger := rfl
@[simp] theorem keep_ceCounts (t : State) : (keep s t).ceCounts = t.ceCounts := rfl
@[simp] theorem keep_blks (t : State) : (keep s t).blks = t.blks := rfl
@[simp] theorem keep_resp (t : State) : (keep s t).resp = t.resp := rfl
@[simp] theorem keep_hostFn (t : State) : (keep s t).hostFn = t.hostFn := rfl
@[simp] theorem keep_posted (t : State) : (keep s t).posted = t.posted := rfl
@[simp] theorem keep_trip (t : State) : (keep s t).trip = t.trip := rfl
@[simp] theorem keep_freeCtr (t : State) : (keep s t).freeCtr = t.freeCtr := rfl
@[simp] theorem keep_pending (t : State) : (keep s t).pending = s.pending := rfl

/-- A command built by `effect` always answers the next state its function gives, inside the frame. -/
@[simp] theorem effect_eq (f : State → State) : effect f s = .next (keep s (f s)) := rfl

end Sys2Proof.Machine
end

