-- ==== Sys2Proof/Laws/Tables.lean ====
section
/-! SUPPORT. Reading after writing: keyed tables, registers and the records of units. -/

namespace Sys2Proof.Machine

theorem tget_tdel_of_ne {α : Type} (d : α) (t : Tab α) (k j : Nat) (h : j ≠ k) : tget d (tdel t k) j = tget d t j := by
  induction t with
  | nil => rfl
  | cons p r ih =>
    obtain ⟨i, v⟩ := p
    simp only [tdel, ne_eq, decide_not] at ih ⊢
    by_cases hi : i = k
    · subst hi
      simp [tget, Ne.symm h, ih]
    · simp [tget, hi, ih]

@[simp] theorem tget_tput_self {α : Type} (d : α) (t : Tab α) (k : Nat) (v : α) : tget d (tput t k v) k = v := by
  induction t with
  | nil => simp [tput, tget]
  | cons p r ih =>
    obtain ⟨i, w⟩ := p
    unfold tput
    split
    · simp [tget]
    · split
      · simp [tget]
      · rename_i h; simp [tget, h, ih]

theorem tget_tput_of_ne {α : Type} (d : α) (t : Tab α) (k j : Nat) (v : α) (h : j ≠ k) :
    tget d (tput t k v) j = tget d t j := by
  induction t with
  | nil => simp [tput, tget, Ne.symm h]
  | cons p r ih =>
    obtain ⟨i, w⟩ := p
    unfold tput
    split
    · simp [tget, Ne.symm h]
    · split
      · rename_i e; subst e; simp [tget, Ne.symm h]
      · simp [tget, ih]

theorem tfind_tdel_of_ne {α : Type} (t : Tab α) (k j : Nat) (h : j ≠ k) : tfind (tdel t k) j = tfind t j := by
  induction t with
  | nil => rfl
  | cons p r ih =>
    obtain ⟨i, v⟩ := p
    simp only [tdel, ne_eq, decide_not] at ih ⊢
    by_cases hi : i = k
    · subst hi
      simp [tfind, Ne.symm h, ih]
    · simp [tfind, hi, ih]

@[simp] theorem tfind_tdel_self {α : Type} (t : Tab α) (k : Nat) : tfind (tdel t k) k = none := by
  induction t with
  | nil => rfl
  | cons p r ih =>
    obtain ⟨i, v⟩ := p
    simp only [tdel, ne_eq, decide_not] at ih ⊢
    by_cases hi : i = k
    · simp [hi, ih]
    · simp [tfind, hi, ih]

@[simp] theorem tfind_tput_self {α : Type} (t : Tab α) (k : Nat) (v : α) : tfind (tput t k v) k = some v := by
  induction t with
  | nil => simp [tput, tfind]
  | cons p r ih =>
    obtain ⟨i, w⟩ := p
    unfold tput
    split
    · simp [tfind]
    · split
      · simp [tfind]
      · rename_i h; simp [tfind, h, ih]

theorem tfind_tput_of_ne {α : Type} (t : Tab α) (k j : Nat) (v : α) (h : j ≠ k) : tfind (tput t k v) j = tfind t j := by
  induction t with
  | nil => simp [tput, tfind, Ne.symm h]
  | cons p r ih =>
    obtain ⟨i, w⟩ := p
    unfold tput
    split
    · simp [tfind, Ne.symm h]
    · split
      · rename_i e; subst e; simp [tfind, Ne.symm h]
      · simp [tfind, ih]

-- ## Registers

@[simp] theorem rd_wr_self (s : State) (k : Nat) (v : Word32) : rd (wr s k v) k = v := by
  simp [rd, wr]

theorem rd_wr_of_ne (s : State) (k j : Nat) (v : Word32) (h : j ≠ k) : rd (wr s k v) j = rd s j := by
  unfold rd wr
  simp only [tfind_tput_of_ne s.regs k j v h]
  rfl

/-- Reading any register after writing one. -/
theorem rd_wr (s : State) (k j : Nat) (v : Word32) : rd (wr s k v) j = if j = k then v else rd s j := by
  by_cases h : j = k
  · subst h; simp
  · simp [h, rd_wr_of_ne s k j v h]

/-- Two states with the same registers and fuses read alike. -/
theorem rd_congr (s t : State) (k : Nat) (hr : t.regs = s.regs) (hf : t.fuse = s.fuse) : rd t k = rd s k := by
  unfold rd resetVal hasNbr coreEnabled
  rw [hr, hf]

/-- The frame of a command reads the registers its effect left, unless the effect changed the fuses. -/
theorem rd_keep (s t : State) (k : Nat) (h : t.fuse = s.fuse) : rd (keep s t) k = rd t k :=
  rd_congr t (keep s t) k rfl (by simp [h])

theorem wr_fuse_eq (s : State) (k : Nat) (v : Word32) : (wr s k v).fuse = s.fuse := rfl

-- ## Fields of a register value

/-- The bits of a field mask. -/
theorem getLsbD_fmask (hi lo i : Nat) (h : hi < 32) (hl : lo ≤ hi) :
    (fmask hi lo).getLsbD i = (decide (lo ≤ i) && decide (i ≤ hi)) := by
  unfold fmask
  rw [BitVec.getLsbD_ofNat]
  have h2 : (2 ^ (hi + 1 - lo) - 1) * 2 ^ lo = (2 ^ (hi + 1 - lo) - 1) <<< lo := (Nat.shiftLeft_eq _ _).symm
  rw [h2, Nat.testBit_shiftLeft, Nat.testBit_two_pow_sub_one]
  by_cases a : lo ≤ i <;> by_cases b : i ≤ hi <;> simp [a, b] <;> omega

-- ## Records of units

@[simp] theorem loomOf_setLoom_self (s : State) (l : Nat) (x : Loom) : loomOf (setLoom s l x) l = x := by simp [loomOf, setLoom]
@[simp] theorem coreOf_setCore_self (s : State) (c : Nat) (x : Core) : coreOf (setCore s c x) c = x := by simp [coreOf, setCore]
@[simp] theorem ringOf_setRing_self (s : State) (r : Nat) (x : Ring) : ringOf (setRing s r x) r = x := by simp [ringOf, setRing]
@[simp] theorem regionOf_setRegion_self (s : State) (r : Nat) (x : Region) : regionOf (setRegion s r x) r = x := by
  simp [regionOf, setRegion]
@[simp] theorem stackOf_setStack_self (s : State) (st : Nat) (x : Stack) : stackOf (setStack s st x) st = x := by
  simp [stackOf, setStack]
@[simp] theorem linkOf_setLink_self (s : State) (k : Nat) (x : Link) : linkOf (setLink s k x) k = x := by simp [linkOf, setLink]
@[simp] theorem codecOf_setCodec_self (s : State) (n : Nat) (x : Codec) : codecOf (setCodec s n x) n = x := by
  simp [codecOf, setCodec]
@[simp] theorem blkOf_setBlk_self (s : State) (p : Nat) (x : Blk) : blkOf (setBlk s p x) p = x := by simp [blkOf, setBlk]

theorem loomOf_setLoom_of_ne (s : State) (l m : Nat) (x : Loom) (h : m ≠ l) : loomOf (setLoom s l x) m = loomOf s m :=
  tget_tput_of_ne _ _ _ _ _ h
theorem coreOf_setCore_of_ne (s : State) (c d : Nat) (x : Core) (h : d ≠ c) : coreOf (setCore s c x) d = coreOf s d :=
  tget_tput_of_ne _ _ _ _ _ h
theorem ringOf_setRing_of_ne (s : State) (r q : Nat) (x : Ring) (h : q ≠ r) : ringOf (setRing s r x) q = ringOf s q :=
  tget_tput_of_ne _ _ _ _ _ h
theorem blkOf_setBlk_of_ne (s : State) (p q : Nat) (x : Blk) (h : q ≠ p) : blkOf (setBlk s p x) q = blkOf s q :=
  tget_tput_of_ne _ _ _ _ _ h
theorem stackOf_setStack_of_ne (s : State) (p q : Nat) (x : Stack) (h : q ≠ p) : stackOf (setStack s p x) q = stackOf s q :=
  tget_tput_of_ne _ _ _ _ _ h
theorem regionOf_setRegion_of_ne (s : State) (p q : Nat) (x : Region) (h : q ≠ p) : regionOf (setRegion s p x) q = regionOf s q :=
  tget_tput_of_ne _ _ _ _ _ h
theorem linkOf_setLink_of_ne (s : State) (p q : Nat) (x : Link) (h : q ≠ p) : linkOf (setLink s p x) q = linkOf s q :=
  tget_tput_of_ne _ _ _ _ _ h
theorem codecOf_setCodec_of_ne (s : State) (p q : Nat) (x : Codec) (h : q ≠ p) : codecOf (setCodec s p x) q = codecOf s q :=
  tget_tput_of_ne _ _ _ _ _ h

end Sys2Proof.Machine
end

