-- ==== Sys2Proof/Laws/Fields.lean ====
section
/-! SUPPORT. Fields of register values: what setting one field or bit does to it and to the others, and to a register's fields. -/

namespace Sys2Proof.Machine

theorem getLsbD_setFld (w : Word32) (hi lo v i : Nat) (h : hi < 32) (hl : lo ≤ hi) :
    (setFld w hi lo v).getLsbD i = if lo ≤ i ∧ i ≤ hi then v.testBit (i - lo) else w.getLsbD i := by
  unfold setFld
  simp [getLsbD_fmask, h, hl, BitVec.getLsbD_ofNat]
  by_cases h1 : lo ≤ i <;> by_cases h2 : i ≤ hi
  · have : i < 32 := by omega
    simp [h1, h2, this, Nat.mul_comm v, Nat.testBit_two_pow_mul]
  all_goals
    by_cases h3 : i < 32
    · simp [h1, h2, h3]
    · simp [h1, h2, h3, BitVec.getLsbD_of_ge w i (by omega)]

theorem testBit_fld (w : Word32) (hi lo i : Nat) : (fld w hi lo).testBit i = (decide (i < hi + 1 - lo) && w.getLsbD (i + lo)) := by
  unfold fld bitsOf
  rw [Nat.testBit_mod_two_pow, Nat.testBit_div_two_pow]
  simp [BitVec.getLsbD]

@[simp] theorem fld_setFld_self (w : Word32) (hi lo v : Nat) (h : hi < 32) (hl : lo ≤ hi) :
    fld (setFld w hi lo v) hi lo = v % 2 ^ (hi + 1 - lo) := by
  apply Nat.eq_of_testBit_eq
  intro i
  rw [testBit_fld, getLsbD_setFld w hi lo v _ h hl, Nat.testBit_mod_two_pow]
  by_cases hi' : i < hi + 1 - lo
  · have h2 : lo ≤ i + lo ∧ i + lo ≤ hi := by omega
    simp [hi', h2]
  · simp [hi']

/-- A field apart from the one set reads as before. -/
theorem fld_setFld_apart (w : Word32) (hi lo v a b : Nat) (h : hi < 32) (hl : lo ≤ hi) (hab : a < lo ∨ hi < b) :
    fld (setFld w hi lo v) a b = fld w a b := by
  apply Nat.eq_of_testBit_eq
  intro i
  rw [testBit_fld, testBit_fld, getLsbD_setFld w hi lo v _ h hl]
  by_cases hi' : i < a + 1 - b
  · have h2 : ¬ (lo ≤ i + b ∧ i + b ≤ hi) := by omega
    simp [hi', h2]
  · simp [hi']

theorem fbit_setFld_apart (w : Word32) (hi lo v i : Nat) (h : hi < 32) (hl : lo ≤ hi) (hi' : i < lo ∨ hi < i) :
    fbit (setFld w hi lo v) i = fbit w i := by
  unfold fbit
  rw [getLsbD_setFld w hi lo v i h hl, if_neg (by omega)]

@[simp] theorem fbit_setFld_one (w : Word32) (i v : Nat) (h : i < 32) : fbit (setFld w i i v) i = v.testBit 0 := by
  unfold fbit
  simp [getLsbD_setFld w i i v i h (Nat.le_refl i)]

-- ## Registers

@[simp] theorem rdF_wr_self (s : State) (k : Nat) (v : Word32) (hi lo : Nat) : rdF (wr s k v) k hi lo = fld v hi lo := by
  simp [rdF]

theorem rdF_wr_of_ne (s : State) (k j : Nat) (v : Word32) (hi lo : Nat) (h : j ≠ k) : rdF (wr s k v) j hi lo = rdF s j hi lo := by
  simp [rdF, rd_wr_of_ne s k j v h]

theorem rd_wrF_self (s : State) (k hi lo v : Nat) : rd (wrF s k hi lo v) k = setFld (rd s k) hi lo v := by simp [wrF]
theorem rd_wrF_of_ne (s : State) (k j hi lo v : Nat) (h : j ≠ k) : rd (wrF s k hi lo v) j = rd s j := rd_wr_of_ne s k j _ h
theorem rd_wrB_of_ne (s : State) (k j i : Nat) (b : Bool) (h : j ≠ k) : rd (wrB s k i b) j = rd s j := rd_wr_of_ne s k j _ h
theorem rd_addCnt_self (s : State) (k n : Nat) : rd (addCnt s k n) k = rd s k + BitVec.ofNat 32 n := by simp [addCnt]
theorem rd_addCnt_of_ne (s : State) (k j n : Nat) (h : j ≠ k) : rd (addCnt s k n) j = rd s j := rd_wr_of_ne s k j _ h

theorem rdF_wrF_self (s : State) (k hi lo v : Nat) (h : hi < 32) (hl : lo ≤ hi) :
    rdF (wrF s k hi lo v) k hi lo = v % 2 ^ (hi + 1 - lo) := by
  simp [rdF, wrF, h, hl]

theorem rdF_wrF_apart (s : State) (k hi lo v a b : Nat) (h : hi < 32) (hl : lo ≤ hi) (hab : a < lo ∨ hi < b) :
    rdF (wrF s k hi lo v) k a b = rdF s k a b := by
  simp [rdF, wrF, fld_setFld_apart _ hi lo v a b h hl hab]

theorem rdF_wrF_of_ne (s : State) (k j hi lo v a b : Nat) (h : j ≠ k) : rdF (wrF s k hi lo v) j a b = rdF s j a b := by
  simp [rdF, rd_wrF_of_ne s k j hi lo v h]

theorem fbit_wrB_self (s : State) (k i : Nat) (b : Bool) (h : i < 32) : fbit (rd (wrB s k i b) k) i = b := by
  cases b <;> simp [wrB, wrF, h, b2n]

theorem fbit_wrB_apart (s : State) (k i j : Nat) (b : Bool) (h : i < 32) (hj : j ≠ i) : fbit (rd (wrB s k i b) k) j = fbit (rd s k) j := by
  simp only [wrB, wrF, rd_wr_self]
  exact fbit_setFld_apart _ i i _ j h (Nat.le_refl i) (by omega)

theorem fbit_orReg_self (s : State) (k : Nat) (v : Word32) (i : Nat) : fbit (rd (orReg s k v) k) i = (fbit (rd s k) i || fbit v i) := by
  simp [orReg, fbit]

end Sys2Proof.Machine
end

