-- ==== Sys2Proof/Laws/Frames.lean ====
section
/-! SUPPORT. Frames: one lemma per update of State and per shared operation says all it can change, in a form that chains: a frame up to a state extends to the state after the next operation. -/

namespace Sys2Proof.Machine

variable {K : Nat → Prop} {ps : List Part} {s t u : State}

theorem Frame.refl (s : State) : Frame K ps s s :=
  ⟨fun _ _ => rfl, fun p _ => by cases p <;> rfl, rfl, rfl, rfl⟩

theorem Part.same_trans (p : Part) (h1 : p.same s t) (h2 : p.same t u) : p.same s u := by
  cases p <;> exact Eq.trans h2 h1

theorem Frame.trans (h1 : Frame K ps s t) (h2 : Frame K ps t u) : Frame K ps s u :=
  ⟨fun k hk => (h2.regs k hk).trans (h1.regs k hk), fun p hp => p.same_trans (h1.parts p hp) (h2.parts p hp),
   h2.fuse.trans h1.fuse, h2.time.trans h1.time, h2.pending.trans h1.pending⟩

theorem Frame.mono {K' : Nat → Prop} {qs : List Part} (h : Frame K ps s t) (hk : ∀ k, K k → K' k) (hp : ∀ p, p ∈ ps → p ∈ qs) :
    Frame K' qs s t :=
  ⟨fun k n => h.regs k fun x => n (hk k x), fun p n => h.parts p fun x => n (hp p x), h.fuse, h.time, h.pending⟩

/-- The frame that `keep` gives a command whose effect has it. -/
theorem Frame.kept (h : Frame K ps s t) : Frame K ps s (keep s t) := by
  refine ⟨fun k hk => (rd_keep s t k h.fuse).trans (h.regs k hk), fun p hp => ?_, rfl, rfl, rfl⟩
  have := h.parts p hp
  cases p <;> exact this

theorem Frame.ite {c : Prop} [Decidable c] {x y : State} (h1 : c → Frame K ps s x) (h2 : ¬ c → Frame K ps s y) :
    Frame K ps s (if c then x else y) := by
  by_cases h : c
  · simpa [h] using h1 h
  · simpa [h] using h2 h

theorem Frame.foldl {α : Type} (f : State → α → State) (l : List α) (hs : Frame K ps s t) (h : ∀ x, x ∈ l → ∀ v, Frame K ps s v → Frame K ps s (f v x)) :
    Frame K ps s (l.foldl f t) := by
  induction l generalizing t with
  | nil => exact hs
  | cons x r ih => exact ih (h x (by simp) t hs) fun y hy => h y (by simp [hy])

-- ## Registers

theorem Frame.wr (h : Frame K ps s t) {k : Nat} (hk : K k) (v : Word32) : Frame K ps s (wr t k v) := by
  refine ⟨fun j hj => ?_, fun p hp => ?_, h.fuse, h.time, h.pending⟩
  · rw [rd_wr_of_ne t k j v (fun e => hj (e ▸ hk))]
    exact h.regs j hj
  · have := h.parts p hp
    cases p <;> exact this

theorem Frame.wrF (h : Frame K ps s t) {k : Nat} (hk : K k) (hi lo v : Nat) : Frame K ps s (wrF t k hi lo v) := h.wr hk _
theorem Frame.wrB (h : Frame K ps s t) {k : Nat} (hk : K k) (i : Nat) (b : Bool) : Frame K ps s (wrB t k i b) := h.wr hk _
theorem Frame.addCnt (h : Frame K ps s t) {k : Nat} (hk : K k) (n : Nat) : Frame K ps s (addCnt t k n) := h.wr hk _
theorem Frame.orReg (h : Frame K ps s t) {k : Nat} (hk : K k) (v : Word32) : Frame K ps s (orReg t k v) := h.wr hk _

-- ## Parts

theorem Frame.set_live (h : Frame K ps s t) (hp : Part.live ∈ ps) (x : Tab Word32) : Frame K ps s { t with live := x } := by
  refine ⟨fun j hj => (rd_congr t _ j rfl rfl).trans (h.regs j hj), fun q hq => ?_, h.fuse, h.time, h.pending⟩
  have := h.parts q hq
  cases q <;> first | exact this | exact absurd hp hq
theorem Frame.set_mem (h : Frame K ps s t) (hp : Part.mem ∈ ps) (x : List Host.Cell) : Frame K ps s { t with mem := x } := by
  refine ⟨fun j hj => (rd_congr t _ j rfl rfl).trans (h.regs j hj), fun q hq => ?_, h.fuse, h.time, h.pending⟩
  have := h.parts q hq
  cases q <;> first | exact this | exact absurd hp hq
theorem Frame.set_host (h : Frame K ps s t) (hp : Part.host ∈ ps) (x : List Host.Cell) : Frame K ps s { t with host := x } := by
  refine ⟨fun j hj => (rd_congr t _ j rfl rfl).trans (h.regs j hj), fun q hq => ?_, h.fuse, h.time, h.pending⟩
  have := h.parts q hq
  cases q <;> first | exact this | exact absurd hp hq
theorem Frame.set_spi (h : Frame K ps s t) (hp : Part.spi ∈ ps) (x : List Host.Cell) : Frame K ps s { t with spi := x } := by
  refine ⟨fun j hj => (rd_congr t _ j rfl rfl).trans (h.regs j hj), fun q hq => ?_, h.fuse, h.time, h.pending⟩
  have := h.parts q hq
  cases q <;> first | exact this | exact absurd hp hq
theorem Frame.set_badBlocks (h : Frame K ps s t) (hp : Part.badBlocks ∈ ps) (x : List Nat) : Frame K ps s { t with badBlocks := x } := by
  refine ⟨fun j hj => (rd_congr t _ j rfl rfl).trans (h.regs j hj), fun q hq => ?_, h.fuse, h.time, h.pending⟩
  have := h.parts q hq
  cases q <;> first | exact this | exact absurd hp hq
theorem Frame.set_knots (h : Frame K ps s t) (hp : Part.knots ∈ ps) (x : Tab Word64) : Frame K ps s { t with knots := x } := by
  refine ⟨fun j hj => (rd_congr t _ j rfl rfl).trans (h.regs j hj), fun q hq => ?_, h.fuse, h.time, h.pending⟩
  have := h.parts q hq
  cases q <;> first | exact this | exact absurd hp hq
theorem Frame.set_knotQ (h : Frame K ps s t) (hp : Part.knotQ ∈ ps) (x : List KnotOp) : Frame K ps s { t with knotQ := x } := by
  refine ⟨fun j hj => (rd_congr t _ j rfl rfl).trans (h.regs j hj), fun q hq => ?_, h.fuse, h.time, h.pending⟩
  have := h.parts q hq
  cases q <;> first | exact this | exact absurd hp hq
theorem Frame.set_board (h : Frame K ps s t) (hp : Part.board ∈ ps) (x : Board) : Frame K ps s { t with board := x } := by
  refine ⟨fun j hj => (rd_congr t _ j rfl rfl).trans (h.regs j hj), fun q hq => ?_, h.fuse, h.time, h.pending⟩
  have := h.parts q hq
  cases q <;> first | exact this | exact absurd hp hq
theorem Frame.set_boot (h : Frame K ps s t) (hp : Part.boot ∈ ps) (x : Boot) : Frame K ps s { t with boot := x } := by
  refine ⟨fun j hj => (rd_congr t _ j rfl rfl).trans (h.regs j hj), fun q hq => ?_, h.fuse, h.time, h.pending⟩
  have := h.parts q hq
  cases q <;> first | exact this | exact absurd hp hq
theorem Frame.set_power (h : Frame K ps s t) (hp : Part.power ∈ ps) (x : Power) : Frame K ps s { t with power := x } := by
  refine ⟨fun j hj => (rd_congr t _ j rfl rfl).trans (h.regs j hj), fun q hq => ?_, h.fuse, h.time, h.pending⟩
  have := h.parts q hq
  cases q <;> first | exact this | exact absurd hp hq
theorem Frame.set_regions (h : Frame K ps s t) (hp : Part.regions ∈ ps) (x : Tab Region) : Frame K ps s { t with regions := x } := by
  refine ⟨fun j hj => (rd_congr t _ j rfl rfl).trans (h.regs j hj), fun q hq => ?_, h.fuse, h.time, h.pending⟩
  have := h.parts q hq
  cases q <;> first | exact this | exact absurd hp hq
theorem Frame.set_rings (h : Frame K ps s t) (hp : Part.rings ∈ ps) (x : Tab Ring) : Frame K ps s { t with rings := x } := by
  refine ⟨fun j hj => (rd_congr t _ j rfl rfl).trans (h.regs j hj), fun q hq => ?_, h.fuse, h.time, h.pending⟩
  have := h.parts q hq
  cases q <;> first | exact this | exact absurd hp hq
theorem Frame.set_scan (h : Frame K ps s t) (hp : Part.scan ∈ ps) (x : Scan) : Frame K ps s { t with scan := x } := by
  refine ⟨fun j hj => (rd_congr t _ j rfl rfl).trans (h.regs j hj), fun q hq => ?_, h.fuse, h.time, h.pending⟩
  have := h.parts q hq
  cases q <;> first | exact this | exact absurd hp hq
theorem Frame.set_entries (h : Frame K ps s t) (hp : Part.entries ∈ ps) (x : List Entry) : Frame K ps s { t with entries := x } := by
  refine ⟨fun j hj => (rd_congr t _ j rfl rfl).trans (h.regs j hj), fun q hq => ?_, h.fuse, h.time, h.pending⟩
  have := h.parts q hq
  cases q <;> first | exact this | exact absurd hp hq
theorem Frame.set_endSeq (h : Frame K ps s t) (hp : Part.endSeq ∈ ps) (x : Nat) : Frame K ps s { t with endSeq := x } := by
  refine ⟨fun j hj => (rd_congr t _ j rfl rfl).trans (h.regs j hj), fun q hq => ?_, h.fuse, h.time, h.pending⟩
  have := h.parts q hq
  cases q <;> first | exact this | exact absurd hp hq
theorem Frame.set_produced (h : Frame K ps s t) (hp : Part.produced ∈ ps) (x : Tab (List Event)) : Frame K ps s { t with produced := x } := by
  refine ⟨fun j hj => (rd_congr t _ j rfl rfl).trans (h.regs j hj), fun q hq => ?_, h.fuse, h.time, h.pending⟩
  have := h.parts q hq
  cases q <;> first | exact this | exact absurd hp hq
theorem Frame.set_staged (h : Frame K ps s t) (hp : Part.staged ∈ ps) (x : Tab (List Event)) : Frame K ps s { t with staged := x } := by
  refine ⟨fun j hj => (rd_congr t _ j rfl rfl).trans (h.regs j hj), fun q hq => ?_, h.fuse, h.time, h.pending⟩
  have := h.parts q hq
  cases q <;> first | exact this | exact absurd hp hq
theorem Frame.set_msix (h : Frame K ps s t) (hp : Part.msix ∈ ps) (x : List (Nat × Nat)) : Frame K ps s { t with msix := x } := by
  refine ⟨fun j hj => (rd_congr t _ j rfl rfl).trans (h.regs j hj), fun q hq => ?_, h.fuse, h.time, h.pending⟩
  have := h.parts q hq
  cases q <;> first | exact this | exact absurd hp hq
theorem Frame.set_cores (h : Frame K ps s t) (hp : Part.cores ∈ ps) (x : Tab Core) : Frame K ps s { t with cores := x } := by
  refine ⟨fun j hj => (rd_congr t _ j rfl rfl).trans (h.regs j hj), fun q hq => ?_, h.fuse, h.time, h.pending⟩
  have := h.parts q hq
  cases q <;> first | exact this | exact absurd hp hq
theorem Frame.set_looms (h : Frame K ps s t) (hp : Part.looms ∈ ps) (x : Tab Loom) : Frame K ps s { t with looms := x } := by
  refine ⟨fun j hj => (rd_congr t _ j rfl rfl).trans (h.regs j hj), fun q hq => ?_, h.fuse, h.time, h.pending⟩
  have := h.parts q hq
  cases q <;> first | exact this | exact absurd hp hq
theorem Frame.set_creel (h : Frame K ps s t) (hp : Part.creel ∈ ps) (x : Tab CreelEnt) : Frame K ps s { t with creel := x } := by
  refine ⟨fun j hj => (rd_congr t _ j rfl rfl).trans (h.regs j hj), fun q hq => ?_, h.fuse, h.time, h.pending⟩
  have := h.parts q hq
  cases q <;> first | exact this | exact absurd hp hq
theorem Frame.set_admitSeq (h : Frame K ps s t) (hp : Part.admitSeq ∈ ps) (x : Nat) : Frame K ps s { t with admitSeq := x } := by
  refine ⟨fun j hj => (rd_congr t _ j rfl rfl).trans (h.regs j hj), fun q hq => ?_, h.fuse, h.time, h.pending⟩
  have := h.parts q hq
  cases q <;> first | exact this | exact absurd hp hq
theorem Frame.set_stacks (h : Frame K ps s t) (hp : Part.stackTab ∈ ps) (x : Tab Stack) : Frame K ps s { t with stackTab := x } := by
  refine ⟨fun j hj => (rd_congr t _ j rfl rfl).trans (h.regs j hj), fun q hq => ?_, h.fuse, h.time, h.pending⟩
  have := h.parts q hq
  cases q <;> first | exact this | exact absurd hp hq
theorem Frame.set_links (h : Frame K ps s t) (hp : Part.links ∈ ps) (x : Tab Link) : Frame K ps s { t with links := x } := by
  refine ⟨fun j hj => (rd_congr t _ j rfl rfl).trans (h.regs j hj), fun q hq => ?_, h.fuse, h.time, h.pending⟩
  have := h.parts q hq
  cases q <;> first | exact this | exact absurd hp hq
theorem Frame.set_router (h : Frame K ps s t) (hp : Part.router ∈ ps) (x : Router) : Frame K ps s { t with router := x } := by
  refine ⟨fun j hj => (rd_congr t _ j rfl rfl).trans (h.regs j hj), fun q hq => ?_, h.fuse, h.time, h.pending⟩
  have := h.parts q hq
  cases q <;> first | exact this | exact absurd hp hq
theorem Frame.set_coh (h : Frame K ps s t) (hp : Part.coh ∈ ps) (x : Coh) : Frame K ps s { t with coh := x } := by
  refine ⟨fun j hj => (rd_congr t _ j rfl rfl).trans (h.regs j hj), fun q hq => ?_, h.fuse, h.time, h.pending⟩
  have := h.parts q hq
  cases q <;> first | exact this | exact absurd hp hq
theorem Frame.set_coll (h : Frame K ps s t) (hp : Part.coll ∈ ps) (x : Coll) : Frame K ps s { t with coll := x } := by
  refine ⟨fun j hj => (rd_congr t _ j rfl rfl).trans (h.regs j hj), fun q hq => ?_, h.fuse, h.time, h.pending⟩
  have := h.parts q hq
  cases q <;> first | exact this | exact absurd hp hq
theorem Frame.set_codecs (h : Frame K ps s t) (hp : Part.codecs ∈ ps) (x : Tab Codec) : Frame K ps s { t with codecs := x } := by
  refine ⟨fun j hj => (rd_congr t _ j rfl rfl).trans (h.regs j hj), fun q hq => ?_, h.fuse, h.time, h.pending⟩
  have := h.parts q hq
  cases q <;> first | exact this | exact absurd hp hq
theorem Frame.set_ledger (h : Frame K ps s t) (hp : Part.ledger ∈ ps) (x : Tab LedgerEnt) : Frame K ps s { t with ledger := x } := by
  refine ⟨fun j hj => (rd_congr t _ j rfl rfl).trans (h.regs j hj), fun q hq => ?_, h.fuse, h.time, h.pending⟩
  have := h.parts q hq
  cases q <;> first | exact this | exact absurd hp hq
theorem Frame.set_ceCounts (h : Frame K ps s t) (hp : Part.ceCounts ∈ ps) (x : Tab (List Word64)) : Frame K ps s { t with ceCounts := x } := by
  refine ⟨fun j hj => (rd_congr t _ j rfl rfl).trans (h.regs j hj), fun q hq => ?_, h.fuse, h.time, h.pending⟩
  have := h.parts q hq
  cases q <;> first | exact this | exact absurd hp hq
theorem Frame.set_blks (h : Frame K ps s t) (hp : Part.blks ∈ ps) (x : Tab Blk) : Frame K ps s { t with blks := x } := by
  refine ⟨fun j hj => (rd_congr t _ j rfl rfl).trans (h.regs j hj), fun q hq => ?_, h.fuse, h.time, h.pending⟩
  have := h.parts q hq
  cases q <;> first | exact this | exact absurd hp hq
theorem Frame.set_resp (h : Frame K ps s t) (hp : Part.resp ∈ ps) (x : Resp) : Frame K ps s { t with resp := x } := by
  refine ⟨fun j hj => (rd_congr t _ j rfl rfl).trans (h.regs j hj), fun q hq => ?_, h.fuse, h.time, h.pending⟩
  have := h.parts q hq
  cases q <;> first | exact this | exact absurd hp hq
theorem Frame.set_freeCtr (h : Frame K ps s t) (hp : Part.freeCtr ∈ ps) (x : Nat) : Frame K ps s { t with freeCtr := x } := by
  refine ⟨fun j hj => (rd_congr t _ j rfl rfl).trans (h.regs j hj), fun q hq => ?_, h.fuse, h.time, h.pending⟩
  have := h.parts q hq
  cases q <;> first | exact this | exact absurd hp hq
theorem Frame.set_creelCache (h : Frame K ps s t) (hp : Part.creelCache ∈ ps) (x : List Nat) : Frame K ps s { t with creelCache := x } := by
  refine ⟨fun j hj => (rd_congr t _ j rfl rfl).trans (h.regs j hj), fun q hq => ?_, h.fuse, h.time, h.pending⟩
  have := h.parts q hq
  cases q <;> first | exact this | exact absurd hp hq
theorem Frame.set_hostFn (h : Frame K ps s t) (hp : Part.hostFn ∈ ps) (x : Option Nat) : Frame K ps s { t with hostFn := x } := by
  refine ⟨fun j hj => (rd_congr t _ j rfl rfl).trans (h.regs j hj), fun q hq => ?_, h.fuse, h.time, h.pending⟩
  have := h.parts q hq
  cases q <;> first | exact this | exact absurd hp hq
theorem Frame.set_posted (h : Frame K ps s t) (hp : Part.posted ∈ ps) (x : List (Nat × List Byte)) : Frame K ps s { t with posted := x } := by
  refine ⟨fun j hj => (rd_congr t _ j rfl rfl).trans (h.regs j hj), fun q hq => ?_, h.fuse, h.time, h.pending⟩
  have := h.parts q hq
  cases q <;> first | exact this | exact absurd hp hq
theorem Frame.set_trip (h : Frame K ps s t) (hp : Part.trip ∈ ps) (x : Trip) : Frame K ps s { t with trip := x } := by
  refine ⟨fun j hj => (rd_congr t _ j rfl rfl).trans (h.regs j hj), fun q hq => ?_, h.fuse, h.time, h.pending⟩
  have := h.parts q hq
  cases q <;> first | exact this | exact absurd hp hq

theorem Frame.setLoom (h : Frame K ps s t) (hp : Part.looms ∈ ps) (l : Nat) (x : Loom) : Frame K ps s (setLoom t l x) := h.set_looms hp _
theorem Frame.setCore (h : Frame K ps s t) (hp : Part.cores ∈ ps) (c : Nat) (x : Core) : Frame K ps s (setCore t c x) := h.set_cores hp _
theorem Frame.setRing (h : Frame K ps s t) (hp : Part.rings ∈ ps) (r : Nat) (x : Ring) : Frame K ps s (setRing t r x) := h.set_rings hp _
theorem Frame.setRegion (h : Frame K ps s t) (hp : Part.regions ∈ ps) (r : Nat) (x : Region) : Frame K ps s (setRegion t r x) :=
  h.set_regions hp _
theorem Frame.setStack (h : Frame K ps s t) (hp : Part.stackTab ∈ ps) (r : Nat) (x : Stack) : Frame K ps s (setStack t r x) := h.set_stacks hp _
theorem Frame.setLink (h : Frame K ps s t) (hp : Part.links ∈ ps) (r : Nat) (x : Link) : Frame K ps s (setLink t r x) := h.set_links hp _
theorem Frame.setCodec (h : Frame K ps s t) (hp : Part.codecs ∈ ps) (r : Nat) (x : Codec) : Frame K ps s (setCodec t r x) := h.set_codecs hp _
theorem Frame.setBlk (h : Frame K ps s t) (hp : Part.blks ∈ ps) (r : Nat) (x : Blk) : Frame K ps s (setBlk t r x) := h.set_blks hp _
theorem Frame.memWr (h : Frame K ps s t) (hp : Part.mem ∈ ps) (a : Nat) (bs : List Byte) : Frame K ps s (memWr t a bs) := h.set_mem hp _
theorem Frame.memZero (h : Frame K ps s t) (hp : Part.mem ∈ ps) (a n : Nat) : Frame K ps s (memZero t a n) := h.set_mem hp _

-- ## Events, interrupts, errors

theorem Frame.produce (h : Frame K ps s t) (hp : Part.produced ∈ ps) (l typ st si : Nat) (i0 i1 : Word64) :
    Frame K ps s (produce t l typ st si i0 i1) := by
  unfold Machine.produce
  exact Frame.ite (fun _ => h) fun _ => h.set_produced hp _

theorem Frame.produceAll (h : Frame K ps s t) (hp : Part.produced ∈ ps) (ls : List Nat) (typ st si : Nat) (i0 i1 : Word64) :
    Frame K ps s (produceAll t ls typ st si i0 i1) :=
  Frame.foldl _ _ h fun _ _ _ hv => hv.produce hp _ _ _ _ _ _

/-- A vector raised is a message or a pending bit. -/
theorem Frame.raiseMsix (h : Frame K ps s t) (hp : Part.msix ∈ ps) (fn v : Nat) (hk : K (pbaKey fn v)) : Frame K ps s (raiseMsix t fn v) := by
  unfold Machine.raiseMsix
  exact Frame.ite (fun _ => Frame.ite (fun _ => h.wrB hk _ _) fun _ => h.set_msix hp _) fun _ => h

/-- An error recorded in a block changes only that block's error registers. -/
theorem Frame.blkError (h : Frame K ps s t) (page cls : Nat) (loc : Word32) (h1 : K (page + 0x10)) (h2 : K (page + 0x18)) (h3 : K (page + 0x1C)) :
    Frame K ps s (blkError t page cls loc) := by
  unfold Machine.blkError
  refine Frame.wrB (Frame.wrF (Frame.ite (fun _ => ?_) fun _ => h) h3 _ _ _) h1 _ _
  exact (h.wr h2 _).wrF h3 _ _ _

/-- A refused access changes only CHIP_ACC_ERR and its count. -/
theorem Frame.accRefuse (h : Frame K ps s t) (off kind : Nat) (h1 : K 0x108) (h2 : K 0x10C) : Frame K ps s (accRefuse t off kind) := by
  unfold Machine.accRefuse
  exact Frame.addCnt (Frame.ite (fun _ => h) fun _ => h.wr h1 _) h2 _

/-- A doorbell error changes only the page's error registers. -/
theorem Frame.dbError (h : Frame K ps s t) (l bit r : Nat) (h1 : K (dbPage l + 0x10)) (h2 : K (dbPage l + 0x14)) :
    Frame K ps s (dbError t l bit r) := by
  unfold Machine.dbError
  exact Frame.wrB (Frame.ite (fun _ => h.wr h2 _) fun _ => h) h1 _ _

/-- The demands in force change only PCM_SHED_STAT and the power manager's record. -/
theorem Frame.syncDemand (h : Frame K ps s t) (hk : K (pcmKey 0x110)) (hp : Part.power ∈ ps) : Frame K ps s (syncDemand t) := by
  unfold Machine.syncDemand
  exact ((h.wrF hk _ _ _).wrF hk _ _ _).set_power hp _

/-- The ceilings change only DR_OP_STAT of the regions. -/
theorem Frame.reeval (h : Frame K ps s t) (hk : ∀ r, r < 8 → K (regionKey r 0x104)) : Frame K ps s (reeval t) := by
  unfold Machine.reeval
  exact Frame.foldl _ _ h fun r hr v hv => (hv.wrF (hk r (by simpa using hr)) _ _ _).wrF (hk r (by simpa using hr)) _ _ _

/-- A write on a page is lost while S5 gates the block, else refused while the page is under reset, else done (R393, R435). -/
theorem onPage_cases (page off : Nat) (f : State → State) (s : State) :
    (asleep s page = true ∧ onPage page off f s = s) ∨
    (asleep s page = false ∧ (blkOf s page).resetting = true ∧ onPage page off f s = accRefuse s (page + off) 2) ∨
    (asleep s page = false ∧ (blkOf s page).resetting = false ∧ onPage page off f s = f s) := by
  unfold onPage
  cases h : asleep s page <;> cases h' : (blkOf s page).resetting <;> simp

/-- A gated unit does nothing at S5, and its effect otherwise (R393). -/
theorem awake_cases (f : State → State) (s : State) :
    (s.power.s5 = true ∧ awake f s = s) ∨ (s.power.s5 = false ∧ awake f s = f s) := by
  unfold awake
  cases h : s.power.s5 <;> simp

/-- An action that posts events is done, or its producer waits (R223). -/
theorem posting_cases (f : State → State) (s : State) :
    (overfull s (f s) = true ∧ posting f s = s) ∨ (overfull s (f s) = false ∧ posting f s = f s) := by
  unfold posting
  cases h : overfull s (f s) <;> simp

theorem Frame.awake {f : State → State} (h : Frame K ps s (f s)) : Frame K ps s (Machine.awake f s) := by
  rcases awake_cases f s with ⟨_, e⟩ | ⟨_, e⟩ <;> rw [e]
  · exact Frame.refl s
  · exact h

theorem Frame.posting {f : State → State} (h : Frame K ps s (f s)) : Frame K ps s (Machine.posting f s) := by
  rcases posting_cases f s with ⟨_, e⟩ | ⟨_, e⟩ <;> rw [e]
  · exact Frame.refl s
  · exact h

end Sys2Proof.Machine
end

