-- ==== Sys2Proof/Laws/Memory.lean ====
section
/-! SUPPORT. Byte storage: what is read after a write, whatever the storage, and that every operation on it keeps the canonical form. -/

namespace Sys2Proof.Machine

-- ## Reading after writing

theorem cget_filter (p : Nat → Bool) (m : List Host.Cell) (x : Nat) :
    cget (m.filter fun c => p c.1) x = if p x then cget m x else 0 := by
  induction m with
  | nil => cases h : p x <;> simp [cget, tget]
  | cons c r ih =>
    obtain ⟨b, w⟩ := c
    unfold cget at ih
    cases hb : p b <;> simp only [List.filter, hb, cget, tget, ih]
    · by_cases hx : b = x
      · subst hx; simp [hb]
      · simp [hx]
    · by_cases hx : b = x
      · subst hx; simp [hb]
      · simp [hx]

/-- One byte read after one byte written. -/
theorem cget_cput (m : List Host.Cell) (a x : Nat) (v : Byte) : cget (cput m a v) x = if x = a then v else cget m x := by
  unfold cput
  split
  · rename_i h
    have e := cget_filter (fun y => decide (y ≠ a)) m x
    unfold tdel
    rw [e, h]
    by_cases hx : x = a <;> simp [hx]
  · unfold cget
    by_cases hx : x = a
    · subst hx; simp
    · simp [hx, tget_tput_of_ne _ _ _ _ _ hx]

/-- A byte outside a written string reads as before. -/
theorem cget_cputs_outside (bs : List Byte) : ∀ (m : List Host.Cell) (a x : Nat),
    (x < a ∨ a + bs.length ≤ x) → cget (cputs m a bs) x = cget m x := by
  induction bs with
  | nil => intro m a x _; rfl
  | cons v r ih =>
    intro m a x hx
    have hl : (v :: r).length = r.length + 1 := rfl
    have e := ih (cput m a v) (a + 1) x (by omega)
    simp only [cputs]
    rw [e, cget_cput m a x v]
    have : x ≠ a := by omega
    simp [this]

/-- A byte inside a written string reads as written. -/
theorem cget_cputs_inside (bs : List Byte) : ∀ (m : List Host.Cell) (a i : Nat),
    i < bs.length → cget (cputs m a bs) (a + i) = bs.getD i 0 := by
  induction bs with
  | nil => intro m a i h; simp at h
  | cons v r ih =>
    intro m a i hi
    simp only [cputs]
    cases i with
    | zero =>
      rw [cget_cputs_outside r (cput m a v) (a + 1) (a + 0) (by omega), cget_cput m a (a + 0) v]
      simp
    | succ i =>
      have e := ih (cput m a v) (a + 1) i (by simpa using hi)
      have : a + (i + 1) = a + 1 + i := by omega
      rw [this, e]
      simp

/-- A byte string read where it was written. -/
theorem cgets_cputs (bs : List Byte) (m : List Host.Cell) (a : Nat) : cgets (cputs m a bs) a bs.length = bs := by
  apply List.ext_getElem
  · simp [cgets]
  · intro i h1 h2
    simp [cgets, cget_cputs_inside bs m a i h2, List.getElem?_eq_getElem h2]

/-- A zeroed range reads zero, and the rest as before. -/
theorem cget_czero (m : List Host.Cell) (a n x : Nat) :
    cget (czero m a n) x = if x < a ∨ a + n ≤ x then cget m x else 0 := by
  unfold czero
  rw [cget_filter (fun y => decide (y < a) || decide (a + n ≤ y)) m x]
  simp

-- ## The canonical form

/-- Canonical form below a bound: the form of a tail behind address `lo`. -/
theorem wf_cons (a : Nat) (v : Byte) (r : List Host.Cell) :
    Memory.wf ((a, v) :: r) = true ↔ v ≠ 0 ∧ (∀ c, r.head? = some c → a < c.1) ∧ Memory.wf r = true := by
  cases r with
  | nil => simp [Memory.wf]
  | cons q r => obtain ⟨b, w⟩ := q; simp [Memory.wf, and_assoc]

theorem head_tput (m : List Host.Cell) (a : Nat) (v : Byte) (lo : Nat) (hlo : lo < a)
    (hm : ∀ c, m.head? = some c → lo < c.1) : ∀ c, (tput m a v).head? = some c → lo < c.1 := by
  cases m with
  | nil => simp [tput, hlo]
  | cons p r =>
    obtain ⟨b, w⟩ := p
    have hb : lo < b := hm (b, w) rfl
    unfold tput
    split
    · simp [hlo]
    · split <;> simp [hlo, hb]

theorem tput_wf (m : List Host.Cell) (a : Nat) (v : Byte) (hv : v ≠ 0) (hm : Memory.wf m = true) : Memory.wf (tput m a v) = true := by
  induction m with
  | nil => simpa [tput, Memory.wf] using hv
  | cons p r ih =>
    obtain ⟨b, w⟩ := p
    have ht := (wf_cons b w r).1 hm
    unfold tput
    split
    · rename_i h1
      exact (wf_cons a v _).2 ⟨hv, by intro c hc; cases hc; exact h1, hm⟩
    · split
      · rename_i h1 h2
        subst h2
        exact (wf_cons b v r).2 ⟨hv, ht.2.1, ht.2.2⟩
      · exact (wf_cons b w _).2 ⟨ht.1, head_tput r a v b (by omega) ht.2.1, ih ht.2.2⟩

theorem filter_wf (p : Host.Cell → Bool) (m : List Host.Cell) (hm : Memory.wf m = true) : Memory.wf (m.filter p) = true := by
  have key : ∀ (m : List Host.Cell) (lo : Nat), Memory.wf m = true → (∀ c, m.head? = some c → lo < c.1) →
      ∀ c, (m.filter p).head? = some c → lo < c.1 := by
    intro m
    induction m with
    | nil => intro lo _ _ c hc; simp at hc
    | cons q r ih =>
      intro lo hw hh c hc
      obtain ⟨b, w⟩ := q
      have ht := (wf_cons b w r).1 hw
      have hb := hh (b, w) rfl
      by_cases hp : p (b, w) = true
      · simp [List.filter, hp] at hc; subst hc; exact hb
      · simp [List.filter, hp] at hc
        exact ih lo ht.2.2 (fun c hc => by have := ht.2.1 c hc; omega) c (by simpa using hc)
  induction m with
  | nil => rfl
  | cons q r ih =>
    obtain ⟨b, w⟩ := q
    have ht := (wf_cons b w r).1 hm
    by_cases hp : p (b, w) = true
    · simp only [List.filter, hp]
      exact (wf_cons b w _).2 ⟨ht.1, key r b ht.2.2 ht.2.1, ih ht.2.2⟩
    · simp only [List.filter, hp]; exact ih ht.2.2

/-- Writing one byte keeps the canonical form. -/
theorem cput_wf (m : List Host.Cell) (a : Nat) (v : Byte) (hm : Memory.wf m = true) : Memory.wf (cput m a v) = true := by
  unfold cput
  split
  · exact filter_wf _ m hm
  · rename_i h; exact tput_wf m a v h hm

/-- Writing a byte string keeps the canonical form. -/
theorem cputs_wf (bs : List Byte) : ∀ (m : List Host.Cell) (a : Nat), Memory.wf m = true → Memory.wf (cputs m a bs) = true := by
  induction bs with
  | nil => intro m a h; exact h
  | cons v r ih => intro m a h; exact ih _ _ (cput_wf m a v h)

/-- Zeroing a range keeps the canonical form. -/
theorem czero_wf (m : List Host.Cell) (a n : Nat) (hm : Memory.wf m = true) : Memory.wf (czero m a n) = true :=
  filter_wf _ m hm

theorem memWr_wf (s : State) (a : Nat) (bs : List Byte) (h : Memory.wf s.mem = true) : Memory.wf (memWr s a bs).mem = true :=
  cputs_wf bs s.mem a h

theorem memZero_wf (s : State) (a n : Nat) (h : Memory.wf s.mem = true) : Memory.wf (memZero s a n).mem = true :=
  czero_wf s.mem a n h

/-- A fold that writes bytes one by one keeps the canonical form. -/
theorem foldl_wf {α : Type} (f : List Host.Cell → α → List Host.Cell) (hf : ∀ m x, Memory.wf m = true → Memory.wf (f m x) = true) (xs : List α) :
    ∀ m, Memory.wf m = true → Memory.wf (xs.foldl f m) = true := by
  induction xs with
  | nil => exact fun _ h => h
  | cons x r ih => exact fun m h => ih _ (hf m x h)

/-- Memory that an aborted collective leaves undefined is in canonical form (R346). -/
theorem spoil_wf (s : State) (l : Nat) (rs : List (Nat × Nat)) (h : Memory.wf s.mem = true) : Memory.wf (spoil s l rs).mem = true := by
  refine foldl_wf _ (fun m p hm => foldl_wf _ (fun m i hm => ?_) _ m hm) rs _ h
  split
  · exact cput_wf _ _ _ hm
  · exact hm

/-- Storage after reset is in canonical form. -/
theorem reset_storage : Memory.wf State.reset.mem = true ∧ Memory.wf State.reset.host = true ∧ Memory.wf State.reset.spi = true :=
  ⟨rfl, rfl, rfl⟩

end Sys2Proof.Machine
end

