-- ==== Sys2Proof/Laws/Power.lean ====
section
/-! SUPPORT. What the demands for shedding leave in PCM_SHED_STAT (R391, R396): one lemma per field. -/

namespace Sys2Proof.Machine

theorem foldl_max_lt (l : List Nat) (a n : Nat) (ha : a < n) (h : ∀ x, x ∈ l → x < n) : l.foldl max a < n := by
  induction l generalizing a with
  | nil => exact ha
  | cons x r ih => exact ih (max a x) (by have := h x (by simp); omega) fun y hy => h y (by simp [hy])

theorem init_le_foldl_max (l : List Nat) (a : Nat) : a ≤ l.foldl max a := by
  induction l generalizing a with
  | nil => exact Nat.le_refl _
  | cons y r ih => exact Nat.le_trans (Nat.le_max_left a y) (ih (max a y))

theorem le_foldl_max (l : List Nat) (a x : Nat) (h : x ∈ l) : x ≤ l.foldl max a := by
  induction l generalizing a with
  | nil => cases h
  | cons y r ih =>
    rcases List.mem_cons.mp h with rfl | h
    · exact Nat.le_trans (Nat.le_max_right a x) (init_le_foldl_max r (max a x))
    · exact ih (max a y) h

/-- Every demand fits DEMAND. -/
theorem demandNow_lt (s : State) : demandNow s < 8 := by
  apply foldl_max_lt _ _ _ (by omega)
  intro x hx
  simp only [demands, List.mem_cons, List.not_mem_nil, or_false] at hx
  have hb := s.power.budget.isLt
  have hf : rdF s (pcmKey 0x10C) 2 0 < 8 := Nat.mod_lt _ (by decide)
  have h1 : b2n s.power.sag < 8 := by cases s.power.sag <;> decide
  rcases hx with rfl | rfl | rfl | rfl | rfl | rfl
  · exact h1
  · exact hb
  · split <;> omega
  · split <;> omega
  · split <;> omega
  · exact hf

theorem testBit_six (a b c d e f : Bool) (i : Fin 6) :
    ((if a then 2 ^ 0 else 0) + ((if b then 2 ^ 1 else 0) + ((if c then 2 ^ 2 else 0) + ((if d then 2 ^ 3 else 0) +
      ((if e then 2 ^ 4 else 0) + (if f then 2 ^ 5 else 0))))) : Nat).testBit i = [a, b, c, d, e, f].getD i false := by
  revert a b c d e f i
  decide

/-- Bit `i` of CAUSE tells whether demand `i` stands. -/
theorem causeBits_eq (s : State) (i : Nat) (h : i < 6) : (causeBits s).testBit i = decide ((demands s).getD i 0 ≠ 0) := by
  have := testBit_six (decide ((demands s).getD 0 0 ≠ 0)) (decide ((demands s).getD 1 0 ≠ 0)) (decide ((demands s).getD 2 0 ≠ 0))
    (decide ((demands s).getD 3 0 ≠ 0)) (decide ((demands s).getD 4 0 ≠ 0)) (decide ((demands s).getD 5 0 ≠ 0)) ⟨i, h⟩
  simp only [decide_eq_true_eq] at this
  unfold causeBits
  rw [show List.range 6 = [0, 1, 2, 3, 4, 5] from rfl]
  simp only [List.map_cons, List.map_nil, List.sum_cons, List.sum_nil, Nat.add_zero]
  rw [this]
  match i, h with
  | 0, _ => rfl
  | 1, _ => rfl
  | 2, _ => rfl
  | 3, _ => rfl
  | 4, _ => rfl
  | 5, _ => rfl

@[simp] theorem syncDemand_level (s : State) : rdF (syncDemand s) (pcmKey 0x110) 2 0 = rdF s (pcmKey 0x110) 2 0 := by
  unfold syncDemand
  rw [show ∀ (x : State) (p : Power), rdF ({ x with power := p } : State) (pcmKey 0x110) 2 0 = rdF x (pcmKey 0x110) 2 0 from fun _ _ => rfl]
  rw [rdF_wrF_apart _ _ _ _ _ _ _ (by omega) (by omega) (by omega), rdF_wrF_apart _ _ _ _ _ _ _ (by omega) (by omega) (by omega)]

@[simp] theorem syncDemand_demand (s : State) : rdF (syncDemand s) (pcmKey 0x110) 5 3 = demandNow s := by
  unfold syncDemand
  rw [show ∀ (x : State) (p : Power), rdF ({ x with power := p } : State) (pcmKey 0x110) 5 3 = rdF x (pcmKey 0x110) 5 3 from fun _ _ => rfl]
  rw [rdF_wrF_apart _ _ _ _ _ _ _ (by omega) (by omega) (by omega), rdF_wrF_self _ _ _ _ _ (by omega) (by omega)]
  exact Nat.mod_eq_of_lt (demandNow_lt s)

theorem syncDemand_cause (s : State) (i : Nat) (h : i < 6) :
    fbit (rd (syncDemand s) (pcmKey 0x110)) (8 + i) = decide ((demands s).getD i 0 ≠ 0) := by
  unfold syncDemand
  rw [show ∀ (x : State) (p : Power), rd ({ x with power := p } : State) (pcmKey 0x110) = rd x (pcmKey 0x110) from fun _ _ => rfl]
  rw [rd_wrF_self]
  unfold fbit
  rw [getLsbD_setFld _ _ _ _ _ (by omega) (by omega), if_pos (by omega), show 8 + i - 8 = i by omega]
  exact causeBits_eq s i h

/-- A demand is at most DEMAND. -/
theorem le_demandNow (s : State) (x : Nat) (h : x ∈ demands s) : x ≤ demandNow s := le_foldl_max _ _ _ h

@[simp] theorem rd_syncDemand_of_ne (s : State) (k : Nat) (h : k ≠ pcmKey 0x110) : rd (syncDemand s) k = rd s k := by
  unfold syncDemand
  show rd (wrF (wrF s _ _ _ _) _ _ _ _) k = _
  rw [rd_wrF_of_ne _ _ _ _ _ _ h, rd_wrF_of_ne _ _ _ _ _ _ h]

end Sys2Proof.Machine
end

