-- ==== Sys2Proof/Laws/Waits.lean ====
section
/-! SUPPORT. What a command that makes accesses can do (R16, R223, R390): one lemma per shared operation of waiting. -/

namespace Sys2Proof.Machine

variable {K : Nat → Prop} {ps : List Part} {s t u : State}

@[simp] theorem fresh_trip (s : State) : (fresh s).trip = {} := rfl
@[simp] theorem rd_fresh (s : State) (k : Nat) : rd (fresh s) k = rd s k := rd_congr s _ k rfl rfl

/-- Nothing of a command is left waiting once it is served. -/
theorem served_none_of_need (h : t.trip.need.isSome = true) : served t = none := by simp [served, h]

/-- A command that needs nothing and has no bill is served as it stands. -/
theorem served_of_idle (h : t.trip = {}) : served t = some t := by
  unfold served
  rw [h]
  show some { t with trip := {} } = some t
  rw [← h]

/-- Everything a command that makes accesses can do: nothing at S5; all of its effect, or none while a producer waits, once its accesses are served; else what its first missing access sets off. -/
theorem asking_cases (f : State → State) (s : State) :
    (s.power.s5 = true ∧ asking f s = s) ∨
    (s.power.s5 = false ∧ ∃ u, served (f (fresh s)) = some u ∧
      ((overfull s u = true ∧ asking f s = fresh s) ∨ (overfull s u = false ∧ asking f s = u))) ∨
    (s.power.s5 = false ∧ served (f (fresh s)) = none ∧
      ((∃ n, (f (fresh s)).trip.need = some n ∧ asking f s = pursue (fresh s) n) ∨
       ((f (fresh s)).trip.need = none ∧ asking f s = fresh s))) := by
  unfold asking
  cases h5 : s.power.s5
  · right
    cases hs : served (f (fresh s)) with
    | some u =>
      left
      refine ⟨rfl, u, rfl, ?_⟩
      cases ho : overfull s u <;> simp [ho]
    | none =>
      right
      refine ⟨rfl, rfl, ?_⟩
      cases hn : (f (fresh s)).trip.need with
      | some n => exact .inl ⟨n, rfl, by simp⟩
      | none => exact .inr ⟨rfl, by simp⟩
  · exact .inl ⟨rfl, by simp⟩

/-- A command whose accesses are served and whose producers are free does its whole effect (R16, R223). -/
theorem asking_of_served {f : State → State} (h5 : s.power.s5 = false) (hs : served (f (fresh s)) = some u)
    (ho : overfull s u = false) : asking f s = u := by
  simp [asking, h5, hs, ho]

/-- A unit of work is done exactly when its accesses are served. -/
theorem workUnit_done (s t : State) : (workUnit s t).2 = (served t).isSome := by
  unfold workUnit
  cases served t <;> simp
  split <;> rfl

/-- Everything a read by PF0 can do (R439): read at once, read behind the writes that waited, or wait with them. -/
theorem behindPosted_cases (f : State → State) (s : State) :
    ((s.posted = [] ∨ s.power.s5 = true) ∧ behindPosted f s = f s) ∨
    (s.posted ≠ [] ∧ s.power.s5 = false ∧ (asking landPosted s).posted = [] ∧ behindPosted f s = f (asking landPosted s)) ∨
    (s.posted ≠ [] ∧ s.power.s5 = false ∧ (asking landPosted s).posted ≠ [] ∧ behindPosted f s = asking landPosted s) := by
  unfold behindPosted
  by_cases hp : s.posted = []
  · exact .inl ⟨.inl hp, by simp [hp]⟩
  · by_cases h5 : s.power.s5 = true
    · exact .inl ⟨.inr h5, by simp [h5]⟩
    · have h5 : s.power.s5 = false := by simpa using h5
      by_cases hl : (asking landPosted s).posted = []
      · exact .inr (.inl ⟨hp, h5, hl, by simp [hp, h5, hl]⟩)
      · exact .inr (.inr ⟨hp, h5, hl, by simp [hp, h5, hl]⟩)

end Sys2Proof.Machine
end

