-- ==== Sys2Proof/Tests/Slice0.lean ====
section
/-! SUPPORT. Small tests: an ill-formed term for each check of WellFormed, and for each statement with hypotheses a state and operands that meet them, clause by clause, at the bounds of their ranges. The values come from the rules that the statements cite. -/

open Sys2Proof Sys2Proof.Machine

namespace Sys2Proof.Tests

set_option Elab.async false

/-- The state after reset with some registers set. -/
def regs0 (ks : List (Nat × Nat)) : State := { State.reset with regs := ks.map fun p => (p.1, BitVec.ofNat 32 p.2) }

/-- S5 is not in force, and nothing is staged: such a state meets `atWork` and `eventsOpen`, which many statements ask for. -/
def calm (s : State) : Bool := s.staged.isEmpty && !s.power.s5

theorem calm_events_open (s : State) (h : s.staged = []) : eventsOpen s := by
  intro l
  rw [h]
  exact Nat.zero_lt_succ _

theorem calm_at_work (s : State) (h : calm s = true) : atWork s := by
  simp only [calm, Bool.and_eq_true, Bool.not_eq_true', List.isEmpty_iff] at h
  exact ⟨h.2, calm_events_open s h.1⟩

theorem test_hyp_calm_reset : calm State.reset = true := rfl

-- ## WellFormed refuses

theorem test_wf_peer_flit : Instr.wf (.peerBootFlit (List.replicate 57 0) false) = false := by decide +kernel
theorem test_wf_training : Instr.wf (.dramTraining [(8, 0, ⟨[], []⟩)] 0) = false ∧ Instr.wf (.dramTraining [(0, 32, ⟨[], []⟩)] 0) = false := by decide +kernel
theorem test_wf_temps : Instr.wf (.junctionTempSample 0 []) = false ∧ Instr.wf (.stackTempSample 0 [1]) = false := by decide +kernel
theorem test_wf_gradient : Instr.wf (.neighbourGradientStep 3 3) = false := by decide +kernel
theorem test_wf_power : Instr.wf (.pkgPowerSample [] 0) = false ∧ Instr.wf (.tlmRefresh [] 0) = false := by decide +kernel
theorem test_wf_register : Instr.wf (.registerWrite (.bar2 0) 0x40000 .w32 0) = false ∧ Instr.wf (.registerWrite (.bar2 1) 0x4000 .w32 0) = false ∧
    Instr.wf (.registerWrite (.config 0) 0x1000 .w32 0) = false := by decide +kernel
theorem test_wf_parity : Instr.wf (.arrayParityFault 0 false 130 0 false 0) = false := by decide +kernel
theorem test_wf_flr : Instr.wf (.vfFlr 0) = false := by decide +kernel
theorem test_wf_scrub : Instr.wf (.patrolScrub 0 32 .clean) = false ∧ Instr.wf (.patrolScrub 1 0 .clean) = false := by decide +kernel
theorem test_wf_ue : Instr.wf (.dramUe (2 ^ 40) none) = false := by decide +kernel
theorem test_wf_bar4 : Instr.wf (.bar4Read 0 0) = false ∧ Instr.wf (.bar4Write (2 ^ 39) [1]) = false := by decide +kernel
theorem test_wf_host : Instr.wf (.hostWindowAccess 0 0 (.read 4)) = false ∧ Instr.wf (.hostWindowAccess 0 0x40000000000 (.write [1])) = false := by decide +kernel
theorem test_wf_flit : Instr.wf (.flitReceive 0 ⟨0, 0, 0, 0, [], 0⟩ 0 0) = false := by decide +kernel
theorem test_wf_message : Instr.wf (.tapestryRequest { op := .write, addr := 4095, data := [1, 2] }) = false := by decide +kernel
theorem test_wf_coherent : Instr.wf (.coherentStore 0 1 127 [1, 2]) = false := by decide +kernel
theorem test_wf_open : Instr.wf (.collOpen ⟨0, 0, 0, 0⟩ ⟨0x40, 1, 0, 0, 0, 0, false, 0, 0⟩) = false := by decide +kernel
theorem test_wf_bar4_size : Instr.wf (.resizableBarWrite 10) = false ∧ Instr.wf (.resizableBarWrite 9) = true := by decide +kernel

-- ## Hypotheses of the statements: power, clocks and heat

theorem test_hyp_pin_and_board_demands : 3 ≤ bootStage (regs0 [(rstKey 0x108, 3)]) ∧ (regs0 [(rstKey 0x108, 3)]).power.s5 = false ∧
    rdF (regs0 [(rstKey 0x108, 3)]) (rstKey 0x104) 3 2 ≠ 3 := by decide +kernel

def shedState (lv since now : Nat) : State :=
  { regs0 [(pcmKey 0x110, lv)] with time := BitVec.ofNat 64 now, power := { State.reset.power with belowSince := some (BitVec.ofNat 64 since) } }

theorem test_hyp_shedding_levels :
    (5#3).toNat ≤ 5 ∧ 5 < (6#3).toNat ∧
    (let s := { State.reset with power := { State.reset.power with prochot := true } }
     shedLevel s < demandNow s) ∧
    (let s := shedState 4 0 195313
     calm s = true ∧ s.power.belowSince = some 0 ∧ 195313 ≤ (s.time - 0).toNat ∧ demandNow s < shedLevel s ∧ shedLevel s < 5) ∧
    (let s := shedState 5 0 195313
     let t := { s with power := { s.power with s5 := true } }
     s.staged = [] ∧ t.power.belowSince = some 0 ∧ demandNow t < shedLevel t ∧ t.power.s5 = true ∧ 5 ≤ shedLevel s ∧ s.power.s5 = false) ∧
    (let s := shedState 4 0 195312
     s.power.belowSince = some 0 ∧ (s.time - 0).toNat < 195313) ∧
    State.reset.power.belowSince = none := by decide +kernel

theorem test_hyp_droop_and_heat :
    (let s := setRegion { State.reset with time := 20 } 0 { regionOf State.reset 0 with droop := true, droopAt := 0 }
     (regionOf s 0).droop = true ∧ elapsedUs s.time (regionOf s 0).droopAt 1 = true) ∧
    (∃ x ∈ [(944 : BitVec 11)].take 12, 944 ≤ x.toNat) ∧ (∀ x ∈ [(903 : BitVec 11)].take 12, x.toNat < 904) ∧
    ((∀ x ∈ [(943 : BitVec 11), 904].take 12, x.toNat < 944) ∧ ∃ x ∈ [(943 : BitVec 11), 904].take 12, 904 ≤ x.toNat) ∧
    ((∀ x ∈ [(799 : BitVec 11), 784].take 16, x.toNat < 800) ∧ ∃ x ∈ [(799 : BitVec 11), 784].take 16, 784 ≤ x.toNat) ∧
    (∃ x ∈ [(1000 : BitVec 11)].take 12, 1000 ≤ x.toNat) ∧ (∃ x ∈ [(800 : BitVec 11)].take 16, 800 ≤ x.toNat) ∧
    (∀ x ∈ [(783 : BitVec 11)].take 16, x.toNat < 784) ∧ (∃ x ∈ [(840 : BitVec 11)].take 16, 840 ≤ x.toNat) := by decide +kernel

theorem test_hyp_operating_points :
    (blkOf State.reset (regionKey 0 0)).resetting = false ∧
    (let s := regs0 [(regionKey 0 0x100, 3)]
     (regionOf s 0).target = none ∧ rdF s (regionKey 0 0x104) 2 0 < rdF (reeval s) (regionKey 0 0x104) 5 3) ∧
    (let s := regs0 [(regionKey 0 0x104, 5)]
     (regionOf s 0).target = none ∧ rdF (reeval s) (regionKey 0 0x104) 5 3 < rdF s (regionKey 0 0x104) 2 0) ∧
    (regionOf (setRegion State.reset 0 { regionOf State.reset 0 with target := some 2 }) 0).target = some 2 ∧
    (let s := { regs0 [(regionKey 0 0x108, 600), (regionKey 1 0x108, 300)] with time := 20000 }
     (1 : RegionId).val ∈ regionNbrs 0 ∧ elapsedUs s.time (regionOf s 0).gradAt 1000 = true ∧ regionTj s 1 + 280 < regionTj s 0 ∧ rdF s (regionKey 0 0x104) 5 3 < 7) ∧
    (let s := { State.reset with time := 20000 }
     rdF s (pcmKey 0x114) 11 0 < (2601#12).toNat ∧ s.power.pkgCeil < 7 ∧ elapsedUs s.time s.power.pkgFallAt 100 = true) ∧
    (let s := { State.reset with time := 20000, power := { State.reset.power with pkgCeil := 1 } }
     (2470#12).toNat * 100 ≤ rdF s (pcmKey 0x114) 11 0 * 95 ∧ 0 < s.power.pkgCeil ∧ elapsedUs s.time s.power.pkgRiseAt 1000 = true) ∧
    (2600#12).toNat ≤ rdF State.reset (pcmKey 0x114) 11 0 := by decide +kernel

theorem test_hyp_time_and_telemetry : fbit (rd State.reset (tlmKey 0x100)) 0 = false ∧ fbit (rd (regs0 [(tlmKey 0x100, 1)]) (tlmKey 0x100)) 0 = true ∧
    (blkOf State.reset 0x700000).resetting = false := by decide +kernel

/-- A loom's page owner bits: block `p` owned by loom `l`, which is in state `st`. -/
def owned (p l st : Nat) : State := regs0 [(p + 0x34, l + 2 ^ 31), (loomKey l 0x108, st)]

theorem test_hyp_core_gating :
    (let s := regs0 [(coreKey 5 0x38, 0)]
     rd s (coreKey 5 0x38) = 0 ∧ (coreOf s 5).slots = [] ∧ (∀ p ∈ (coreOf s 5).rx, p.2 = [])) ∧
    rd (regs0 [(coreKey 5 0x38, 1)]) (coreKey 5 0x38) = 1 ∧
    (let s := owned (coreKey 5 0) 3 2
     rd s (coreKey 5 0x38) = 2 ∧ ownerOfPage s (coreKey 5 0) = some 3 ∧ 2 ≤ loomSt s 3 ∧ s.power.s5 = false ∧ coreAvail s 5 = true) := by decide +kernel


/-- Registers set in a state. -/
def withRegs (s : State) (ks : List (Nat × Nat)) : State := ks.foldl (fun s p => wr s p.1 (BitVec.ofNat 32 p.2)) s

/-- A bolt on core `c`, one stage, its store at unit 0. -/
def boltAt (c : Nat) : Bolt := { stages := [{ sel := 0, cores := [c], spares := [], chain := false }] }

/-- An entry of ring `r` of loom 0, its first byte `kind`. -/
def entryOf (r kind : Nat) (p : Phase) : Entry :=
  { ring := r, seq := 0, loom := 0, bytes := BitVec.ofNat 8 kind :: List.replicate 63 0, fetchTime := 0, phase := p }

theorem test_hyp_s5_entry_and_exit :
    (let s := regs0 [(pcmKey 0x110, 5)]
     shedLevel s = 5 ∧ calm s = true ∧ allStopped s = true ∧ (served (enterS5 (fresh s))).isSome = true) ∧
    (let s := { regs0 [(pcmKey 0x110, 5)] with time := 19532, entries := [{ entryOf 0 1 .running with bolt := some (boltAt 3) }] }
     shedLevel s = 5 ∧ calm s = true ∧ allStopped s = false ∧ elapsedUs s.time s.power.riseAt 1000 = true ∧ (served (enterS5 (fresh s))).isSome = true ∧
      elapsedUs 19531 s.power.riseAt 1000 = false) ∧
    (let s := { regs0 [(pcmKey 0x110, 4), (drcKey 7 0x100, 1), (loomKey 31 0x108, 2)] with power := { State.reset.power with s5 := true } }
     s.power.s5 = true ∧ shedLevel s ≠ 5 ∧ stackSt s 7 = 1 ∧ loomSt s 31 = 2) := by decide +kernel

-- ## Hypotheses of the statements: resets and boot

theorem test_hyp_pins_of_reset_and_pcie :
    (let s := { State.reset with board := { State.reset.board with resetN := false } }
     s.board.resetN = false ∧ s.board.vddIo18 = true ∧ s.board.thermTrip = false ∧ bitsOf (3#7).toNat 1 0 = 3 ∧ bitsOf (0#7).toNat 1 0 ≠ 3 ∧ bitsOf (125#7).toNat 1 0 = 1) ∧
    (let s := { State.reset with board := { State.reset.board with resetN := false, thermTrip := true } }
     s.board.resetN = false ∧ s.board.vddIo18 = true ∧ s.board.thermTrip = true) ∧
    (let s := { State.reset with board := { State.reset.board with vddIo18 := false } }
     s.board.vddIo18 = false ∧ s.board.resetN = true ∧ s.board.thermTrip = false) ∧
    (9#5).toNat ≤ 9 ∧ 9 < (10#5).toNat := by decide +kernel

theorem test_hyp_image_loads :
    (let s := State.reset
     s.boot.waiting = true ∧ s.boot.present = false ∧ bootSource s = 0 ∧ s.boot.nextSlot ≤ 1) ∧
    (let s := { State.reset with boot := { State.reset.boot with nextSlot := 1 } }
     s.boot.waiting = true ∧ s.boot.present = false ∧ bootSource s = 0 ∧ s.boot.nextSlot = 1) ∧
    (let s := regs0 [(rstKey 0x104, 1), (mbxKey 0x108, 0x4000000)]
     s.boot.waiting = true ∧ bootSource s = 1 ∧ s.boot.loading = false) ∧
    (let s := { regs0 [(rstKey 0x104, 2), (wfpKey 0 0x104, 2)] with boot := { State.reset.boot with imgBytes := 0x3FFFFFF } }
     s.boot.waiting = true ∧ s.boot.present = false ∧ bootSource s = 2 ∧ linkWorks s 0 = true ∧ s.boot.imgBytes + [(1 : Byte)].length ≤ 0x4000000) := by decide +kernel

theorem test_hyp_images_and_debug :
    (let s := { State.reset with boot := { State.reset.boot with present := true } }
     s.boot.waiting = true ∧ s.boot.present = true ∧ imageCheck s ≠ 0) ∧
    (let s := { State.reset with boot := { State.reset.boot with firmware := true } }
     s.boot.firmware = true) ∧
    ({ State.reset with fuse := { State.reset.fuse with dbgDisable := true } } : State).fuse.dbgDisable = true ∧
    liveLooms (regs0 [(loomKey 5 0x108, 1)]) ≠ [] := by decide +kernel

/-- Telemetry with every rail at its nominal value. -/
def railRegs : List (Nat × Nat) := (List.range 24).map fun n => (tlmKey (0x140 + 4 * n), railMv n)

theorem test_hyp_boot_order :
    (let s := { regs0 ((rstKey 0x108, 2) :: railRegs) with boot := { State.reset.boot with firmware := true } }
     s.boot.firmware = true ∧ bootStage s = 2 ∧ s.board.pwrOk = true ∧ railsInRange s = true ∧ rdF s (rstKey 0x104) 3 2 ≠ 3 ∧ s.board.refclk = true) ∧
    (let s := regs0 [(rstKey 0x108, 3)]
     bootStage s = 3 ∧ rdF s (rstKey 0x108) 15 8 = 0) ∧
    (let s := { regs0 [(rstKey 0x108, 4)] with time := 9765625 }
     bootStage s = 4 ∧ elapsedUs s.time s.boot.weftSince 500000 = true) ∧
    (let s := { regs0 [(rstKey 0x108, 5)] with boot := { State.reset.boot with ltssm := true } }
     s.boot.ltssm = true ∧ s.board.perstN = true ∧ blockClosed s .pcie = false ∧ bootStage s = 5) ∧
    (let s := { regs0 [(rstKey 0x108, 4)] with boot := { State.reset.boot with ltssm := true } }
     s.boot.ltssm = true ∧ s.board.perstN = true ∧ blockClosed s .pcie = false ∧ bootStage s ≠ 5) := by decide +kernel

-- ## Hypotheses of the statements: registers and block resets

theorem test_hyp_field_writes :
    (∃ f ∈ (fieldsAt (rstKey 0x10C)).getD [], f.acc = .rw ∧ f.min = 1) ∧ (∃ f ∈ (fieldsAt 0x300100).getD [] ++ (fieldsAt 0x300104).getD [] ++ (fieldsAt 0x300800).getD [], f.acc = .rwl ∨ f.acc = .rw ∨ f.acc = .ro) ∧
    (∃ f ∈ (fieldsAt 0x10).getD [], f.acc = .w1c) ∧ (∃ f ∈ (fieldsAt 0x20).getD [], f.acc = .w1s) ∧ (∃ f ∈ (fieldsAt 0x28).getD [], f.acc = .wo) ∧
    (∃ f ∈ (fieldsAt 0x0).getD [], f.acc = .ro) ∧ pageLocked (regs0 [(8, 1)]) 0x110 = true ∧ pageLocked State.reset 0x110 = false := by decide +kernel

theorem test_hyp_register_accesses :
    (let s := { regs0 [(loomKey 31 0x108, 1), (rstKey 0x108, 0x16)] with boot := { State.reset.boot with pcieUp := true } }
     let off : BitVec 26 := 0x1F010
     s.boot.pcieUp = true ∧ bar2Page s 0 off.toNat = some (31, true) ∧ pagesOpen s 0 31 = true ∧ (fieldsAt (dbPage 31 + off.toNat % 0x1000)).isSome = true ∧
      asleep s (pageOf .chip) = false ∧ State.reset.boot.pcieUp = false ∧ deadPage { s with fuse := { s.fuse with coreEn := 0 } } (.core 0) = true ∧
      deadPage s (.core 0) = false) ∧
    (fieldsAt (coreKey 383 0x100)).isSome = true ∧ blockAt (coreKey 383 0x100) = some (.core 383) ∧
    coreEnabled { State.reset with fuse := { State.reset.fuse with coreEn := 0 } } 383 = false ∧
    (let off : BitVec 26 := 0x110
     blockAt off.toNat = some .chip ∧ (fieldsAt off.toNat).isSome = true ∧ 0x100 ≤ off.toNat % 0x1000 ∧ off.toNat % 4 = 0 ∧ off.toNat < 0x310000 ∧
      (blkOf State.reset (pageOf .chip)).resetting = false) ∧
    (let off : BitVec 26 := 0x57F100
     blockAt off.toNat = some (.core 383) ∧ (fieldsAt off.toNat).isSome = true ∧ 0x318100 ≤ off.toNat ∧ coreEnabled State.reset 383 = true) ∧
    (let off : BitVec 26 := 0x3FFFFFC
     off.toNat % 4 = 0 ∧ fieldsAt off.toNat = none) ∧ (0x111#26).toNat % 4 ≠ 0 ∧
    State.reset.power.s5 = false ∧ (blkOf State.reset 0x200000).resetting = false ∧ lockable .chip = true ∧ lockable .pcm = false ∧ devValid State.reset = false ∧ devValid (regs0 [(tapKey 0x100, 2 ^ 31)]) = true := by decide +kernel

/-- The state after reset with one block's reset record. -/
def blk0 (p : Nat) (x : Blk) : State := setBlk State.reset p x

theorem test_hyp_block_reset_sequence :
    (let s := State.reset
     deadPage s (.core 0) = false ∧ asleep s (pageOf (.core 0)) = false ∧ resetRefused s (.core 0) = false ∧ (blkOf s (pageOf (.core 0))).resetting = false ∧ (blkOf s (pageOf (.core 0))).pending = false) ∧
    (let s := owned (coreKey 7 0) 0 2
     resetRefused s (.core 7) = true ∧ (blkOf s (pageOf (.core 7))).resetting = false) ∧
    resetRefused State.reset .chip = true ∧
    (let s := regs0 [(pageOf .tap + 0x24, 1)]
     resetRefused s .tap = false ∧ (blkOf s (pageOf .tap)).resetting = false ∧ fbit (rd s (pageOf .tap + 0x24)) 0 = true) ∧
    fbit (rd State.reset (pageOf .tap + 0x24)) 0 = false ∧ (0xA4 : Word32) ≠ 0xA5 ∧
    (let s := blk0 (pageOf (.core 2)) { pending := true, keyHeld := true }
     (blkOf s (pageOf (.core 2))).pending = true ∧ (blkOf s (pageOf (.core 2))).resetting = false ∧ blockQuiet s (.core 2) = true) ∧
    (let s := { blk0 (pageOf .knots) { pending := true } with time := 19532 }
     (blkOf s (pageOf .knots)).pending = true ∧ (blkOf s (pageOf .knots)).resetting = false ∧ fbit (rd s (pageOf .knots + 0x24)) 0 = false ∧
      elapsedUs s.time (blkOf s (pageOf .knots)).timerAt (rdF s (rstKey 0x10C) 19 0) = true) ∧
    (let s := blk0 (pageOf (.region 5)) { resetting := true }
     (blkOf s (pageOf (.region 5))).resetting = true ∧ (blkOf s (pageOf (.region 5))).again = false) := by decide +kernel

/-- Loom 0 in state `st` with rings 0 to 15, knots 0 to 7 and one window over the first 1 MiB of stack 0. -/
def loom0 (st : Nat) : State :=
  { regs0 [(loomKey 0 0x108, st)] with live := [(loomKey 0 0x114, 16), (loomKey 0 0x118, 0), (loomKey 0 0x11C, 8), (loomKey 0 0x208, 16), (loomKey 0 0x20C, 7)] }

/-- A SUBMIT ring's descriptor bytes, 16 entries at address `b`, enabled, its records to ring 1. -/
def descRing (b : Nat) : Ring := { base := BitVec.ofNat 64 b, log2 := 4, enable := true, cplRing := 1 }

theorem test_hyp_indirect_windows :
    (let s := regs0 [(0x20140, 262143)]
     (blkOf s 0x20000).resetting = false ∧ cfgBusy s .pf0 = false ∧ rdF s 0x20140 17 0 = 262143) ∧
    (let s := withRegs (loom0 1) [(dbPage 0 + 0x100, 15)]
     loomSt s 0 ≠ 0 ∧ cfgBusy s (.loom 0) = false ∧ rdF s (dbPage 0 + 0x100) 17 0 < lvF s 0 0x114 18 0) ∧
    (let s := withRegs { loom0 2 with rings := [(1, { descRing 0x1000 with kind := 1 })] } [(0x20180, 0x2000), (0x20188, 0x10004), (0x201A4, 1)]
     (blkOf s 0x20000).resetting = false ∧ cfgBusy s .pf0 = false ∧ cfgRefused s 0 (rdF s 0x20140 17 0) 262144 (regBytes s 0x20180 16) = false ∧
      ringBusy s (rdF s 0x20140 17 0) = false) ∧
    (let s := State.reset
     (blkOf s 0x20000).resetting = false ∧ cfgBusy s .pf0 = false ∧ cfgRefused s 0 (rdF s 0x20140 17 0) 262144 (regBytes s 0x20180 16) = true ∧
      (blkOf s 0x22000).resetting = false ∧ (blkOf s 0x200000).resetting = false ∧ s.power.s5 = false) ∧
    (∀ l ∈ [0, 1], (let s := { loom0 2 with creel := [(0, { creelOfImage State.reset l (List.replicate 256 0) with state := 1 })] }
     loomSt s 0 ≠ 0 ∧ (tfind s.creel (rdF s (stPage 0 + 0x100) 17 0)).map CreelEnt.loom = some l)) := by decide +kernel

-- ## Hypotheses of the statements: rings, bolts and events

/-- The chip READY with PCIe up, loom 0 in state `st`. -/
def ready0 (st : Nat) : State := { withRegs (loom0 st) [(rstKey 0x108, 0x16)] with boot := { State.reset.boot with pcieUp := true } }

theorem test_hyp_doorbells :
    doorOpen State.reset 0 0 = false ∧ doorOpen (ready0 1) 0 0 = true ∧ doorOpen (ready0 1) 1 0 = false ∧
    (let s := { ready0 1 with rings := [(15, { descRing 0x1000 with wp := 3, rp := 1 })] }
     let g := ringOf s (ringBase s 0 + 15)
     15 < lvF s 0 0x114 18 0 ∧ g.enable = true ∧ g.kind = 0 ∧ (g.wp - g.rp).toNat < ((17 : Word32) - g.rp).toNat ∧ ((17 : Word32) - g.rp).toNat ≤ ringSize g ∧
      (18 : Word32) ≠ g.wp ∧ ringSize g < ((18 : Word32) - g.rp).toNat ∧ (2 : Word32) ≠ g.wp ∧ ((2 : Word32) - g.rp).toNat ≤ (g.wp - g.rp).toNat) ∧
    (let s := { ready0 1 with rings := [(2, { descRing 0x1000 with kind := 1, wp := 3, rp := 1 })] }
     let g := ringOf s (ringBase s 0 + 2)
     2 < lvF s 0 0x114 18 0 ∧ g.enable = true ∧ g.kind ≠ 0 ∧ 0 < ((3 : Word32) - g.rp).toNat ∧ ((3 : Word32) - g.rp).toNat ≤ ringHeld g ∧
      ringHeld g < ((4 : Word32) - g.rp).toNat) ∧
    lvF (ready0 1) 0 0x114 18 0 ≤ 16 := by decide +kernel

/-- Loom 0 RUNNING with a SUBMIT ring 0 that holds one entry at address `b`, of kind `k`. -/
def oneEntry (b k : Nat) : State :=
  { loom0 2 with rings := [(0, { descRing b with wp := 1 })], mem := cput [] b (BitVec.ofNat 8 k) }

/-- The scanner about to take class 0. -/
def scanned (s : State) : State := withRegs { s with scan := { cls := 0, left := 1 } } [(0x20100, 1)]

/-- The state in which the scanner takes an entry of ring 0 of loom 0, as class 0's last turn. -/
def turn0 (s : State) : State := { fresh s with scan := { cls := 0, left := 0, loom := tput s.scan.loom 0 0, ring := tput s.scan.ring 0 0 } }

theorem test_hyp_entry_fetch :
    scanChoice (fresh State.reset) = none ∧
    (let s := scanned (oneEntry 0x100000 1)
     calm s = true ∧ scanChoice (fresh s) = some (0, 0, 0, 0) ∧ usable (turn0 s) 0 (ringSlot (ringOf s 0) (ringOf s 0).rp) 64 false = false) ∧
    (∀ k ∈ [0, 1, 5], (let s := scanned (oneEntry 0xFFC00 k)
     calm s = true ∧ scanChoice (fresh s) = some (0, 0, 0, 0) ∧ (ringOf s 0).wbAddr = 0 ∧ badEntry (BitVec.ofNat 8 k :: List.replicate 63 0) = decide (k = 5) ∧
      (match takeEntry (turn0 s) 0 0 with
       | (_, .ok bs) => decide (bs = BitVec.ofNat 8 k :: List.replicate 63 0)
       | (_, .error _) => false) = true ∧ (served (fetchEntry (turn0 s) 0 0)).isSome = true)) := by decide +kernel

/-- A fence entry of ring `r`: the knot and value it waits for and the knot it signals. -/
def fenceOf (r wk sk v : Nat) (p : Phase) : Entry :=
  { entryOf r 4 p with bytes := cgets (cputs [] 0 ([4, 0, 0, 0, 0, 0, 0, 0] ++ toLe 2 wk ++ toLe 2 sk ++ [1, 0, 0, 0] ++ toLe 8 v)) 0 64 }

theorem test_hyp_fences :
    (let e := fenceOf 3 0xFFFF 7 0 .fetched
     let s := { loom0 2 with entries := [e] }
     headEntry s 3 = some e ∧ s.power.s5 = false ∧ entKind e = 4 ∧ e.phase = .fetched ∧ boltsBefore s e = false ∧ fieldLe e.bytes 8 2 = 0xFFFF ∧
      knotInLoom s e.loom (fieldLe e.bytes 10 2) = true) ∧
    (let e := { fenceOf 3 0 0xFFFF 5 .fetched with fetchSeq := 1 }
     let s := { loom0 2 with entries := [{ entryOf 4 1 .running with bolt := some (boltAt 0) }, e] }
     headEntry s 3 = some e ∧ bitOf (byteAt e.bytes 12) 0 = true ∧ boltsBefore s e = true) ∧
    (let e := fenceOf 3 7 7 5 .fetched
     let s := { loom0 2 with entries := [e], knots := [(7, 4)] }
     headEntry s 3 = some e ∧ boltsBefore s e = false ∧ knotInLoom s e.loom (fieldLe e.bytes 8 2) = true ∧
      ¬ (fieldLe e.bytes 8 2 = 0xFFFF ∨ fieldLe e.bytes 16 8 ≤ (knotOf s (fieldLe e.bytes 8 2)).toNat)) ∧
    (let e := fenceOf 3 0 8 0 .fetched
     let s := { loom0 2 with entries := [e] }
     headEntry s 3 = some e ∧ fieldLe e.bytes 10 2 ≠ 0xFFFF ∧ knotInLoom s e.loom (fieldLe e.bytes 10 2) = false) ∧
    (let e := fenceOf 3 7 7 5 .fenceWait
     headEntry { loom0 2 with entries := [e] } 3 = some e ∧ e.phase = .fenceWait ∧ fieldLe e.bytes 16 8 ≤ (knotOf { loom0 2 with knots := [(7, 5)] } (fieldLe e.bytes 8 2)).toNat ∧
      ¬ fieldLe e.bytes 16 8 ≤ (knotOf { loom0 2 with knots := [(7, 4)] } (fieldLe e.bytes 8 2)).toNat) := by decide +kernel

/-- Bytes placed in local memory. -/
def withMem (s : State) (ps : List (Nat × List Byte)) : State := ps.foldl (fun s p => memWr s p.1 p.2) s

/-- The header of a bolt of loom 0 with `n` operations and one stage, its shed table and its stage table behind them. -/
def headBytes (n : Nat) : List Byte :=
  [1, 0, 0, 0] ++ toLe 4 n ++ toLe 4 0x1800000 ++ toLe 4 0 ++ toLe 4 0 ++ toLe 4 0 ++ toLe 4 0 ++ toLe 4 262144 ++ toLe 4 1 ++
  toLe 4 (256 + 64 * n) ++ toLe 4 1 ++ List.replicate 16 0 ++ toLe 4 (320 + 64 * n) ++ toLe 2 1

/-- The words of an operation with no predecessor and no knot: its opcode and the words from word 5 on that are not 0. -/
def opWords (o : Nat) (ws : List (Nat × Nat)) : List Word32 :=
  (List.range 16).map fun i => BitVec.ofNat 32 (if i = 0 then o else if i < 4 then 2 ^ 32 - 1 else tget 0 ws i)

/-- Bytes of descriptor words. -/
def wordBytes (ws : List Word32) : List Byte := ws.flatMap fun w => toLe 4 w.toNat

/-- A bolt of NOPs for core `c` as a client lays it out. -/
def nopBolt (n c : Nat) : List (Nat × List Byte) :=
  [(0, headBytes n)] ++ (List.range n).map (fun i => (256 + 64 * i, wordBytes (opWords 0 []))) ++
  [(256 + 64 * n, toLe 4 n), (320 + 64 * n, [0, 0, 1, 0, 0, 0, 0, 0] ++ toLe 2 c)]

/-- A BOLT entry of ring 0 for `n` bytes at address `a`. -/
def boltEntryOf (a n : Nat) (p : Phase) : Entry :=
  { entryOf 0 1 p with bytes := [1, 0, 0, 0, 0, 0, 0, 0] ++ toLe 8 a ++ toLe 4 n ++ List.replicate 44 0 }

/-- Loom 0 RUNNING with cores 0 and 1, its park registers set, and a bolt in its window. -/
def loadState (p : Phase) (ps : List (Nat × List Byte)) (n : Nat) : State :=
  withMem { withRegs (loom0 2) [(loomKey 0 0x484, 1000), (loomKey 0 0x4A4, 192)] with
    live := tput (loom0 2).live (loomKey 0 0x140) 3, entries := [boltEntryOf 0x1000 n p] } (ps.map fun q => (0x1000 + q.1, q.2))

theorem test_hyp_records_and_events :
    (let e := { boltEntryOf 0 0 .ended with ring := 0 }
     let s := { loom0 2 with entries := [e], rings := [(0, descRing 0x2000), (1, { descRing 0xFFC00 with kind := 1, wp := 15 })] }
     calm s = true ∧ nextRecord (fresh s) 1 = some e ∧ (tryPush (fresh s) ⟨0x020, 0, 1⟩ e.loom 1 (recordBytes e (ringOf s 1).wp)).2 = true ∧
      (served (writeNext (fresh s) 1)).isSome = true ∧ cfgBusy s .pf0 = false ∧ ringOpen (fresh (setRing s 1 { ringOf s 1 with wp := 16 })) ⟨0x020, 0, 1⟩ 0 1 1 = false ∧
      cfgBusy s (.loom (Fin.ofNat 32 e.loom)) = false ∧ (ringOf s 1).wbAddr = 0 ∧ (ringOf s 1).kind ≠ 2 ∧ isTap (ringSlot (ringOf s 1) 15) = false ∧
      holdsBytes s (ringSlot (ringOf s 1) 15) = true) ∧
    (let e : Event := { type := 1, loom := 0, srcType := 0x20, srcInst := 0, time := 5, info0 := 6, info1 := 7 }
     let s := { loom0 2 with staged := [(0, [e])], rings := [(0, { descRing 0x2000 with kind := 2 })] }
     tget [] s.staged 0 = [e] ∧ (tget [] s.staged 0).length < 1024 ∧ s.power.s5 = false ∧ tget [] s.staged 1 = [] ∧
      (let p := tryPush (fresh s) ⟨0x014, 0, 0⟩ 0 (lvF s 0 0x124 17 0) (eventBytes e)
       p.2 = true ∧ (served p.1).isSome = true) ∧
      ringOpen (fresh (setRing s 0 { ringOf s 0 with enable := false })) ⟨0x014, 0, 0⟩ 0 (lvF s 0 0x124 17 0) 1 = false) ∧
    (let s := { loom0 2 with rings := [(15, { descRing 0x100000 with kind := 1 })] }
     ringLoom s 15 = some 0 ∧ (ringOf s 15).enable = true ∧ (ringOf s 15).kind ≠ 0 ∧ pushFault s ⟨0x020, 0, 15⟩ 0 15 = some 0x100000) ∧
    (let s := { loom0 2 with rings := [(0, { descRing 0x100000 with wp := 1 })] }
     ringLoom s 0 = some 0 ∧ (ringOf s 0).enable = true ∧ (ringOf s 0).kind = 0 ∧ (ringOf s 0).wp ≠ (ringOf s 0).rp ∧ (ringOf s 0).faulted = false ∧
      usable s 0 (ringSlot (ringOf s 0) (ringOf s 0).rp) 64 false = false) := by decide +kernel

theorem test_hyp_bolt_loading :
    (let s := loadState .fetched (nopBolt 1 0) 400
     let e := boltEntryOf 0x1000 400 .fetched
     calm s = true ∧ blockClosed s .loader = false ∧ freshEntry s 0 = some e ∧ entKind e = 1 ∧ headEntry s 0 = some e ∧ (frontCode (fresh s) e).2 = 0 ∧
      fitFrom (storeUsed (frontCode (fresh s) e).1) (cdiv (entryBolt e).2 65536) 4097 0 = some 0 ∧ (served (storeBolt (frontCode (fresh s) e).1 e 0)).isSome = true) ∧
    (let s := loadState .fetched [(0, [2])] 400
     let e := boltEntryOf 0x1000 400 .fetched
     freshEntry s 0 = some e ∧ headEntry s 0 = some e ∧ (frontCode (fresh s) e).2 = 2 ∧ (served (rejectBolt (frontCode (fresh s) e).1 e 2 noOp)).isSome = true) ∧
    (let s0 := loadState .fetched (nopBolt 1 0) 400
     let e := boltEntryOf 0x1000 400 .fetched
     let s := { s0 with entries := { entryOf 1 1 .running with bolt := some { units := 4096 } } :: s0.entries }
     freshEntry s 0 = some e ∧ headEntry s 0 = some e ∧ (frontCode (fresh s) e).2 = 0 ∧ (served (frontCode (fresh s) e).1).isSome = true ∧
      fitFrom (storeUsed (frontCode (fresh s) e).1) (cdiv (entryBolt e).2 65536) 4097 0 = none) ∧
    (let s0 := loadState .fetched [] 400
     let e := { boltEntryOf 0x1000 400 .fetched with seq := 1 }
     let s := { s0 with entries := [entryOf 0 1 .running, e] }
     freshEntry s 0 = some e ∧ entKind e = 1 ∧ headEntry s 0 = some (entryOf 0 1 .running) ∧ (entryOf 0 1 .running).seq ≠ e.seq ∧ (frontCode (fresh s) e).2 ≠ 0) ∧
    (let s := loadState .waitStore (nopBolt 1 0) 400
     let e := boltEntryOf 0x1000 400 .waitStore
     (ringEntries s 0).find? (fun x => decide (x.phase = .waitStore)) = some e ∧ headEntry s 0 = some e ∧
      fitFrom (storeUsed s) (cdiv (entryBolt e).2 65536) 4097 0 = some 0 ∧ (served (storeBolt (fresh s) e 0)).isSome = true) ∧
    (let s0 := loadState .waitStore (nopBolt 1 0) 400
     let s := { s0 with entries := s0.entries ++ [{ entryOf 1 1 .running with bolt := some { units := 4096 } }] }
     fitFrom (storeUsed s) (cdiv (entryBolt (boltEntryOf 0x1000 400 .waitStore)).2 65536) 4097 0 = none) := by decide +kernel

theorem test_hyp_bolt_loading_placed :
    (let s := loadState .fetched (nopBolt 1 0) 400
     let e := boltEntryOf 0x1000 400 .fetched
     let r := boltRead (frontCode (fresh s) e).1 e (entryBolt e).1 (entryBolt e).2
     (r.2.map fun bs => let p := placeBolt r.1 e 0 (entryBolt e).2 bs
      placedFailure p.1 e.loom p.2.1 p.2.2) = some none) ∧
    (let s := loadState .fetched (nopBolt 1 2) 400
     let e := boltEntryOf 0x1000 400 .fetched
     let r := boltRead (frontCode (fresh s) e).1 e (entryBolt e).1 (entryBolt e).2
     (r.2.map fun bs => let p := placeBolt r.1 e 0 (entryBolt e).2 bs
      placedFailure p.1 e.loom p.2.1 p.2.2) = some (some (4, noOp))) ∧
    (let s := { loadState .fetched [] 400 with badBlocks := [68] }
     let e := boltEntryOf 0x1000 400 .fetched
     (boltRead s e (entryBolt e).1 (entryBolt e).2).2 = none) := by decide +kernel

/-- A bolt of loom 0 on core 0 whose operations have the words `ops`, its entry in phase `p`; core 0 powered, with the record `k`. -/
def coreRun (p : Phase) (ops : List (List Word32)) (k : Core) : State :=
  withMem { withRegs (loom0 2) [(coreKey 0 0x38, 0)] with
    live := tput (loom0 2).live (loomKey 0 0x140) 3, entries := [{ entryOf 0 1 p with bolt := some (boltAt 0) }], cores := [(0, { k with bolt := some (0, 0) })] }
    ((0x1790000000, headBytes ops.length) :: (List.range ops.length).map fun i => (0x1790000100 + 64 * i, wordBytes (ops.getD i [])))

/-- An issued operation of index 0. -/
def issued (ws : List Word32) : Slot := { idx := 0, words := ws, knotMet := true, issued := true }

/-- Core 0 runs one operation, issued. -/
def issuedRun (ws : List Word32) (f : Slot → Slot) : State := coreRun .running [ws] { slots := [f (issued ws)], fetchAt := 1 }

theorem test_hyp_bolt_runs :
    (let s := coreRun .ready [opWords 0 []] {}
     (headEntry s 0).map (fun e => (e.phase, e.bolt)) = some (.ready, some (boltAt 0)) ∧ coresBusy s 0 (boltSet (boltAt 0)) 0 0 = false ∧ (loomOf s 0).paused = false ∧
      loomSt s 0 = 2 ∧ ((boltCores (boltAt 0)).any fun c => regionHalted s (coreRegion c)) = false ∧ noRepeats (boltCores (boltAt 0)) = true ∧
      s.power.s5 = false ∧ namesRetired s (boltAt 0) = false ∧ namesRetired (setCore s 0 { retired := true }) (boltAt 0) = true) ∧
    (let s := setLoom (coreRun .ready [opWords 0 []] {}) 0 { paused := true }
     (headEntry s 0).map Entry.phase = some .ready ∧ (loomOf s 0).paused = true) ∧
    (let s := coreRun .running [opWords 0 []] { fetchAt := 1, done := [0] }
     calm s = true ∧ boltDone s (boltAt 0) = true ∧ (boltAt 0).parked = false ∧
      (headEntry s 0).any (fun e => decide (e.phase = .running) && decide (e.bolt = some (boltAt 0)) && (served (finishBolt (fresh s) e (boltAt 0) e.status)).isSome) = true) ∧
    (let b := { boltAt 0 with stop := .timeout }
     let e := { entryOf 0 1 .running with bolt := some b }
     let s := { coreRun .running [opWords 0 []] { stopped := true } with entries := [e] }
     boltDone s b = false ∧ stopEnds b = true ∧ (∀ c ∈ boltCores b, coreStopped s c = true) ∧ headEntry s 0 = some e ∧
      (served (finishBolt (fresh s) e b (stopStatus e b))).isSome = true) ∧
    (let s := coreRun .running [opWords 0 []] {}
     boltDone s (boltAt 0) = false ∧ stopEnds (boltAt 0) = false) := by decide +kernel

theorem test_hyp_timeouts_and_failures :
    (let e := { fenceOf 3 0 0 5 .fenceWait with limit := 1000 }
     let s := { loom0 2 with entries := [e], time := 19532 }
     headEntry s 3 = some e ∧ e.limit ≠ 0 ∧ calm s = true ∧ e.phase = .fenceWait ∧ elapsedUs s.time e.start e.limit = true ∧ loomSt s e.loom ≠ 0 ∧
      elapsedUs 19531 e.start e.limit = false) ∧
    (let e := { entryOf 3 2 .fetched with limit := 1000 }
     let s := { loom0 2 with entries := [e], time := 19532 }
     headEntry s 3 = some e ∧ e.phase = .fetched ∧ entKind e = 2 ∧ creelFull s 0 = true ∧ elapsedUs s.time e.fetchTime e.limit = true) ∧
    (let s0 := coreRun .running [opWords 0 []] {}
     let e := { entryOf 0 1 .running with bolt := some (boltAt 0), limit := 1000 }
     let s := { s0 with entries := [e], time := 19532 }
     headEntry s 0 = some e ∧ (boltAt 0).stop = .none ∧ (boltAt 0).parked = false ∧ boltDone s (boltAt 0) = false ∧ e.limit ≤ boltClock s e (boltAt 0)) ∧
    headEntry { loom0 2 with entries := [entryOf 3 4 .fenceWait] } 3 = some (entryOf 3 4 .fenceWait) ∧ (entryOf 3 4 .fenceWait).limit = 0 ∧
    (let b := { boltAt 0 with stop := .failure }
     let s0 := coreRun .running [opWords 0 []] {}
     let s := { s0 with entries := [{ entryOf 0 1 .running with bolt := some b }], time := 195313 }
     s.power.s5 = false ∧ (headEntry s 0).map (fun e => (e.bolt, e.phase)) = some (some b, .running) ∧ (s.time - b.graceAt).toNat = 195313 ∧ (0 : CoreId).val ∈ boltCores b ∧
      coreStopped s 0 = false ∧ (blkOf s (coreKey 0 0)).resetting = false ∧ (blkOf s (coreKey 0 0)).pending = false ∧ fbit (rd s (coreKey 0 0x24)) 0 = false) ∧
    (let s := coreRun .running [opWords 0 []] { fail := some (0, 4, 0, 0) }
     (coreOf s 0).fail = some (0, 4, 0, 0) ∧ (coreOf s 0).bolt = some (0, 0) ∧ ((findEntry s 0 0).map fun e => (e.bolt, e.status)) = some (some (boltAt 0), 0)) := by decide +kernel

theorem test_hyp_event_staging :
    (let e : Event := { type := 1, loom := 31, srcType := 0x20, srcInst := 0, time := 5, info0 := 6, info1 := 7 }
     State.reset.power.s5 = false ∧ tget [] ({ State.reset with produced := [(31, [e])] } : State).produced 31 = [e] ∧ (tget [] State.reset.staged 31).length < 1024 ∧
      1024 ≤ (tget [] ({ State.reset with staged := [(31, List.replicate 1024 e)] } : State).staged 31).length) ∧
    (blkOf (loom0 1) 0x10000).resetting = false ∧ loomSt (loom0 1) 0 ≠ 0 ∧ (∀ v ∈ tget [] (loom0 1).produced 0, v.type ≠ 0x00F0) ∧ loomSt (loom0 1) 1 = 0 ∧
    (∀ owed ∈ [false, true], (let s := { loom0 2 with time := 196, rings := [(15, { descRing 0 with holdoff := 1, holdSince := some 0, owed := owed, msix := 5 })], board := { State.reset.board with msixEn := 1 } }
     (ringOf s 15).holdSince = some 0 ∧ ringLoom s 15 = some 0 ∧ elapsedUs s.time 0 (ringOf s 15).holdoff.toNat = true ∧ (ringOf s 15).owed = owed ∧
      s.board.msixEn.getLsbD (loomFn s 0) = true ∧ fbit (rd s (msixKey (loomFn s 0) 5 + 12)) 0 = true ∧
      fbit (rd (wr s (msixKey 0 5 + 12) 0) (msixKey (loomFn s 0) 5 + 12)) 0 = false)) ∧
    elapsedUs 0 0 1 = false ∧ State.reset.board.msixEn.getLsbD 0 = false := by decide +kernel

-- ## Hypotheses of the statements: a core

theorem test_hyp_operation_flow :
    (let s := coreRun .running [opWords 0 [], opWords 0 []] {}
     (goingBolt s 0).map (fun p => p.2) = some (boltAt 0) ∧ nextDesc s 0 (boltAt 0) (boltOps s (boltAt 0) - (coreOf s 0).fetchAt) (coreOf s 0).fetchAt = some 0 ∧
      beforeStop s 0 (boltAt 0) 0 = true ∧ slotRoom (coreOf s 0) (newSlot s 0 (boltAt 0) 0).deferred = true) ∧
    (let s := coreRun .running [opWords 0 [], opWords 0 []] { fetchAt := 1, slots := List.replicate 32 (issued []) }
     (goingBolt s 0).isSome = true ∧ slotRoom (coreOf s 0) (newSlot s 0 (boltAt 0) 1).deferred = false) ∧
    (let s := coreRun .running [opWords 0 []] { fetchAt := 1 }
     (goingBolt s 0).isSome = true ∧ nextDesc s 0 (boltAt 0) (boltOps s (boltAt 0) - (coreOf s 0).fetchAt) (coreOf s 0).fetchAt = none) ∧
    goingBolt State.reset 0 = none ∧
    (let x : Slot := { idx := 0, words := opWords 0 [], knotMet := true }
     let s := coreRun .running [opWords 0 []] { fetchAt := 1, slots := [x] }
     (goingBolt s 0).map (fun p => p.2) = some (boltAt 0) ∧ issueNext s 0 (boltAt 0) .sequencer = some x ∧ engineFree (coreOf s 0) x = true ∧ heldBack s 0 x = false) ∧
    (let x : Slot := { idx := 1, words := opWords 0x10 [], knotMet := true }
     let s := coreRun .running [opWords 0x10 []] { fetchAt := 1, slots := [issued (opWords 0x10 []), x] }
     issueNext s 0 (boltAt 0) .vector = some x ∧ engineFree (coreOf s 0) x = false) ∧
    issuedOp (issuedRun (opWords 0 []) id) 0 (isOp 0x00) = some (issued (opWords 0 [])) := by decide +kernel

/-- A KNOT operation with word 5 and word 6 and the value 5. -/
def knotWords (w5 w6 : Nat) : List Word32 := opWords 0x28 [(5, w5), (6, w6), (8, 5)]

/-- Device 1 whose loom 0 may signal knots of device 2, over link 0. -/
def tap0 (s : State) : State :=
  { withRegs s [(tapKey 0x100, 1 + 2 ^ 31), (rstKey 0x108, 0x16), (wfpKey 0 0x104, 2)] with
    live := ((tput (tput (tput s.live (loomKey 0 0x384) (2 * 2 ^ 10 + 0x108)) (loomKey 0 0x388) 0x400) (loomKey 0 0x38C) 0x3F)),
    router := { s.router with rt := [(2, (1, 1))] } }

theorem test_hyp_knots :
    (∀ set ∈ [false, true], (let s := issuedRun (knotWords (if set then 1 else 0) 7) id
     issuedOp s 0 (isKnot (if set then 1 else 0)) = some (issued (knotWords (if set then 1 else 0) 7)) ∧ wfld (knotWords (if set then 1 else 0) 7) 6 30 30 = 0 ∧
      s.staged = [] ∧ blockClosed s .knots = false ∧ blockClosed (setBlk s (pageOf .knots) { pending := true }) .knots = true)) ∧
    (let ws := knotWords 0 (2 ^ 30 + 2 * 2 ^ 16)
     let s := issuedRun ws id
     issuedOp s 0 (isKnot 0) = some (issued ws) ∧ wfld ws 6 30 30 = 1 ∧ (issued ws).pos ≠ 1 ∧
      (impFor s (coreLoom s 0) (knotMsg s (issued ws) false).dstDev.toNat (knotMsg s (issued ws) false).addr.toNat 8 .knot).isNone = true) ∧
    (let ws := knotWords 1 (2 ^ 30 + 2 * 2 ^ 16)
     let s := tap0 (issuedRun ws id)
     issuedOp s 0 (isKnot 1) = some (issued ws) ∧
      (impFor s (coreLoom s 0) (knotMsg s (issued ws) true).dstDev.toNat (knotMsg s (issued ws) true).addr.toNat 8 .knot).isNone = false ∧
      maySend s (knotMsg s (issued ws) true) = true ∧ bucketOpen s (coreLoom s 0) = true ∧ (sendReq s (coreLoom s 0) (knotMsg s (issued ws) true) (.op 0 0)).2 = none) ∧
    (let ws := knotWords 0 (2 ^ 30 + 2 * 2 ^ 16)
     issuedOp (issuedRun ws fun x => { x with pos := 1 }) 0 (isKnot 0) = some { issued ws with pos := 1 }) ∧
    (let s := { issuedRun (knotWords 2 7) id with knots := [(7, 5)] }
     issuedOp s 0 (isKnot 2) = some (issued (knotWords 2 7)) ∧ (w64 (knotWords 2 7) 8).toNat ≤ (knotOf s (wfld (knotWords 2 7) 6 15 0)).toNat) ∧
    (let s := { issuedRun (knotWords 2 7) id with knots := [(7, 4)] }
     issuedOp s 0 (isKnot 2) = some (issued (knotWords 2 7)) ∧ (knotOf s (wfld (knotWords 2 7) 6 15 0)).toNat < (w64 (knotWords 2 7) 8).toNat) ∧
    (let k : KnotOp := { idx := 65535, set := true, value := 3 }
     ({ State.reset with knotQ := [k] } : State).knotQ = k :: [] ∧ k.src = none ∧ State.reset.power.s5 = false) ∧ State.reset.knotQ = [] := by decide +kernel

/-- A MATMUL or CONV of BF16 tiles: `m` rows, one column tile, its operands at 0 and 32 KiB, staging and output behind them. -/
def matWords (o m k : Nat) : List Word32 :=
  opWords o [(5, 0x10110), (8, m * 2 ^ 18), (9, 0x100 + 2 ^ 18), (10, k * 2 ^ 18), (14, 0x400), (15, 0x800)]

/-- A window record of one position with one block of 16 channels of `n` bytes. -/
def winBytes (n : Nat) : List Byte :=
  [1, 0, 0, 0, 1, 0, 0, 0] ++ toLe 4 n ++ toLe 4 n ++ [1, 0, 1, 0, 1, 0, 1, 0, 1, 0, 1, 0, 1, 1, 1, 0, 1, 1, 1, 0, 1, 1, 1, 0] ++ List.replicate 24 0

/-- The same state with a window record in core 0's bolt. -/
def withWin (n : Nat) (s : State) : State := withMem s [(0x1790000034, toLe 4 0x400 ++ toLe 4 1), (0x1790000400, winBytes n)]

theorem test_hyp_matrix_ops :
    (let x := issued (matWords 1 1 1)
     let s := issuedRun (matWords 1 1 1) id
     arrayOp s 0 = some (x, { op := 0 }) ∧ openMats s 0 = [(x, { op := x.idx })] ∧ 0 < mNT x.words ∧ tilePasses x 0 = [0] ∧ bankHeld (coreOf s 0) false = false ∧ committingMat s 0 = none ∧
      mDst x.words = 0 ∧ matCode s 0 (boltAt 0) x.words = 0 ∧ (coreOf s 0).arr = [] ∧ (coreOf s 0).epiQ = [] ∧ (coreOf s 0).bankBusy = (false, false) ∧
      ((coreOf s 0).slots.map Slot.idx).Nodup ∧ x.pos = 0) ∧
    (let x := issued (matWords 2 1 16)
     let s := withWin 32 (issuedRun (matWords 2 1 16) id)
     openMats s 0 = [(x, { op := x.idx })] ∧ committingMat s 0 = none ∧ mDst x.words = 0 ∧ matCode s 0 (boltAt 0) x.words = 0 ∧ opcode x.words = 0x02) ∧
    (let x := issued (matWords 1 1 1)
     let s := coreRun .running [matWords 1 1 1] { slots := [x], bankBusy := (true, false) }
     arrayOp s 0 = some (x, { op := 0 }) ∧ bankHeld (coreOf s 0) (coreOf s 0).nextBank = true) := by decide +kernel

theorem test_hyp_matrix_tiles :
    (let x := { issued (opWords 1 [(5, 0x10110), (6, 2), (8, 2 ^ 18), (9, 0x100 + 2 ^ 18), (10, 2 ^ 18), (14, 0x400), (15, 0x800)]) with got := toLe 4 0 }
     arrayOp (coreRun .running [x.words] { slots := [x] }) 0 = some (x, { op := 0 }) ∧ tilePasses x 0 = []) ∧
    (let x := { issued (opWords 1 [(5, 0x10110), (6, 2 ^ 8 + 2 ^ 10), (8, 2 ^ 18), (9, 0x100 + 2 ^ 18), (10, 2 ^ 18), (14, 0x400)]) with committing := true }
     let s := withRegs (coreRun .running [x.words] { slots := [x] }) [(portKey 0 1, 0)]
     committingMat s 0 = some x ∧ mDst x.words = 1 ∧ (portStream s 0 x).isEmpty = false ∧ sendRoom s 0 (wfld x.words 6 11 10) x.pos = 0) ∧
    (let x := issued (matWords 1 1 1)
     let s := coreRun .running [matWords 1 1 1] { slots := [x], arr := [{ op := 0, tile := 1 }], epiQ := [(0, 0, some false)], bankBusy := (true, false) }
     arrayOp s 0 = none ∧ (epiOp s 0).any (fun p => decide (p.1 = x) && decide (p.2.1 = 0) && decide (p.2.2.1 = some false)) = true ∧ matCode s 0 (boltAt 0) x.words = 0) ∧
    (let x := { issued (matWords 1 129 1) with committing := true }
     let s := issuedRun (matWords 1 129 1) fun x => { x with committing := true }
     committingMat s 0 = some x ∧ mDst x.words ≠ 1 ∧ matCode s 0 (boltAt 0) x.words = 0 ∧ x.pos + 1 < mMT x.words) ∧
    (let x := { issued (matWords 1 129 1) with committing := true, pos := 1 }
     let s := issuedRun (matWords 1 129 1) fun x => { x with committing := true, pos := 1 }
     committingMat s 0 = some x ∧ mMT x.words ≤ x.pos + 1) := by decide +kernel

/-- An ATTN of one query row over lists of at most 16 bobbins. -/
def attnWords : List Word32 := opWords 8 [(5, 0x10000111), (6, 1 + 2 ^ 18), (9, 0x100), (10, 0x10), (11, 0x1000), (14, 0x20)]

/-- What the ATTN's issue read: COUNT `n`, and the table at 0x2000 with one bobbin. -/
def attnGot (n : Nat) : List Byte := toLe 4 n ++ toLe 8 0x2000 ++ toLe 4 1 ++ List.replicate 52 0

/-- Core 0 runs an ATTN with COUNT `n`; the bobbin's entry is VALID in tier 1 with 2 rows at 0x4000. -/
def attnState (n : Nat) (r : Option AttnRun) : State :=
  withMem (coreRun .running [attnWords] { slots := [{ issued attnWords with got := attnGot n }], attn := r }) [(0x2000, toLe 8 0x4000 ++ [5, 0, 2, 0])]

theorem test_hyp_attention :
    (∀ n ∈ [0, 1], (let s := attnState n none
     let x := { issued attnWords with got := attnGot n }
     attnOp s 0 = some x ∧ (attnRun s 0 x).2.ml.length = aM x.words * headsOf x.words ∧ attnDone x { (attnRun s 0 x).2 with ready := [] } = decide (n = 0))) ∧
    (let a : AttnRun := { op := 0, ready := [(0, 0, 2, 0), (1, 0, 2, 1)] }
     let s := attnState 2 (some a)
     let x := { issued attnWords with got := attnGot 2 }
     calm s = true ∧ (coreOf s 0).promo = none ∧ attnOp (fresh s) 0 = some x ∧ attnRun (fresh s) 0 x = (fresh s, a) ∧ fetchDepth s x.words + 1 ≤ a.ready.length) := by decide +kernel

theorem test_hyp_attention_fetch :
    (let x := { issued attnWords with got := attnGot 1 }
     let a : AttnRun := { op := 0, ml := [(0, 0), (0, 0)] }
     let s := attnState 1 (some a)
     let r := loomRead (fresh s) (coreWho 0 0) (coreLoom s 0) (entAddr x 4 0) 16
     calm s = true ∧ attnRun (fresh s) 0 x = (fresh s, a) ∧ a.ready.length < fetchDepth s x.words + 1 ∧ a.fetchAt < (listCount x).1 ∧ listEnt s 0 x a.fetchAt = 0 ∧ (0 : Int) < (tableLen x 4 : Int) ∧
      wfld x.words 5 26 26 = 0 ∧
      (match r.2 with
       | .ok bs =>
         let e := bobOf bs
         let v := putEnt r.1 (coreWho 0 0) (coreLoom s 0) (entAddr x 4 0) { e with age := ageNow r.1 }
         let w := copyIn (coreWho 0 0) 0 (coreLoom s 0) (bobParts x.words e.addr (t0Slot x.words (a.fetched % (pfDepth x.words + 1))) (min 256 e.fill)) v.1
         e.valid && decide (e.fill ≠ 0) && decide (e.tier ≠ 0) && !e.busy && v.2.isNone && w.2.isNone && (served w.1).isSome
       | .error _ => false) = true) := by decide +kernel

/-- A move of loom 0's bobbin from tier 2 to tier 1, on two of its stacks' bytes; its entry is at 0x2000. -/
def move0 : Move := { loom := 0, ent := 0x2000, src := 0x8000, srcTier := 2, dst := 0x4000, dstTier := 1, len := 512 }

theorem test_hyp_moves :
    (let s := coreRun .running [] { promo := some move0 }
     calm s = true ∧ (coreOf s 0).promo = some move0 ∧ (coreOf s 0).slots = [] ∧ (workUnit s (finishMove (fresh s) (promoWho 0) move0)).2 = true) ∧
    (let s := setLoom (loom0 2) 0 { spill := some move0 }
     calm s = true ∧ (loomOf s 0).spill = some move0 ∧ move0.loom = (0 : LoomId).val ∧ fbit (rd s (loomKey 0 0x404)) 0 = false ∧
      (workUnit s (finishMove (fresh s) (spillWho 0) move0)).2 = true) := by decide +kernel

/-- A KV_WRITE of one position, at position 255 of bobbin 0, whose entry is at 0x2000. -/
def kvWords : List Word32 := opWords 9 [(5, 0x10), (6, 1), (9, 0x100), (14, 0x20), (15, 255)]

theorem test_hyp_attention_write :
    (let x := { issued kvWords with got := (attnGot 0).drop 4 }
     let s := withMem (issuedRun kvWords fun x => { x with got := (attnGot 0).drop 4 }) [(0x2000, toLe 8 0x4000 ++ [5, 0, 2, 0])]
     let l := coreLoom s 0
     let w := coreWho 0 0
     s.staged = [] ∧ issuedOp s 0 (isOp 0x09) = some x ∧ x.pos = 0 ∧ (kvSpan x.words).2 = 1 ∧ (kvSpan x.words).1 < tableLen x 0 ∧
      (let u := kvPlace (fresh s) 0 l x (kvSpan x.words).1
       (match u.2 with
        | .val e =>
          let v := copyOut w 0 l (kvParts x.words (kvSpan x.words).1 e.addr) (if x.committing then u.1 else beginCommit u.1 0 x)
          let y := putEnt v.1 w l (entAddr x 0 (kvSpan x.words).1) (kvEntry v.1 x.words (kvSpan x.words).1 e)
          v.2.isNone && y.2.isNone && (served y.1).isSome
        | _ => false) = true)) := by decide +kernel

theorem test_hyp_spill :
    (let s := withRegs (loom0 2) [(loomKey 0 0x400, 1), (tierKey 0 1 8, 1)]
     calm s = true ∧ loomSt s 0 = 2 ∧ bobCtrl s 0 0 = true ∧ bobHigh s 0 < usedT1 s 0) ∧
    (let s := withRegs (loom0 2) [(loomKey 0 0x404, 1), (loomKey 0 0x408, 1), (loomKey 0 0x40C, 1)]
     (loomOf s 0).spill = none ∧ fbit (rd s (loomKey 0 0x404)) 0 = true ∧ loomSt s 0 = 2 ∧ calm s = true ∧ usedT1 s 0 < bobLow s 0) ∧
    (let s := withRegs (loom0 2) [(loomKey 0 0x400, 1)]
     ¬ (loomSt s 0 = 2 ∧ bobCtrl s 0 0 = true ∧ bobHigh s 0 < usedT1 s 0) ∧ fbit (rd s (loomKey 0 0x404)) 0 = false) ∧
    fbit (rd (withRegs (loom0 2) [(loomKey 0 0x404, 1)]) (loomKey 0 0x404)) 0 = true ∧
    (blkOf (loom0 1) (loomKey 0 0)).resetting = false ∧ loomSt (loom0 1) 0 = 1 ∧ loomSt (loom0 4) 0 = 4 ∧ loomSt (loom0 2) 0 ≠ 1 ∧ loomSt (loom0 2) 0 ≠ 4 := by decide +kernel

/-- Vector operations of one row, FP32 but for the output of DELTA_SELECT: VEC, REDUCE, SOFTMAX, ROPE, POOL, OPTIM, NORM with PARTIAL and FULL, NORM_MERGE and DELTA_SELECT. -/
def vecWords : List (List Word32) :=
  [opWords 0x10 [(6, 4 + 2 ^ 17), (9, 1), (10, 2)],
   opWords 0x11 [(6, 4 + 2 ^ 17), (10, 2)],
   opWords 0x12 [(6, 4 + 2 ^ 17), (10, 2)],
   opWords 0x15 [(6, 64 + 2 ^ 17), (9, 2 ^ 18), (10, 4), (11, 8)],
   opWords 0x16 [(6, 16 + 2 ^ 17), (10, 2)],
   opWords 0x18 [(6, 4 + 2 ^ 17), (8, 1), (9, 2), (10, 1), (11, 3), (12, 4), (15, 5)],
   opWords 0x13 [(6, 4 + 2 ^ 17), (11, 2), (12, 2 ^ 18)],
   opWords 0x13 [(6, 4 + 2 ^ 17), (10, 2)],
   opWords 0x14 [(6, 4 + 2 ^ 17), (10, 2)],
   opWords 0x17 [(5, 0x10000 + 0x100), (6, 4 + 2 ^ 17), (9, 1), (10, 2), (11, 3)]]

theorem test_hyp_vector_rows : ∀ o ∈ [0x10, 0x11, 0x12, 0x15, 0x16, 0x18], ∃ ws ∈ vecWords.take 6,
    vecOp (withWin 64 (issuedRun ws id)) 0 o = some (issued ws) ∧ vecCode (withWin 64 (issuedRun ws id)) (boltAt 0) ws = 0 := by decide +kernel

theorem test_hyp_norm_and_delta :
    (∀ p ∈ [(6, 0x13), (7, 0x13), (8, 0x14), (9, 0x17)], (let ws := vecWords.getD p.1 []
     vecOp (issuedRun ws id) 0 p.2 = some (issued ws) ∧ vecCode (issuedRun ws id) (boltAt 0) ws = 0)) ∧
    nStats (vecWords.getD 6 []) = 1 ∧ nStats (vecWords.getD 7 []) ≠ 1 := by decide +kernel

/-- A SHUTTLE of one row of 256 bytes: SOP and its port, memory address. -/
def shWords (w5 rows a : Nat) : List Word32 := opWords 0x20 [(5, w5), (6, 0), (7, rows), (8, 256), (10, a), (12, 256)]

/-- The rows of a SHUTTLE, served each in its turn, as a test that can be run. -/
def rowsServed (c : Nat) (x : Slot) (soft : List Nat) : Nat → Nat → State → Bool
  | 0, _, _ => true
  | n + 1, j, s => match movePart (fresh s) c (coreLoom s c) x j with
    | (u, none) =>
      let w := workUnit s (updSlot (noteSoft (if j = 0 then beginCommit u c x else u) c x soft j) c x.idx fun y => { y with pos := j + 1 })
      w.2 && rowsServed c x soft n (j + 1) w.1
    | (_, some _) => false

theorem rows_served (c : Nat) (x : Slot) (soft : List Nat) (n j : Nat) (s : State) (h : rowsServed c x soft n j s = true) : partsServed c x soft n j s := by
  induction n generalizing j s with
  | zero => trivial
  | succ n ih =>
    unfold rowsServed at h
    split at h
    · next u hu =>
      simp only [Bool.and_eq_true] at h
      exact ⟨u, _, hu, Prod.ext rfl h.1, ih _ _ h.2⟩
    · exact absurd h (by decide)

/-- The first row of core 0's SHUTTLE fails its access, and all it asked for is served. -/
def rowFails (s : State) (x : Slot) : Bool :=
  let r := movePart (fresh s) 0 (coreLoom s 0) x 0
  r.2.isSome && (served r.1).isSome

theorem test_hyp_shuttles :
    (∀ soft ∈ [[], [0]], (let s := issuedRun (shWords 0 1 0xFFF00) id
     let x := issued (shWords 0 1 0xFFF00)
     s.staged = [] ∧ shuttles s 0 0 = x :: [] ∧ x.pos = 0 ∧ shAllowed s 0 x = true ∧ hostShut s 0 x = false ∧ rowsServed 0 x soft (shParts x.words) 0 s = true ∧
      shRows x.words = 1 ∧ shComp x.words = false ∧ isTap (shBase s 0 x) = false)) ∧
    (let s := { issuedRun (shWords 0 1 0x2000) id with badBlocks := [0x80] }
     let x := issued (shWords 0 1 0x2000)
     shuttles s 0 0 = x :: [] ∧ shAllowed s 0 x = true ∧ hostShut s 0 x = false ∧ 0 < shParts x.words ∧ rowFails s x = true) ∧
    (let s := issuedRun (shWords 1 2 0xFFE00) id
     let x := issued (shWords 1 2 0xFFE00)
     shuttles s 0 1 = x :: [] ∧ shAllowed s 0 x = true ∧ hostShut s 0 x = false ∧ rowsServed 0 x [] (shParts x.words) 0 s = true) ∧
    (let s := issuedRun (shWords 1 1 0xFFF00) id
     let x := issued (shWords 1 1 0xFFF00)
     isTap (shBase s 0 x) = false ∧ holdsBytes s (shBase s 0 x) = true ∧ rowsServed 0 x [] (shParts x.words) 0 s = true ∧ shRows x.words = 1) ∧
    (let s := { issuedRun (shWords 1 1 0xFFE20) id with blks := [(drcKey 0 0, { pending := true })] }
     let x := issued (shWords 1 1 0xFFE20)
     shuttles s 0 1 = x :: [] ∧ shAllowed s 0 x = true ∧ hostShut s 0 x = false ∧ rowFails s x = true) := by decide +kernel

theorem test_hyp_shuttle_faults :
    (let s := issuedRun (shWords 1 1 0x100000) id
     let x := issued (shWords 1 1 0x100000)
     (coreOf s 0).slots.filter (fun x => x.issued && (isShuttle 0 x.words || isShuttle 1 x.words)) = x :: [] ∧
      x.pos = 0 ∧ x.committing = false ∧ shAllowed s 0 x = false ∧ loomSt s (coreLoom s 0) ≠ 0) := by decide +kernel

theorem test_hyp_shuttle_ports :
    (∀ rows ∈ [1, 257], (let s := issuedRun (shWords 0x42 rows 0) id
     let x := issued (shWords 0x42 rows 0)
     shuttles s 0 2 = x :: [] ∧ portDir s 0 (wfld x.words 5 8 6) = some 1 ∧ portTaken s 0 1 x.idx = false ∧ sendRoom s 0 1 x.pos = 65536 ∧ shTotal x.words = rows * 256)) ∧
    (let s := withRegs (issuedRun (shWords 0x102 1 0) id) [(coreKey 0 0x108, 7)]
     shuttles s 0 2 = issued (shWords 0x102 1 0) :: [] ∧ portDir s 0 (wfld (shWords 0x102 1 0) 5 8 6) = none) ∧
    (∀ rows ∈ [1, 2], (let x := issued (shWords 0x43 rows 0)
     let s := coreRun .running [shWords 0x43 rows 0] { slots := [x], rx := [(1, [List.replicate 256 5])] }
     shuttles s 0 3 = x :: [] ∧ portDir s 0 (wfld x.words 5 8 6) = some 1 ∧ wfld x.words 5 9 9 = 0 ∧ recvBefore s 0 1 x.idx = false ∧
      min (shTotal x.words - x.pos) (((rxOf s 0 1).map List.length).foldl (· + ·) 0) = 256)) ∧
    neighbour 0 (dirNum .east) = some 1 ∧ tget 0 (coreOf (setCore State.reset 0 { owe := [(1, 1)] }) 0).owe (dirNum .east) ≠ 0 ∧
    tget 0 (coreOf State.reset 0).owe (dirNum .west) = 0 := by decide +kernel

/-- A RING_PUT of one entry to SUBMIT ring 3, whose WP is `wp`. -/
def putState (wp : Nat) : State :=
  { issuedRun (opWords 0x30 [(5, 3), (7, 1)]) id with rings := [(3, { descRing 0x2000 with wp := BitVec.ofNat 32 wp })] }

theorem test_hyp_ring_put :
    ∀ wp ∈ [15, 16], (let s := putState wp
     let x := issued (opWords 0x30 [(5, 3), (7, 1)])
     let put := ringPutFrom 0 0 (coreLoom s 0) 3 x 1 (fresh s) 0
     calm s = true ∧ issuedOp (fresh s) 0 (isOp 0x30) = some x ∧ x.pos = 0 ∧ put.2.2 = decide (wp = 15) ∧ (served (partDone put.1 0 x put.2.1 put.2.2)).isSome = true) := by decide +kernel

-- ## Hypotheses of the statements: the creel, picks and parks

/-- An admission image: REQ_TAG 9, batch key 1, `m` steps, output ring 2, hand-off ring 3, no codec channel, no knot. -/
def imageOf (m : Nat) : List Byte :=
  toLe 8 9 ++ toLe 4 0 ++ toLe 4 1 ++ toLe 4 0 ++ toLe 4 m ++ toLe 4 1 ++ toLe 4 0 ++ toLe 4 1 ++ toLe 4 1 ++ List.replicate 52 0 ++
  toLe 4 2 ++ toLe 4 3 ++ toLe 4 0x80 ++ List.replicate 24 0 ++ toLe 2 0xFFFF ++ List.replicate 126 0

/-- A creel entry of that image in a state. -/
def creel0 (st : Nat) : CreelEnt := { creelOfImage State.reset 0 (imageOf 2) with state := st }

/-- Loom 0 RUNNING with its pick rings 4 to 7, its output and hand-off rings, one key record, and a creel quota of `q`. -/
def creelState (q : Nat) : State :=
  { withMem (withRegs (loom0 2) [(loomKey 0 0x480, 0x407), (loomKey 0 0x494, 4), (loomKey 0 0x498, 5), (loomKey 0 0x49C, 6), (loomKey 0 0x4A0, 7)]) [(0x1000, imageOf 2)] with
    live := tput (loom0 2).live (loomKey 0 0x120) q,
    rings := [(2, descRing 0x2000), (3, { descRing 0x3000 with kind := 4 }), (4, descRing 0x4000), (5, { descRing 0x5000 with kind := 3 }), (6, descRing 0x6000), (7, { descRing 0x7000 with kind := 3 })],
    looms := [(0, { keys := [{ key := 1, budget := 1, limit := 1, fullAddr := 0x10000, fullBytes := 400, deltaAddr := 0, deltaBytes := 0 }] })] }

/-- An entry of ring 0 whose bytes 8 to 15 hold `a`. -/
def entryAt (kind a : Nat) : Entry := { entryOf 0 kind .fetched with bytes := [BitVec.ofNat 8 kind, 0, 0, 0, 0, 0, 0, 0] ++ toLe 8 a ++ List.replicate 48 0 }

/-- The check of the admission that ring 0's entry makes, and the bytes read, if they can be. -/
def admitAnswer (s : State) (e : Entry) : Option Nat :=
  match loomReadAcross (fresh s) ⟨0x022, 0, 0⟩ e.loom (fieldLe e.bytes 8 8) 256 with
  | (u, .ok b) => if (served u).isSome then some (admitCheck u e.loom b) else none
  | (_, .error _) => none

theorem test_hyp_creel_entries :
    (let s := { creelState 1 with entries := [entryAt 2 0x1000] }
     calm s = true ∧ blockClosed s .creel = false ∧ headEntry s 0 = some (entryAt 2 0x1000) ∧ (entryAt 2 0x1000).phase = .fetched ∧ entKind (entryAt 2 0x1000) = 2 ∧
      admitAnswer s (entryAt 2 0x1000) = some 0 ∧ creelFull s 0 = false ∧ creelFree s = some 0 ∧ 0 < 262144) ∧
    (let s := { creelState 0 with entries := [entryAt 2 0x1000] }
     admitAnswer s (entryAt 2 0x1000) = some 0 ∧ creelFull s 0 = true) ∧
    (let s := { creelState 1 with entries := [entryAt 2 0x8000] }
     admitAnswer s (entryAt 2 0x8000) = some 2 ∧
      (match loomReadAcross (fresh { s with badBlocks := [0x200] }) ⟨0x022, 0, 0⟩ 0 0x8000 256 with
       | (u, .error _) => (served u).isSome
       | _ => false) = true) ∧
    (∀ st ∈ [1, 2, 3, 4, 5, 6, 7], (let s := { creelState 1 with entries := [entryAt 3 9], creel := [(0, creel0 st)] }
     headEntry s 0 = some (entryAt 3 9) ∧ entKind (entryAt 3 9) = 3 ∧
      s.creel.find? (fun p => decide (p.2.loom = (entryAt 3 9).loom) && decide (p.2.reqTag.toNat = fieldLe (entryAt 3 9).bytes 8 8)) = some (0, creel0 st) ∧
      (creel0 st).state = st ∧ loomSt s (creel0 st).loom ≠ 0)) ∧
    (let s := { creelState 1 with creel := [(262143, { creel0 1 with condKnot := 7, condValue := 5 })], knots := [(7, 5)] }
     (tfind s.creel 262143).map CreelEnt.state = some 1 ∧ (5 : Word64).toNat ≤ (knotOf s 7).toNat ∧ ¬ (5 : Word64).toNat ≤ (knotOf State.reset 7).toNat) ∧
    (creel0 5).outs = 0 ∧ (creel0 7).state = 7 ∧
    ((tget [] (creelState 1).produced (creel0 7).loom).any fun v => (decide (v.type = 0x21) || decide (v.type = 0x22)) && decide (v.info0 = (creel0 7).reqTag)) = false := by decide +kernel

/-- The outstanding pick of sequence number 1, and the entry of its bolt on core 0. -/
def pick1 : Pick := { seq := 1, urgent := false, delta := false, members := [0], submit := 4, ring := 5 }

/-- The running step bolt of that pick. -/
def stepEntry : Entry := { entryOf 4 1 .running with id := 1, bolt := some (boltAt 0) }

/-- Whether a state to come to is there, and served. -/
def servedSome (u : Option State) : Bool := u.any fun t => (served t).isSome

theorem test_hyp_picks :
    (let s := { creelState 1 with creel := [(0, creel0 2)] }
     calm s = true ∧ blockClosed s .pick = false ∧ (loomOf s 0).build = none ∧ mayBuild s 0 = true ∧ servedSome (buildPick (fresh s) 0 (candidates s 0) false) = true) ∧
    mayBuild (loom0 2) 0 = false ∧ (loomOf (loom0 2) 0).build = none ∧ (mayBuild (creelState 1) 0 = true ∧ buildPick (fresh (creelState 1)) 0 (candidates (creelState 1) 0) false = none) ∧
    (let s0 := creelState 1
     let s := setLoom { s0 with entries := [stepEntry], creel := [(0, creel0 3), (1, { creel0 2 with prio := 3 })] } 0 { loomOf s0 0 with picks := [pick1] }
     (loomOf s 0).build = none ∧ blockClosed s .pick = false ∧ loomSt s 0 = 2 ∧ (loomOf s 0).paused = false ∧ fbit (rd s (loomKey 0 0x480)) 2 = true ∧
      ((loomOf s 0).picks.any fun p => p.urgent) = false ∧ runningStep s 0 = some (pick1, stepEntry) ∧
      servedSome (buildPick (fresh s) 0 (urgentCands s 0 pick1) true) = true ∧ parkFor s 0 stepEntry.ring stepEntry.seq = none ∧ stepEntry.bolt = some (boltAt 0) ∧ (boltAt 0).stop = .none) ∧
    (let s0 := creelState 1
     let s := setLoom { s0 with entries := [stepEntry], creel := [(0, creel0 3), (1, creel0 2)] } 0 { loomOf s0 0 with picks := [pick1] }
     runningStep s 0 = some (pick1, stepEntry) ∧ buildPick (fresh s) 0 (urgentCands s 0 pick1) true = none) ∧
    runningStep (creelState 1) 0 = none ∧
    (let s0 := creelState 1
     let s := setLoom s0 0 { loomOf s0 0 with picks := [pick1], build := some { pick := pick1, todo := [List.replicate 64 1], post := List.replicate 64 1 } }
     (loomOf s 0).build.isSome = true ∧ loomSt s 0 = 2 ∧ servedSome (some (writePick (fresh s) 0)) = true) := by decide +kernel

/-- Core 0 runs the step bolt of pick 1, whose operation has opcode `o`, over scratchpad byte 0; the creel holds `e` in entry 0. -/
def advState (o : Nat) (e : CreelEnt) (wp : Nat) : State :=
  let ws := opWords o [(6, if o = 0x32 then 2 else 0)]
  let s0 := creelState 1
  { withMem (withRegs s0 [(coreKey 0 0x38, 0)])
      [(0x5000, toLe 8 1 ++ toLe 4 1), (0x10000000000, toLe 8 1 ++ toLe 4 1), (0x10000000040, toLe 4 0 ++ toLe 4 e.step), (0x1790000000, headBytes 1), (0x1790000100, wordBytes ws)] with
    entries := [stepEntry], creel := [(0, e)], cores := [(0, { bolt := some (4, 0), slots := [issued ws], fetchAt := 1 })],
    rings := tput (tput s0.rings 5 { ringOf s0 5 with wp := 2 }) 2 { descRing 0x2000 with wp := BitVec.ofNat 32 wp },
    looms := [(0, { loomOf s0 0 with picks := [pick1] })] }

theorem test_hyp_pick_get :
    (let s := advState 0x32 (creel0 3) 0
     let r := pickCopy (fresh s) (coreWho 0 0) stepEntry 2
     issuedOp s 0 (isOp 0x32) = some (issued (opWords 0x32 [(6, 2)])) ∧ coreBolt s 0 = some (stepEntry, boltAt 0) ∧ (served r.1).isSome = true ∧
      (match r.2 with
       | .ok bs => decide (bs.length = 128) && decide (fieldLe bs 0 8 = 1)
       | .error _ => false) = true) ∧
    (let s := advState 0x32 (creel0 3) 0
     let t := { s with live := tput (tput s.live (loomKey 0 0x494) 9) (loomKey 0 0x49C) 9, regs := tput (tput s.regs (loomKey 0 0x494) 9) (loomKey 0 0x49C) 9 }
     pairedPick t 0 4 = none ∧ coreBolt t 0 = some (stepEntry, boltAt 0)) ∧
    (let s := { advState 0x32 (creel0 3) 0 with badBlocks := [0x140] }
     let r := pickCopy (fresh s) (coreWho 0 0) stepEntry 2
     (served r.1).isSome = true ∧ (match r.2 with
       | .ok _ => false
       | .error _ => true) = true) := by decide +kernel

/-- What CREEL_ADVANCE does with the one member of its copy, and whether all it asked for is served. -/
def advanced (e : CreelEnt) (wp : Nat) (f : State → State) : State × Nat × Bool × Bool :=
  let s := f (advState 0x31 e wp)
  let x := issued (opWords 0x31 [(6, 0)])
  let r := advanceFrom 0 0 0 x 1 (fresh s) 0
  (r.1, r.2.1, r.2.2, (served (partDone r.1 0 x r.2.1 r.2.2)).isSome)

theorem test_hyp_creel_advance :
    (let s := advState 0x31 (creel0 3) 0
     calm s = true ∧ issuedOp s 0 (isOp 0x31) = some (issued (opWords 0x31 [(6, 0)])) ∧ coreBolt s 0 = some (stepEntry, boltAt 0) ∧ min (fieldLe (spRd s 0 0 12) 8 4) 256 = 1 ∧
      (advanced (creel0 3) 0 id).2.2 = (true, true) ∧ stillMember s 0 (spRd s 0 64 64) = some (0, creel0 3) ∧ (creel0 3).cancelPend = false ∧ (creel0 3).step + 1 < (creel0 3).stepCount) ∧
    (let e := { creel0 3 with cancelPend := true }
     (advanced e 0 id).2.2 = (true, true) ∧ stillMember (advState 0x31 e 0) 0 (spRd (advState 0x31 e 0) 0 64 64) = some (0, e)) := by decide +kernel

theorem test_hyp_creel_outputs :
    (let e := { creel0 3 with step := 1, outParam := 0x9000 }
     let s := advState 0x31 e 0
     let w := coreWho 0 0
     let hand := loomWrite (fresh s) w 0 0x9000 (handoffBytes 0 e)
     stillMember s 0 (spRd s 0 64 64) = some (0, e) ∧ e.cancelPend = false ∧ e.stepCount ≤ e.step + 1 ∧ ringOpen s w 0 e.outSubmit 1 = true ∧ badSlot s 0 e.outSubmit = none ∧ hand.2 = none ∧
      (tryPush hand.1 w 0 e.outSubmit (boltEntryBytes e.outBoltAddr e.outBoltBytes.toNat e.reqTag true)).2 = true ∧ (advanced e 0 id).2.2 = (true, true) ∧ e.chunkCount ≤ e.chunk + 1) ∧
    (let e := { creel0 3 with step := 1, outParam := 0x9000 }
     ringOpen (advState 0x31 e 16) (coreWho 0 0) 0 e.outSubmit 1 = false ∧ (advanced e 16 id).2.2 = (false, true)) ∧
    (let e := { creel0 3 with step := 1, outParam := 0x100000 }
     let s := advState 0x31 e 0
     ringOpen s (coreWho 0 0) 0 e.outSubmit 1 = true ∧ badSlot s 0 e.outSubmit = none ∧ (loomWrite (fresh s) (coreWho 0 0) 0 0x100000 (handoffBytes 0 e)).2.isSome = true ∧
      (advanced e 0 id).2.2 = (true, true)) := by decide +kernel

/-- A NOP with SHED and KEEP. -/
def keepWords : List Word32 := opWords 0x1100 []

/-- Core 0's bolt of one NOP with SHED and KEEP, and its shed points; `k` the core's record, `b` the bolt's. -/
def shedRun (k : Core) (b : Bolt) : State :=
  let s := coreRun .running [keepWords] k
  { withMem s [(0x1790000024, toLe 4 0x200 ++ toLe 4 2), (0x1790000200, toLe 4 0), (0x1790000210, toLe 4 1)] with entries := [{ entryOf 0 1 .running with bolt := some b }] }

/-- The same with a park of the loom. -/
def parkRun (k : Core) (b : Bolt) (p : Park) : State := setLoom (shedRun k b) 0 { parks := [p] }

/-- A park of entry 0 of ring 0. -/
def park0 (w : ParkWhy) (st : Nat) : Park := { ring := 0, seq := 0, why := w, since := 0, st := st }

theorem test_hyp_parks :
    (let s := shedRun { stopReq := true, done := [0] } (boltAt 0)
     (coreBolt s 0).map (fun p => p.2) = some (boltAt 0) ∧ (coreOf s 0).stopReq = true ∧ (coreOf s 0).stopped = false ∧ reached s 0 (boltAt 0) (stopOp s 0 (boltAt 0)) = true ∧
      reached (shedRun { stopReq := true } (boltAt 0)) 0 (boltAt 0) 0 = false) ∧
    (∀ w ∈ [ParkWhy.urgent, .recovery], (let b := { boltAt 0 with stop := .park }
     let s := parkRun { stopped := true } b (park0 w 1)
     let r := saveAll 0 b (boltCores b) (fresh s)
     calm s = true ∧ (readyPark s 0).map (fun q => (q.1, q.2.2)) = some (park0 w 1, b) ∧ r.2 = none ∧ (served r.1).isSome = true ∧ (∀ c ∈ boltCores b, coreHeld s 0 c = false))) ∧
    (let b := { boltAt 0 with stop := .park }
     let s := withRegs (parkRun { stopped := true, rx := [(0, [List.replicate 4 1])] } b (park0 .urgent 1)) [(loomKey 0 0x4C0, 0x100000)]
     let r := saveAll 0 b (boltCores b) (fresh s)
     (readyPark s 0).isSome = true ∧ r.2.isSome = true ∧ (served r.1).isSome = true) := by decide +kernel

theorem test_hyp_park_ends :
    (∀ hot ∈ [false, true], (let b := { boltAt 0 with parked := true, saved := [(0, [[], [], [], []], [32, 32, 32, 32])] }
     let s0 := parkRun { stopped := true } b (park0 .pause 2)
     let s := if hot then setLoom s0 0 { loomOf s0 0 with paused := true } else s0
     let e := { entryOf 0 1 .running with bolt := some b }
     let b1 := { b with parked := false, clockAt := s.time, clockOn := true, stop := .none }
     let r := restoreAll 0 b1 (boltCores b1) (resetCores (fresh s) e b1)
     calm s = true ∧ (loomOf s 0).build = none ∧ parkedBolt s 0 = some (park0 .pause 2, e, b) ∧ resumable s 0 e b = !hot ∧ (park0 .pause 2).why ≠ .urgent ∧
      r.2 = none ∧ (served r.1).isSome = true)) ∧
    (let b := { boltAt 0 with stop := .park }
     let s := parkRun { stopReq := true, stopRan := 2 * 262144 * 1800 * 20000 } b (park0 .urgent 1)
     s.staged = [] ∧ (coreBolt s 0).isSome = true ∧ parkFor s 0 0 0 = some (park0 .urgent 1) ∧ (park0 .urgent 1).st = 1 ∧ (coreOf s 0).stopped = false ∧ (coreOf s 0).stopReq = true ∧
      2 * hdr s b 32 4 * 1800 ≤ ranSince (coreOf s 0) ∧ ¬ 2 * hdr s b 32 4 * 1800 ≤ ranSince { coreOf s 0 with stopRan := 0 }) ∧
    (let s := shedRun { done := [0] } (boltAt 0)
     (coreBolt s 0).any (fun p => decide (p.1.phase = .running) && decide (p.2 = boltAt 0) && !keepIdle s p.1 p.2) = true ∧ (coreOf s 0).keepAt < keepReached s 0 (boltAt 0) ∧
      (boltAt 0).stop ≠ .halt ∧ parkFor s 0 0 0 = none) ∧
    (let s := parkRun { done := [0] } (boltAt 0) (park0 .urgent 1)
     (coreOf s 0).keepAt < keepReached s 0 (boltAt 0) ∧ (parkFor s 0 0 0).isSome = true) ∧
    (let s := shedRun { done := [0], keepAt := 1 } (boltAt 0)
     keepReached s 0 (boltAt 0) ≤ (coreOf s 0).keepAt) := by decide +kernel

-- ## Hypotheses of the statements: looms

theorem test_hyp_loom_queue :
    (blkOf State.reset (loomKey 31 0)).resetting = false ∧ State.reset.power.s5 = false ∧ (blkOf (blk0 (loomKey 31 0) { resetting := true }) (loomKey 31 0)).resetting = true ∧
    (let s := setLoom State.reset 31 { cmds := List.replicate 8 { op := 2 } }
     8 ≤ ((loomOf s 31).cmds.filter fun c => !c.flr).length) ∧
    (let s := setLoom State.reset 31 { cmds := List.replicate 7 { op := 2 }, executing := true }
     ((loomOf s 31).cmds.filter fun c => !c.flr).length < 8 ∧ (loomOf s 31).executing = true) ∧
    ((loomOf State.reset 31).cmds = [] ∧ (loomOf State.reset 31).executing = false ∧ ready State.reset = false ∧ loomSt State.reset 31 ≠ 3) ∧
    ((liveLooms State.reset).find? fun i => decide (loomFn State.reset i = 31)) = none ∧
    (∀ x ∈ [({ cmds := [{ op := 3, flr := true }], executing := true } : Loom), { executing := true }, {}],
      (let s0 := ready0 2
       let s := setLoom { s0 with live := tput s0.live (loomKey 0 0x10C) 31 } 0 x
       ((liveLooms s).find? fun i => decide (loomFn s i = 31)) = some 0 ∧ loomOf s 0 = x ∧ ready s = true ∧ loomSt s 0 = 2)) := by decide +kernel

/-- READY with loom 0's page filled so that CREATE accepts it: core 383, one ring, one knot, one creel entry. -/
def createState (st : Nat) : State :=
  withRegs (ready0 st) ([(loomKey 0 0x16C, 2 ^ 31), (loomKey 0 0x114, 1), (loomKey 0 0x11C, 1), (loomKey 0 0x120, 1)] ++ (List.range 8).map fun i => (loomKey 0 (0x1C0 + 4 * i), 2 ^ 16))

theorem test_hyp_loom_create_start :
    (let s := createState 0
     (blkOf s (loomKey 0 0)).resetting = false ∧ s.power.s5 = false ∧ (loomOf s 0).cmds = [] ∧ (loomOf s 0).executing = false ∧ ready s = true ∧ loomSt s 0 = 0 ∧ createCheck s 0 = 0) ∧
    createCheck (ready0 0) 0 = 2 ∧ loomSt (ready0 0) 0 = 0 ∧ (∀ st ∈ [1, 2, 4], loomSt (createState st) 0 = st ∧ ready (createState st) = true) ∧
    (∀ ap ∈ [false, true], (let c : LoomCmd := { op := 2, applied := ap }
     let s := withRegs (setLoom (ready0 1) 0 { cmds := [c], executing := true }) [(loomKey 0 0x488, 0x2000), (loomKey 0 0x490, 1)]
     let s1 := if c.applied then fresh s else prepareLoom (fresh s) 0
     calm s = true ∧ (loomOf s 0).cmds = [c] ∧ (loomOf s 0).executing = true ∧ c.posted = false ∧ ((parkedBolt s1 0).any fun p => resumable s1 0 p.2.1 p.2.2) = false ∧
      (served (goStart (fresh s) 0 c)).isSome = true ∧
      (match loomReadAcross (fresh s) (keyWho 0) 0 0x2000 64 with
        | (_, .ok b) => decide (b.length = 64)
        | _ => false) = true)) := by decide +kernel

/-- Loom `l`'s LOOM_STATE event as a command posts it. -/
def stateEvent (l st op : Nat) : Event := { type := 0x30, loom := l, srcType := 0x25, srcInst := BitVec.ofNat 16 l, time := 0, info0 := BitVec.ofNat 64 st, info1 := BitVec.ofNat 64 op }

theorem test_hyp_loom_command_ends :
    ∀ op ∈ [2, 3], (let c : LoomCmd := { op := op, drain := true, posted := true }
     let s := setLoom (ready0 2) 0 { cmds := [c], executing := true }
     calm s = true ∧ (loomOf s 0).cmds = [c] ∧ stateOwed s 0 = false ∧ stateOwed { s with produced := [(0, [stateEvent 0 2 op])] } 0 = true) := by decide +kernel

theorem test_hyp_loom_quiescence :
    (∀ st ∈ [0, 1, 2, 4], (let s := ready0 st
     (blkOf s (loomKey 0 0)).resetting = false ∧ s.power.s5 = false ∧ (loomOf s 0).cmds = [] ∧ (loomOf s 0).executing = false ∧ ready s = true ∧ loomSt s 0 = st)) ∧
    (let c : LoomCmd := { op := 3, drain := true }
     let s := setLoom (ready0 3) 0 { cmds := [c], executing := true }
     (loomOf s 0).cmds = [c] ∧ (loomOf s 0).executing = true ∧ c.op = 3 ∧ c.posted = false ∧ calm s = true ∧ loomSt s 0 = 3 ∧ loomIdle (quiesceHold (fresh s) 0) 0 = true) ∧
    (let c : LoomCmd := { op := 3, drain := true }
     let s := setLoom { ready0 3 with entries := [{ entryOf 0 1 .running with bolt := some (boltAt 0) }] } 0 { cmds := [c], executing := true }
     (loomOf s 0).cmds = [c] ∧ loomSt s 0 = 3 ∧ loomIdle (quiesceHold (fresh s) 0) 0 = false) := by decide +kernel

/-- A coherent export of the first 4 KiB of loom 0's window, live only. -/
def exportState (st : Nat) : State :=
  let s := createState st
  { s with live := tput (tput s.live (loomKey 0 0x308) 1) (loomKey 0 0x30C) 0x27, coh := { s.coh with dir := [(0, { owned := false, holders := [5], age := 0 })] } }

theorem test_hyp_loom_destroy_update :
    (∀ st ∈ [0, 1, 2, 4], ready (createState st) = true ∧ (loomOf (createState st) 0).cmds = [] ∧ loomSt (createState st) 0 = st ∧ (loomOf (createState st) 0).closed = false) ∧
    (∀ scrub ∈ [false, true], (let c : LoomCmd := { op := 4, scrub := scrub }
     let s := setLoom (createState 4) 0 { cmds := [c], executing := true }
     let g := goDestroy (fresh s) 0 scrub
     calm s = true ∧ (loomOf s 0).cmds = [c] ∧ (loomOf s 0).executing = true ∧ (served g.1).isSome = true ∧ g.2 = true)) ∧
    (let s := setLoom (exportState 1) 0 { cmds := [{ op := 4 }], executing := true }
     let g := goDestroy (fresh s) 0 false
     (loomOf s 0).cmds = [{ op := 4 }] ∧ (served g.1).isSome = true ∧ g.2 = false) := by decide +kernel

theorem test_hyp_loom_update :
    (let s := createState 1
     (blkOf s (loomKey 0 0)).resetting = false ∧ s.power.s5 = false ∧ updateCheck s 0 = 0 ∧ removedLines s (cohRanges (lv s 0)) (cohRanges (loomPage s 0)) = [] ∧
      loomLines s 0 = [] ∧ s.router.out = []) ∧
    (let s := withRegs (createState 1) [(loomKey 0 0x20C, 1)]
     updateCheck s 0 = 3) ∧
    (let s := exportState 1
     updateCheck s 0 = 0 ∧ removedLines s (cohRanges (lv s 0)) (cohRanges (loomPage s 0)) ≠ []) ∧
    (let c : LoomCmd := { op := 5, applied := true, since := 7 }
     let s := setLoom (createState 1) 0 { cmds := [c], executing := true }
     let o : OutReq := { msg := { op := .read, srcDev := 1, dstDev := 2 }, vc := 0, link := none, sentAt := 7, origin := .op 0 0 }
     calm s = true ∧ (loomOf s 0).cmds = [c] ∧ strayLines s 0 (lv s 0) = [] ∧ olderDone s 0 c.since = true ∧
      olderDone { s with router := { s.router with out := [o] } } 0 c.since = false) := by decide +kernel

-- ## Hypotheses of the statements: lost cores, memory in service, host access and the ledger

theorem test_hyp_core_retirement :
    State.reset.staged = [] ∧ (coreOf (setCore State.reset 383 { retired := true }) 383).retired = true ∧ (coreOf State.reset 383).retired = false ∧ usersOf State.reset 383 = [] ∧
    (∀ acc, parityAt State.reset 0 acc 127 false 0 = false) ∧
    (let x := issued (matWords 1 1 1)
     let s := coreRun .running [matWords 1 1 1] { slots := [x], arr := [{ op := 0 }], epiQ := [(0, 0, some false)] }
     parityAt s 0 false 127 false 0 = true ∧ parityAt s 0 true 127 false 0 = true ∧ parityAt s 0 true 128 false 0 = false ∧ (coreOf s 0).retired = false ∧
      (usersOf s 0).map (fun p => p.2) = [boltAt 0] ∧ (boltAt 0).parked = false ∧ rdF s (coreKey 0 0x1C4) 1 0 = 0) ∧
    rdF (withRegs State.reset [(coreKey 0 0x1C4, 2)]) (coreKey 0 0x1C4) 1 0 ≠ 0 := by decide +kernel

/-- Core 0 retired; its bolt has the spare core 1. -/
def remapState (b : Bolt) : State :=
  let s := coreRun .running [opWords 0 []] { stopped := true, retired := true }
  { s with entries := [{ entryOf 0 1 .running with bolt := some b }] }

/-- A bolt on core 0 with spares. -/
def spareBolt (sp : List Nat) : Bolt := { stages := [{ sel := 0, cores := [0], spares := sp, chain := false }], stop := .lost }

/-- The first bolt of core 0 that its re-map can go on with. -/
def remapFirst (s : State) : Option (Entry × Bolt) := (usersOf s 0).find? fun p => remapReady s p.2

theorem test_hyp_core_remap :
    (∀ b ∈ [spareBolt [1], { spareBolt [1] with noRepeat := true }, { spareBolt [1] with parked := true }],
      (let s := remapState b
       let e := { entryOf 0 1 .running with bolt := some b }
       let g := b.stages.headD { sel := 0, cores := [], spares := [], chain := false }
       calm s = true ∧ (coreOf s 0).retired = true ∧ remapFirst s = some (e, b) ∧ e.loom < 32 ∧ stageOf b 0 = some (0, 0, g) ∧ pickSpare s 0 g 0 = some 1 ∧ freeSubst s 0 = some 0 ∧
        hasRetired s { b with stages := setAt b.stages 0 { g with cores := setAt g.cores 0 1 } } = false ∧ (served (remapBolt (fresh s) 0 1 0 0 0 g e b)).isSome = true)) ∧
    (let b := spareBolt []
     let s := remapState b
     let e := { entryOf 0 1 .running with bolt := some b }
     let s1 := remapRound (fresh s) 0 none (some e.id)
     remapFirst s = some (e, b) ∧ pickSpare s 0 (b.stages.headD { sel := 0, cores := [], spares := [], chain := false }) 0 = none ∧
      (served (finishBolt (setRing s1 0 { ringOf s1 0 with lost := true }) e b 6)).isSome = true) := by decide +kernel

theorem test_hyp_core_remap_waits :
    (coreOf State.reset 0).retired = false ∧
    (let b := { spareBolt [1] with stop := .none }
     usersOf (remapState b) 0 ≠ [] ∧ remapFirst (remapState b) = none) ∧
    (let r := localRep State.reset 0x040 0 .ueSram 0x040 0 0
     let e := { ledgerNew State.reset r false with remaps := [0] }
     let s := { setCore State.reset 0 { retired := true } with ledger := [(0, e)] }
     (coreOf s 0).retired = true ∧ usersOf s 0 = [] ∧ remapWaits s 0 = some (0, e, 0) ∧ remapWaits State.reset 0 = none) := by decide +kernel

theorem test_hyp_dram_service :
    (let s := withRegs (setStack State.reset 7 { trained := true }) [(drcKey 7 0x100, 1)]
     s.staged = [] ∧ (stackOf s 7).trained = true ∧ (stackOf s 7).selfRefresh = false ∧ stackSt s 7 = 1 ∧ fbit (rd s (drcKey 7 0x118)) 0 = true ∧
      placeOf s 0xF7FFFFFFFF = .dram 7 (0xF7FFFFFFFF % 0x2000000000) ∧ badBlock s (0xF7FFFFFFFF / 64) = false ∧ fbit (rd s (drcKey 7 0x110)) 0 = false ∧
      tget 0 (stackOf s 7).retrains 31 < 3) ∧
    fbit (rd (withRegs State.reset [(drcKey 7 0x110, 1)]) (drcKey 7 0x110)) 0 = true ∧
    ¬ ((stackOf State.reset 7).trained = true) ∧ badBlock { State.reset with badBlocks := [0] } (63 / 64) = true ∧
    (∀ x ∈ [0x1800000000, 0x10000000000 + 0x1C00000], placeOf State.reset x = .hole) ∧
    issuedFresh (issuedRun (opWords 0x20 []) id) 0 (fun _ => true) = some (issued (opWords 0x20 [])) ∧ issuedFresh State.reset 0 (fun _ => true) = none ∧
    (let s := withRegs (setStack State.reset 0 { retrains := [(31, 3)], ueTimes := [(31, List.replicate 16 0)] }) [(drcKey 0 0x100, 1)]
     stackSt s 0 = 1 ∧ 3 ≤ tget 0 (stackOf s 0).retrains 31 ∧ 16 ≤ (lastSecond s.time (tget [] (stackOf s 0).ueTimes 31)).length ∧ ledgerFree s ≠ none) ∧
    (let s := { setStack State.reset 0 { ueTimes := [(31, List.replicate 16 0)] } with time := 19531250 }
     ¬ 16 ≤ (lastSecond s.time (tget [] (stackOf s 0).ueTimes 31)).length) := by decide +kernel

theorem test_hyp_test_mode :
    (blkOf (blk0 (drpKey 3 0) { resetting := true }) (drpKey 3 0)).resetting = true ∧ State.reset.power.s5 = false ∧ (blkOf State.reset (drpKey 0 0)).resetting = false ∧
    (stackLooms State.reset 0 = [] ∧ ready State.reset = false) ∧ stackLooms (loom0 2) 0 = [0] ∧ ready (ready0 0) = true ∧
    ((1#4).toNat % 4 = 1 ∧ (2#4).toNat % 4 = 2 ∧ (4#4).toNat % 4 = 0 ∧ (15#4).toNat % 4 = 3) ∧ (8#4).getLsbD 3 = true ∧ fbit (rd State.reset (drpKey 3 0x180)) 3 = false ∧
    stackSt (withRegs State.reset [(drcKey 3 0x100, 3)]) 3 = 3 := by decide +kernel

/-- Loom 0 RUNNING with its second window on the first segment of the host window. -/
def hostState : State :=
  { withRegs (ready0 2) [(0x300800, 1)] with
    live := (loom0 2).live ++ [(loomKey 0 0x284, 0x200), (loomKey 0 0x288, 0x20000 + 1), (loomKey 0 0x28C, 7)] }

theorem test_hyp_host_access :
    (let s := ready0 2
     let a := bar4Addr s 0x3FFFFFFF
     calm s = true ∧ s.posted = [] ∧ bar4Reach s 0x3FFFFFFF 1 = true ∧ bar4Reach s 0x8000000000 1 = false ∧ barOpen s = true ∧ bar4Refused s a 1 = false ∧ shutPlace s pcieWho a = false ∧
      (blocksOf a 1).find? (badBlock s) = none ∧ bar4Refused (withRegs s [(drcKey 0 0x100, 2)]) a 1 = true ∧
      (match localRead (fresh s) pcieWho none a 1 with
        | (u, .ok bs) => decide (bs = [0]) && (served u).isSome
        | _ => false) = true ∧ (served (landPosted (fresh { s with posted := [(a, [1])] }))).isSome = true ∧ holdsBytes s a = true ∧ isTap a = false ∧
      (let t := { s with badBlocks := [0xFFFFFF] }
       (blocksOf a 1).find? (badBlock t) = some 0xFFFFFF ∧ (match localRead (fresh t) pcieWho none a 1 with
        | (_, .error _) => true
        | _ => false) = true)) ∧
    (let s := { State.reset with boot := { State.reset.boot with pcieUp := true } }
     barOpen s = false ∧ bar4Reach s 0 1 = true) := by decide +kernel

theorem test_hyp_host_window :
    (let s := hostState
     calm s = true ∧ isTap 0x20000000000 = false ∧ placeOf s 0x20000000000 = .hostWin 0 ∧ allowed s 0 0x20000000000 4 false = true ∧ allowed s 0 0x20000000000 4 true = true ∧
      hostOk s 0 4 = true ∧ s.boot.pcieUp = true ∧ blockClosed s .pcie = false ∧ blockClosed (setBlk s (pageOf .pcie) { pending := true }) .pcie = true ∧
      allowed (ready0 2) 0 0x20000000000 4 false = false ∧ hostOk (ready0 2) 0 4 = false ∧
      placeOf s 0x20200000000 = .hostWin 0x200000000 ∧ allowed s 0 0x20200000000 16 true = true ∧ hostOk s 0x200000000 16 = false ∧
      (let t := { s with boot := { s.boot with pcieUp := false } }
       allowed t 0 0x20000000000 4 true = true ∧ hostOk t 0 4 = true ∧ t.boot.pcieUp = false)) ∧
    placeOf State.reset 0 = .dram 0 0 := by decide +kernel

/-- A report of core 5 by itself. -/
def rep5 : FaultRep := localRep State.reset 0x040 5 .ueSram 0x040 5 0

/-- Its ledger entry. -/
def led5 : LedgerEnt := ledgerNew State.reset rep5 false

theorem test_hyp_fault_ledger :
    State.reset.staged = [] ∧ tfind State.reset.ledger (ledgerIndex State.reset rep5) = none ∧ mcType (ownDev State.reset) rep5 = some 0x200 ∧
    (let s := { owned (coreKey 5 0) 31 2 with ledger := [(9, led5)] }
     tfind s.ledger (ledgerIndex s rep5) = some led5 ∧ entitled s rep5 = [31] ∧ loomSt s 31 ≠ 0) ∧
    (let e := { led5 with holding := true, count := 2, countAt := 1 }
     let s := { State.reset with time := 19532, ledger := [(1023, e)] }
     tfind s.ledger 1023 = some e ∧ e.holding = true ∧ elapsedUs s.time e.eventTime (rdF s (mbxKey 0x200) 19 0) = true ∧ e.count ≠ e.countAt) ∧
    ({ led5 with holding := true, count := 2, countAt := 2 }.count = 2 ∧ tfind State.reset.ledger 1023 = none) ∧
    (let e := { led5 with last := 0, remaps := [], holding := false }
     let s := { State.reset with time := 19531250, ledger := [(0, e)] }
     rdF s (mbxKey 0x204) 15 0 ≠ 0 ∧ roundPending s e = false ∧ elapsedUs s.time 0 (rdF s (mbxKey 0x204) 15 0 * 1000) = true) ∧
    (let s := { State.reset with ceCounts := [(pageOf (.core 5), List.replicate 2 0)], regs := [(mbxKey 0x208, 1)] }
     rdF s (mbxKey 0x208) 23 0 < (lastSecond s.time (tget [] s.ceCounts (pageOf (.core 5)))).length) := by decide +kernel

/-- A lost entry of the part's memory: of the creel, the loader or the directory, or a buffer that a core used. -/
def lostRep (typ : Nat) (n : Nat) : FaultRep := localRep State.reset typ 0 .ueSram 0x040 0 (n * 2 ^ 32)

theorem test_hyp_lost_entries :
    (∀ p ∈ [(0x022, 262143), (0x021, 0), (0x061, 5)], (let r := lostRep p.1 p.2
     r.dev.toNat = ownDev State.reset ∧ r.cls = .ueSram ∧ r.fromDev = none ∧ r.type.toNat = p.1 ∧ r.info1.toNat / 2 ^ 32 = p.2)) ∧
    (let s := { creelState 1 with creel := [(262143, creel0 2)] }
     tfind s.creel 262143 = some (creel0 2) ∧ (creel0 2).state < 5 ∧ loomSt s (creel0 2).loom ≠ 0) ∧
    headEntry (loadState .fetched [] 400) 0 = some (boltEntryOf 0x1000 400 .fetched) ∧
    (lostRep 0x022 0).reporterType = 0x040 ∧ (lostRep 0x022 0).type ≠ 0x040 ∧ issuedFresh (issuedRun (opWords 0x31 []) id) (lostRep 0x022 0).reporterInst.toNat (fun _ => true) = some (issued (opWords 0x31 [])) := by decide +kernel

-- ## Hypotheses of the statements: the fabric

theorem test_hyp_weft_ports :
    (blkOf (blk0 (wfpKey 15 0) { resetting := true }) (wfpKey 15 0)).resetting = true ∧ (blkOf State.reset (wfpKey 15 0)).resetting = false ∧
    State.reset.power.s5 = false ∧ State.reset.staged = [] ∧ portEn State.reset 15 = false ∧ portEn (regs0 [(wfpKey 15 0x100, 1)]) 15 = true ∧ portStops State.reset 15 = false ∧
    portStops (regs0 [(wfpKey 15 0x104, 5)]) 15 = true ∧ linkWorks (regs0 [(wfpKey 15 0x104, 2)]) 30 = true ∧
    (let s := regs0 [(wfpKey 15 0x104, 1)]
     linkState s 30 = 1 ∧ (linkOf s 30).retrain = false ∧ (linkOf s 30).deg = false ∧ (∀ n ∈ linkLanes s 30, (255#8).getLsbD n = true) ∧ ¬ (∀ n ∈ linkLanes s 30, (127#8).getLsbD n = true)) ∧
    (∀ re ∈ [false, true], (let s := setLink (regs0 [(wfpKey 15 0x104, 1)]) 30 { badLanes := 128, lost := some 0, retrain := re, deg := !re }
     linkState s 30 = 1 ∧ (linkOf s 30).lost = some 0 ∧ ((linkOf s 30).retrain = true ∨ (linkOf s 30).deg = true) ∧
      (goodHalf (linkOf s 30) ⟨15, true, 2, true, 0⟩).isSome = true ∧ (goodHalf (linkOf s 30) ⟨7, true, 2, true, 0⟩).isSome = false)) ∧
    (let s := { regs0 [(wfpKey 15 0x104, 4), (wfpKey 15 0x100, 1)] with time := 1953125 }
     linkState s 30 = 4 ∧ portEn s (30 / 2) = true ∧ elapsedUs s.time (linkOf s 30).downAt 100000 = true) := by decide +kernel

/-- Port 0's link 0 in state `st`, with the record `x`. -/
def link0 (st : Nat) (x : Link) : State := setLink (regs0 [(wfpKey 0 0x104, st)]) 0 x

theorem test_hyp_weft_links :
    (let s := link0 2 { nakRun := 16 }
     s.staged = [] ∧ linkWorks s 0 = true ∧ 16 ≤ (linkOf s 0).nakRun ∧ wideLink s 0 = true ∧ linkFlows s 0 = true) ∧
    (linkState (link0 1 { retrain := true }) 0 = 1 ∧ (linkOf (link0 1 { retrain := true }) 0).retrain = true) ∧
    (let s := link0 3 { badLanes := 1, deg := true }
     linkWorks s 0 = true ∧ halfGood ((linkOf s 0).badLanes ||| (1#8 <<< 7)) 0 = false ∧ halfGood ((linkOf s 0).badLanes ||| (1#8 <<< 7)) 1 = false) ∧
    (let s := link0 3 { badLanes := 128, deg := true }
     linkWorks s 0 = true ∧ wideLink s 0 = true ∧ halfGood (linkOf s 0).badLanes (7 / 4) = false ∧ halfGood ((linkOf s 0).badLanes ||| (1#8 <<< 7)) 0 = true) ∧
    (let s := link0 5 {}
     linkState s 0 = 5 ∧ (linkOf s 0).replay = [] ∧ (linkOf s 0).waitq = []) ∧
    linkWorks (link0 1 {}) 0 = false ∧ portSplit (regs0 [(wfpKey 0 0x100, 2)]) 0 = true ∧ wideLink (regs0 [(wfpKey 0 0x100, 2)]) 1 = false ∧
    (∀ r ∈ [0, 15], (let f : Flit := { kind := 1, vc := 0, seq := 4095, ack := 0, payload := [], crc := 0 }
     let s := link0 2 { replay := [f], nakRun := r, nakSeq := 4095 }
     let y := takeAck (linkOf s 0) (4095 - 1)
     linkFlows s 0 = true ∧ (∃ f ∈ (linkOf s 0).replay, f.seq = 4095) ∧ decide (16 ≤ (if y.nakRun ≠ 0 ∧ y.nakSeq = 4095 then y.nakRun + 1 else 1)) = decide (r = 15))) := by decide +kernel

theorem test_hyp_weft_stops :
    (let s := regs0 [(wfpKey 0 0x100, 3), (wfpKey 0 0x104, 5)]
     let t := setLink s 0 { enWait := true }
     portEn t (0 / 2) = true ∧ 0 ∈ portLinks t 0 ∧ (∀ j ∈ portLinks t 0, j ≠ 0 → linkState t j ≠ 5) ∧ ∃ j ∈ portLinks t 0, (linkOf t j).enWait = true) := by decide +kernel

/-- A flit with the CRC of its bytes. -/
def flitOf (kind : BitVec 4) (seq : BitVec 12) (n : Nat) : Flit :=
  let f : Flit := { kind := kind, vc := 0, seq := seq, ack := 0, payload := List.replicate 12 2 ++ toLe 4 n, crc := 0 }
  { f with crc := Config.crc32 (flitBytes f) }

theorem test_hyp_flit_good : ∀ kind seq n, (flitOf kind seq n).crc = Config.crc32 (flitBytes (flitOf kind seq n)) := fun _ _ _ => rfl

theorem test_hyp_flit_broken : ∀ kind seq n, let f := flitOf kind seq n
    ¬ ({ f with crc := f.crc + 1 } : Flit).crc = Config.crc32 (flitBytes { f with crc := f.crc + 1 }) := by
  intro kind seq n f h
  have h2 : f.crc + 1 = f.crc := h
  bv_omega

theorem test_hyp_flit_lengths :
    (let bytes := slice (flitOf 1 0 24).payload 0 56
     32 + dataLen bytes ≤ bytes.length) ∧
    (let bytes := slice (flitOf 1 0 25).payload 0 56
     bytes.length < 32 + dataLen bytes) ∧ (flitOf 2 5 0).kind = 2 ∧ (flitOf 2 5 0).seq ≠ ({} : Link).rxSeq ∧ (flitOf 1 0 0).seq = ({} : Link).rxSeq ∧ (flitOf 3 0 0).kind = 3 := by decide +kernel

/-- Device 1, READY, whose loom 0 exports 4 KiB at `hi` × 4 GiB with the rights `r` to every loom of every device; link 0 leads to device 2. -/
def home (hi r : Nat) : State :=
  let s := tap0 (ready0 2)
  { s with live := tput (tput (tput s.live (loomKey 0 0x304) (BitVec.ofNat 32 (hi + 16383 * 2 ^ 10))) (loomKey 0 0x308) 1) (loomKey 0 0x30C) (BitVec.ofNat 32 (r + 2 ^ 13)) }

/-- A message of device 2 to device 1. -/
def toHome (op : MsgOp) (a len : Nat) : TapMsg := { op := op, srcDev := 2, dstDev := 1, addr := BitVec.ofNat 42 a, len := len }

/-- Whether a message is in its turn, no block it names is under reset, and loom 0's export grants it at an address that answers: what `grantedBy` asks. -/
def granted0 (s : State) (m : TapMsg) : Bool :=
  decide (m.dstDev.toNat = ownDev s) && !s.power.s5 && decide (inboundBar s m = none) && decide (seqPlace s m = .next) && !badReq s m &&
  decide ((expFor s m.srcDev.toNat m.srcLoom.val m.addr.toNat (spanOf m) (rightOf m) (decide (vcOf m = 2))).1 = some (0, 0)) &&
  decide (placeOf s m.addr.toNat ≠ .hole) && !stackOut s 0 && s.staged.isEmpty

/-- What an arriving request of loom 0's export comes to is served. -/
def doesServe (s : State) (m : TapMsg) (f : State → Nat → State) : Bool := (served (arrive (fresh s) m fun t => granted t m f)).isSome

theorem test_hyp_tapestry_arrivals :
    (∀ m ∈ [toHome .read 0 16, toHome .write 0 16, toHome .atomic 0 8, toHome .knotSignal 0 8, toHome .copy 0 256, toHome .readShared 0 128, toHome .readOwn 0 128, toHome .evict 0 128],
      (servedBy m).isSome = true ∧ m.dstDev.toNat = ownDev (home 0 15) ∧ (home 0 15).power.s5 = false ∧ inboundBar (home 0 15) m = none ∧ seqPlace (home 0 15) m = .next) ∧
    (home 0 15).staged = [] ∧ servedBy (toHome .rsp 0 0) ≠ some (.copy (toHome .rsp 0 0)) ∧ inboundBar (loom0 2) (toHome .read 0 16) = some 4 ∧ inboundBar (setBlk (home 0 15) (pageOf .tap) { pending := true }) (toHome .read 0 16) = some 6 ∧
    seqPlace (home 0 15) { toHome .write 0 16 with seq := 32767 } = .ahead ∧ seqPlace (home 0 15) { toHome .write 0 16 with seq := 32768 } = .behind ∧ stillRuns (home 0 15) { toHome .write 0 16 with seq := 32768 } = false ∧
    (let m := { toHome .knotSignal 0 8 with seq := 32768 }
     stillRuns { home 0 15 with knotQ := [{ idx := 0, set := false, value := 1, src := some m }] } m = true) ∧
    badReq (home 0 15) (toHome .read 0 8) = true ∧ badReq (home 0 15) (toHome .read 4080 16) = false ∧
    (expFor (home 0 15) 2 0 4096 16 .read false).1 = none ∧ byteOwners (home 0 15) 4096 = [0] ∧
    ((expFor (home 0x18 15) 2 0 0x1800000000 16 .read false).1 ≠ none ∧ placeOf (home 0x18 15) 0x1800000000 = .hole) ∧
    (let s := withRegs (home 0 15) [(drcKey 0 0x100, 2)]
     (expFor s 2 0 0 16 .read false).1 ≠ none ∧ stackOut s 0 = true) ∧
    (let m : TapMsg := { op := .read, srcDev := 3, dstDev := 2, len := 16, hops := 14 }
     m.dstDev.toNat ≠ ownDev (home 0 15) ∧ ready (home 0 15) = true ∧ devValid (home 0 15) = true ∧ ¬ 15 < m.hops + 1 ∧ linkFor (home 0 15) { m with hops := m.hops + 1 } = some 0 ∧
      linkFor (home 0 15) { m with dstDev := 7 } = none ∧ vcOf m ≠ 1 ∧ vcOf { m with op := .rsp } = 1) := by decide +kernel

theorem test_hyp_tapestry_accesses :
    (∀ m ∈ [toHome .read 4080 16, toHome .write 4080 16, toHome .atomic 4088 8], granted0 (home 0 15) m = true ∧ placeOf (home 0 15) m.addr.toNat = .dram 0 m.addr.toNat ∧
      (blocksOf m.addr.toNat m.len).find? (badBlock (home 0 15)) = none ∧ doesServe (home 0 15) m (applyReq m) = true) ∧
    (let m := toHome .copy 3840 256
     granted0 (home 0 15) m = true ∧ doesServe (home 0 15) m (fun u l => copyNext u m l 0) = true ∧ (copyDst m).1 = 0 ∧ routeSet (home 0 15) 0 = [] ∧
      (let n := { m with extra := BitVec.ofNat 64 (2 * 2 ^ 42) }
       (copyDst n).1 = 2 ∧ routeSet (home 0 15) 2 ≠ [] ∧ granted0 (home 0 15) n = true ∧ doesServe (home 0 15) n (fun u l => copyNext u n l 0) = true)) ∧
    granted0 (home 0x108 17) (toHome .knotSignal 0x108000001C0 8) = true ∧
    (blocksOf 0 16).find? (badBlock { home 0 15 with badBlocks := [0] }) ≠ none ∧ granted0 { home 0 15 with badBlocks := [0] } (toHome .copy 0 256) = true := by decide +kernel

/-- A request of device 1 to device 2 with TAG 65535. -/
def outReq (org : Origin) : OutReq := { msg := { op := .read, srcDev := 1, dstDev := 2, tag := 65535, len := 16 }, vc := 0, link := some 0, sentAt := 0, origin := org }

/-- Device 1 with one such request outstanding for 100 ms; core 0 runs an operation. -/
def awaits (o : OutReq) : State := { home 0 15 with router := { (home 0 15).router with out := [o] }, time := 1953125, cores := (issuedRun (opWords 0x20 []) id).cores }

/-- Whether the request is found under its TAG, and due for its timeout. -/
def found (org : Origin) : Bool :=
  let o := outReq org
  let s := awaits o
  calm s && s.coll.runs.isEmpty && decide (outTag s 65535 = some o) && decide (o.msg.dstDev = (toHome .rsp 0 0).srcDev) &&
  elapsedUs s.time o.sentAt (rdF s (tapKey 0x114) 15 0) && !o.resent && !(routeSet s 2).isEmpty && (outTag s 0).isNone

theorem test_hyp_tapestry_responses : ([Origin.unit ⟨0x020, 0, 0⟩ 0 (2 ^ 63) 16 false, .coherent 0, .op 0 0, .op 0 9, .copyPart (toHome .copy 0 256) 256 0,
    .copyPart (toHome .copy 0 256) 0 0, .coll 7 9].all found) = true := by decide +kernel

theorem test_hyp_tapestry_parts :
    (let s := awaits (outReq (.op 0 0))
     (coreOf s 0).slots.find? (fun x => decide (x.idx = 0)) = some (issued (opWords 0x20 [])) ∧ (coreOf s 0).slots.find? (fun x => decide (x.idx = 9)) = none) ∧
    (let m := { toHome .copy 0 256 with extra := BitVec.ofNat 64 (2 * 2 ^ 42) }
     let s := awaits (outReq (.copyPart m 128 0))
     (decide (placeOf s 128 = .dram 0 128) && ((blocksOf 128 128).find? (badBlock s)).isNone && !shutPlace s ⟨0x061, 0, 0⟩ 128 &&
      (served (copyNext (dropOut (fresh s) 65535) m 0 128)).isSome) = true) ∧
    (let o : OutReq := { msg := { op := .write, srcDev := 1, dstDev := 2, seq := 32767, len := 16 }, vc := 0, link := some 0, sentAt := 0, origin := .op 0 0 }
     (decide (o.msg.dstDev = 2) && decide (o.vc = (0#2).toNat) && orderedMsg o.msg && decide ((o.msg.seq - 0).toNat < 32768)) = true) := by decide +kernel

/-- Device 1, whose loom 0 imports coherent memory of device 2, with lines of the remote line cache. -/
def lines0 (ls : List (Nat × Line)) : State := { tap0 (ready0 2) with coh := { State.reset.coh with lines := ls } }

/-- The first imported line, and the one after it. -/
def lineA : Nat := lineOf 2 0x10800000000

/-- The imported line after the first. -/
def lineB : Nat := lineOf 2 0x10800000080

/-- A valid line of loom 0. -/
def valid0 (own : Bool) : Line := { loom := 0, valid := true, owned := own, data := List.replicate 128 0 }

/-- Loom 0 may load and store there: not at S5, imported, its device number valid and a route to the home. -/
def mayUse (s : State) : Bool :=
  calm s && cohImport s 0 2 0x10800000000 128 false && cohImport s 0 2 0x10800000000 128 true && devValid s && !(routeSet s 2).isEmpty && s.router.replies.isEmpty

theorem test_hyp_coherent_lines :
    (let s := lines0 []
     mayUse s = true ∧ tfind s.coh.lines lineA = none ∧ slotRival s lineA = none ∧ (loomLines s 0).length < rdF s (tapKey 0x200) 19 0 ∧ outstanding s 2 2 < 4 ∧ bucketOpen s 0 = true ∧
      cohImport s 0 3 0x10800000000 1 false = false ∧ bucketOpen (withRegs s [(tapKey 0x180, 1)]) 0 = false ∧ cohImport (withRegs s [(tapKey 0x100, 1)]) 0 2 0x10800000000 128 true = true ∧
      devValid (withRegs s [(tapKey 0x100, 1)]) = false ∧ routeSet { s with router := { s.router with rt := [] } } 2 = []) ∧
    (∀ own ∈ [false, true], (let x := valid0 own
     let s := lines0 [(lineA, x)]
     mayUse s = true ∧ lineHit s lineA = some x ∧ x.fail = none ∧ x.want = none ∧ x.evicting = false ∧ x.owned = own)) ∧
    (∀ x ∈ [({ loom := 0, want := some false } : Line), { valid0 true with evicting := true }],
      lineHit (lines0 [(lineA, x)]) lineA = none ∧ x.fail = none ∧ (x.want ≠ none ∨ x.evicting = true)) ∧
    (∀ st ∈ [1, 2, 5], tfind (lines0 [(lineA, { valid0 false with fail := some (st, none) })]).coh.lines lineA = some { valid0 false with fail := some (st, none) }) := by decide +kernel

theorem test_hyp_coherent_stores :
    linesOf 2 0x10800000000 128 = [lineA] ∧ within 0x10800000000 128 0x10800000000 128 = true ∧ linesOf 2 0x1080000007E 4 = [lineA, lineB] ∧
    cohImport (lines0 []) 0 2 0x1080000007E 4 true = true ∧ lineHit (lines0 [(lineA, valid0 true)]) lineA = some (valid0 true) ∧ tfind (lines0 [(lineA, valid0 true)]).coh.lines lineB = none ∧
    (let r : Reply := { who := cohWho 0, loom := 0, addr := 2 ^ 63 + lineA * 128, len := 128, write := true, status := 0, code := none, data := [] }
     [r].find? (answers (cohWho 0) 0 (2 ^ 63 + lineA * 128) 128 true) = some r) := by decide +kernel

theorem test_hyp_line_place_taken (h : Config.lineSlot lineA = Config.lineSlot lineB) : slotRival (lines0 [(lineA, valid0 false)]) lineB = some lineA := by
  have hne : lineA ≠ lineB := by decide
  simp [slotRival, lines0, h, hne]

theorem test_hyp_line_limit (h : Config.lineSlot lineA ≠ Config.lineSlot lineB) :
    (let s := withRegs (lines0 [(lineA, valid0 false)]) [(tapKey 0x200, 1)]
     slotRival s lineB = none ∧ ¬ (loomLines s 0).length < rdF s (tapKey 0x200) 19 0 ∧ oldestLine (loomLines s 0) = some lineA) := by
  refine ⟨?_, by decide +kernel, by decide +kernel⟩
  have hs : (withRegs (lines0 [(lineA, valid0 false)]) [(tapKey 0x200, 1)]).coh.lines = [(lineA, valid0 false)] := rfl
  simp [slotRival, hs, h]

theorem test_hyp_coherent_answers :
    ∀ w ∈ [some false, some true, none], (let line := lineOf 2 0
     let x : Line := { loom := 0, want := w, evicting := w.isNone, put := if w = some true then some (cohWho 0, List.replicate 128 1) else none }
     let o : OutReq := { msg := { op := .readShared, srcDev := 1, dstDev := 2 }, vc := 2, link := some 0, sentAt := 0, origin := .coherent line }
     let s0 := home 0 15
     let s := { s0 with coh := { s0.coh with lines := [(line, x)] }, router := { s0.router with out := [o] } }
     s.staged = [] ∧ s.power.s5 = false ∧ tfind s.coh.lines line = some x ∧ lineOut s line = some o ∧ x.want = w ∧ o.msg.tag = (toHome .grantS 0 128).tag ∧
      (∀ op ∈ [MsgOp.grantS, .grantM, .snoop], (toHome op 0 128).dstDev.toNat = ownDev s ∧ inboundBar s (toHome op 0 128) = none ∧ seqPlace s (toHome op 0 128) = .next ∧
        lineOf (toHome op 0 128).srcDev.toNat (toHome op 0 128).addr.toNat = line)) := by decide +kernel

/-- The home's directory with one entry for line 0. -/
def homeDir (e : DirEnt) : State := let s := home 0 0x2F
  { s with coh := { s.coh with dir := [(0, e)] } }

theorem test_hyp_coherent_home :
    (∀ m ∈ [toHome .readShared 0 128, toHome .readOwn 0 128, { toHome .atomic 0 8 with coh := true }, toHome .evict 0 128],
      granted0 (home 0 0x2F) m = true ∧ (servedBy m).isSome = true ∧ vcOf m = 2 ∧ (snoopNeeds (home 0 0x2F) m).1 = [] ∧ lineQueued (home 0 0x2F) (homeLineOf m) = false ∧
      lineBusy (home 0 0x2F) (homeLineOf m) = false ∧ dirVictim (home 0 0x2F) (homeLineOf m) 2 = none ∧ (snoopNeeds (homeDir { owned := true, holders := [3], age := 0 }) m).1 = [3]) ∧
    (∀ b ∈ blocksOf 0 128, badBlock (home 0 0x2F) b = false) ∧ (blocksOf 0 128).find? (badBlock { home 0 0x2F with badBlocks := [1] }) ≠ none ∧
    granted0 { home 0 0x2F with badBlocks := [1] } (toHome .readShared 0 128) = true ∧ (home 0 0x2F).coh.queue = [] ∧
    (let s := homeDir { owned := false, holders := [2], age := 0 }
     granted0 s (toHome .readOwn 0 128) = true ∧ (snoopNeeds s (toHome .readOwn 0 128)).1 = [] ∧ dirEmpty (dropHolder { owned := false, holders := [2], age := 0 } 2) = true ∧
      dirEmpty (dropHolder { owned := false, holders := [2, 3], age := 0 } 2) = false) ∧
    (let s := homeDir { owned := false, holders := [], group := some (3, 4, [31]), age := 0 }
     dirVictim s 0 2 = some 0 ∧ lineBusy s 0 = false ∧ dirTargets { owned := false, holders := [], group := some (3, 4, [31]), age := 0 } ≠ [] ∧ s.power.s5 = false ∧
      ({ s with coh := { s.coh with queue := [toHome .readShared 0 128] } } : State).coh.queue.find? (fun q => decide (homeLineOf q = 0)) = some (toHome .readShared 0 128)) := by decide +kernel

theorem test_hyp_snoop_answers :
    ∀ ws ∈ [[2], [2, 3]], (let t : Tracker := { line := 0, req := some (toHome .readOwn 0 128), waits := ws, inv := true, keep := ws }
     let o : OutReq := { msg := { op := .snoop, srcDev := 1, dstDev := 2, tag := 5 }, vc := 2, link := some 0, sentAt := 0, origin := .snoop 0 }
     let s := { home 0 0x2F with coh := { State.reset.coh with busy := [t] }, router := { (home 0 0x2F).router with out := [o] } }
     let m := { toHome .snpRsp 0 128 with tag := 5 }
     s.router.out.find? (fun o => decide (o.msg.op = .snoop) && decide (o.msg.tag = m.tag) && decide (o.msg.dstDev = m.srcDev)) = some o ∧
      s.coh.busy.find? (fun t => decide (t.line = 0) && t.waits.contains 2) = some t ∧ m.snp ≠ .evictPending ∧ placeOf s 0 = .dram 0 0 ∧
      (t.waits.filter (· ≠ 2) = [] ∨ t.waits.filter (· ≠ 2) = [3])) := by decide +kernel

/-- A group block: group 7, `n` members on the devices 1, 2, …, 16 elements each, staging of `st` bytes at 0. -/
def groupBytes (n st : Nat) : List Byte :=
  toLe 4 7 ++ toLe 4 n ++ toLe 4 st ++ List.replicate 52 0 ++ (List.range n).flatMap fun i => toLe 2 (i + 1) ++ [0, 0] ++ toLe 4 16 ++ toLe 8 0

/-- A collective of TAG 9 over the group block at 0x2000: word 5, SRC, DST and word 14; 4-byte elements. -/
def collWords (o w5 src dst n : Nat) : List Word32 :=
  opWords o [(5, w5 + 0x40), (7, 9), (8, 0x2000), (10, src), (12, dst), (14, n)]

/-- No loom access to the part's own memory waits: what `neverWaits` asks, on the eight stacks. -/
def noWait (s : State) (l : Nat) : Bool :=
  s.coh.dir.isEmpty && s.coh.busy.isEmpty && (List.range 8).all fun st => !(stackOf s st).selfRefresh && regBorrow s l st && !capped s st

theorem no_wait_never_waits (s : State) (l : Nat) (h : noWait s l = true) : neverWaits s l := by
  simp only [noWait, Bool.and_eq_true, List.isEmpty_iff, List.all_eq_true, Bool.not_eq_true', List.mem_range] at h
  exact ⟨h.1.1, h.1.2, fun st hs => ⟨(h.2 st hs).1.1, (h.2 st hs).1.2, (h.2 st hs).2⟩⟩

/-- Loom 0 may borrow on every stack. -/
def lends (s : State) : State :=
  { s with live := (List.range 8).foldl (fun t st => tput t (loomKey 0 (0x1C0 + 4 * st)) (BitVec.ofNat 32 (2 ^ 24))) s.live }

/-- Core 0 runs a collective; the group block `g` and the move list `mv` behind it. -/
def collState (ws : List Word32) (g mv : List Byte) : State :=
  lends (withMem (tap0 (issuedRun ws id)) [(0x2000, g ++ mv)])

/-- The run that the group block as read makes, when its reads are served. -/
def collMade (s : State) (ws : List Word32) : Option CollRun :=
  match loomRead (fresh s) (coreWho 0 0) 0 0x2000 64 with
  | (u, .ok hd) => match loomRead u (coreWho 0 0) 0 0x2040 (16 * min (fieldLe hd 4 4) 16384) with
    | (v, .ok ms) =>
      if opcode ws ≠ 0x45 ∨ (ws.getD 14 0).toNat = 0 then (served v).map fun _ => makeRun s 0 (issued ws) hd ms []
      else match loomRead v (coreWho 0 0) 0 (0x2040 + 16 * fieldLe hd 4 4) (32 * (ws.getD 14 0).toNat) with
        | (z, .ok mv) => (served z).map fun _ => makeRun s 0 (issued ws) hd ms mv
        | _ => none
    | _ => none
  | _ => none

/-- One move of a PERMUTE from rank 0 to rank 0. -/
def moveBytes (so d k : Nat) : List Byte := List.replicate 8 0 ++ toLe 8 so ++ toLe 8 d ++ toLe 4 k ++ List.replicate 4 0

/-- The checks of a run of `n` members: its group, its spans, its moves, an earlier abort. -/
def collChecks (s : State) (ws : List Word32) (n : Nat) (g a p t : Bool) : Bool :=
  (collMade s ws).any fun r => (groupBad r n == g) && (collAlias r == a) && (permBad n r.moves == p) && (tagAborted s r.group r.tag == t)

/-- A collective of opcode `o` in a group of one, with one move of `k` bytes. -/
def coll1 (o src dst st k : Nat) : State := collState (collWords o 0 src dst (if o = 0x45 then 1 else 16)) (groupBytes 1 st) (moveBytes 4096 0 k)

/-- Whether a unit may touch `n` bytes at `a` for loom 0: what `openTo` asks. -/
def opens (s : State) (w : Who) (a n : Nat) (wr : Bool) : Bool :=
  holdsBytes s a && !isTap a && allowed s 0 a n wr && !shutPlace s w a && (blocksOf a n).all fun b => !badBlock s b

theorem opens_open_to (s : State) (w : Who) (a n : Nat) (wr : Bool) (h : opens s w a n wr = true) : openTo s w 0 a n wr := by
  simp only [opens, Bool.and_eq_true, Bool.not_eq_true', List.all_eq_true] at h
  exact ⟨h.1.1.1.1, h.1.1.1.2, h.1.1.2, h.1.2, h.2⟩

/-- Whether `k` bytes may move from `a` to `b` for loom 0 at once. -/
def movable (s : State) (a b k : Nat) : Bool := noWait s 0 && opens s ⟨0x061, 0, 0⟩ a k false && opens s ⟨0x061, 0, 0⟩ b k true

/-- An issued collective that passes its checks, with nothing else under way. -/
def collReady (o : Nat) : Bool :=
  let ws := collWords o 0 0x4000 0x8000 (if o = 0x45 then 1 else 16)
  let s := coll1 o 0x4000 0x8000 16384 4096
  calm s && decide (coreLoom s 0 = 0) && decide (issuedFresh s 0 (fun ws => [o].any fun o => isOp o ws) = some (issued ws)) && s.coll.runs.isEmpty && s.coll.opens.isEmpty && s.router.out.isEmpty &&
  collChecks s ws 1 false false false false &&
  (collMade s ws).any (fun r => decide (collWho r = ⟨0x061, 0, 0⟩) && decide (collElem r = 4) && !r.opn.rfmt && decide (collCount r 0 = 16) && (decide (o = 0x45) || decide (foldLen r = 16))) &&
  movable s 0x4000 0x8000 64

theorem test_hyp_collective_issue : ([0x40, 0x41, 0x42, 0x43, 0x44, 0x45, 0x46, 0x47].all collReady) = true := by decide +kernel

/-- No collective can go on: what `collIdle` asks. -/
def idleColl (s : State) : Bool := (wakeable s).isNone && s.coll.runs.all fun r => (collStep (fresh s) r).isNone

theorem idle_coll (s : State) (h : idleColl s = true) : collIdle s := by
  simp only [idleColl, Bool.and_eq_true, List.all_eq_true, Option.isNone_iff_eq_none] at h
  exact h

theorem test_hyp_collective_permute :
    (let ws := collWords 0x45 0 0x4000 0x8000 1
     let s := coll1 0x45 0x4000 0x8000 16384 4096
     ((collMade s ws).any fun r => decide (r.moves = [(0, 0, 4096, 0, 4096)])) = true ∧ movable s 0x5000 0x8000 4096 = true ∧
      collChecks (coll1 0x45 0x4000 0x8000 16384 4095) ws 1 false false true false = true) := by decide +kernel

theorem test_hyp_collective_group :
    ([12288, 16385].all fun st => collChecks (coll1 0x40 0x4000 0x8000 st 0) (collWords 0x40 0 0x4000 0x8000 16) 1 true false false false) = true := by decide +kernel

theorem test_hyp_collective_alias :
    collChecks (coll1 0x40 0x4000 0x403F 16384 0) (collWords 0x40 0 0x4000 0x403F 16) 1 false true false false = true ∧
    collChecks (coll1 0x40 0x4000 0x4040 16384 0) (collWords 0x40 0 0x4000 0x4040 16) 1 false false false false = true ∧
    collChecks (coll1 0x44 0x4000 0x4000 16384 0) (collWords 0x44 0 0x4000 0x4000 16) 1 false false false false = true := by decide +kernel

theorem test_hyp_collective_partners :
    (let ws := collWords 0x47 0 0 0 0
     let s := collState ws (groupBytes 2 16384) []
     collChecks s ws 2 false false false false = true ∧ ((collMade s ws).any fun r => decide (partnerRanks r = [1])) = true ∧
      collChecks { s with coll := { aborts := [(7, [9])] } } ws 2 false false false true = true ∧ (collMade { s with badBlocks := [0x80] } ws).isNone = true) := by decide +kernel

/-- A run of opcode `o` on core 0: group 7, TAG 9, members on the devices 1 and 2. -/
def run2 (o : Nat) : CollRun :=
  { core := 0, idx := 0, loom := 0, dev := 1, group := 7, tag := 9, opcode := o, rank := 0, stageBytes := 4096, members := [(1, 0, 16, 0), (2, 0, 16, 0)], src := 0x4000, dst := 0x8000
    opn := { opcode := BitVec.ofNat 8 o, members := 2, total := 32, nElem := 16, algo := 0, rop := 0, rfmt := false, elem := 2, root := 0 } }

/-- Device 1 with one collective running on core 0. -/
def collRuns (r : CollRun) : State :=
  let s := tap0 (issuedRun (collWords r.opcode 0 0x4000 0x8000 16) fun x => { x with committing := true })
  lends { s with coll := { runs := [r] }, live := (home 0 15).live.foldl (fun t p => tput t p.1 p.2) s.live }

/-- A message of device `d` for group 7 and TAG `t`. -/
def key2 (d t : Nat) : CollKey := { fromDev := BitVec.ofNat 14 d, loom := 0, group := 7, tag := BitVec.ofNat 32 t }

/-- A run that takes an OPEN of rank 1. -/
def takesOpen (s : State) (r : CollRun) : Bool :=
  calm s && !tagAborted s 7 9 && decide (s.coll.runs = [r]) && decide (runOf s (key2 2 9) = some r) && decide (runOf s (key2 2 10) = some r) && decide (rankOf r 2 = some 1) && !r.opened.contains 1 &&
  r.parts.isEmpty && r.results.isEmpty && s.router.out.isEmpty && decide (partnerRanks r = [1])

/-- A BARRIER of three members, one of whose OPENs has come. -/
def run3 : CollRun := { run2 0x47 with members := [(1, 0, 16, 0), (2, 0, 16, 0), (3, 0, 16, 0)], opened := [1] }

theorem test_hyp_collective_messages :
    takesOpen (collRuns (run2 0x47)) (run2 0x47) = true ∧ takesOpen (collRuns (run2 0x40)) (run2 0x40) = true ∧
    (key2 2 10).tag ≠ (run2 0x47).tag ∧ (key2 2 9).tag = (run2 0x47).tag ∧
    ((coreOf (collRuns (run2 0x47)) 0).slots.find? fun x => decide (x.idx = 0)) = some { issued (collWords 0x47 0 0x4000 0x8000 16) with committing := true } := by decide +kernel

theorem test_hyp_collective_idle :
    (let s := tap0 (ready0 2)
     issuedFresh s 0 (fun ws => [0x40, 0x46].any fun o => isOp o ws) = none ∧ idleColl s = true ∧ idleColl { s with coll := { runs := List.replicate 64 (run2 0x47) } } = true) ∧
    (let s := collRuns run3
     runOf s (key2 2 9) = some run3 ∧ rankOf run3 2 = some 1 ∧ 1 ∈ run3.opened ∧ idleColl { s with coll := { s.coll with opens := holdOpen s.coll.opens (key2 2 9) run3.opn } } = true ∧
      rankOf run3 4 = none ∧ idleColl s = true ∧ (key2 2 10).tag ≠ run3.tag ∧ tagAborted s 7 9 = false ∧
      idleColl (setRun s { run3 with grants := tput run3.grants 1 3 }) = true) := by decide +kernel

theorem test_hyp_collective_aborts :
    (let s := { tap0 (ready0 2) with coll := { aborts := [(7, [9])] } }
     calm s = true ∧ idleColl { s with coll := { s.coll with sentAbort := [(2, { key2 2 9 with fromDev := 1 })] } } = true ∧ tagAborted s 7 9 = true ∧ tagAborted s 7 10 = false ∧
      (runOf s (key2 2 10)).isNone = true ∧ idleColl (recordAbort s 7 10) = true) ∧
    (collRuns (run2 0x40)).coll.runs = [run2 0x40] ∧
    ((collRuns (run2 0x40)).coll.runs.find? fun r => decide (r.group = 7) && decide (r.tag = 9) && decide (r.loom = 0)) = some (run2 0x40) := by decide +kernel

/-- A chunk of rank 1 that a grant lets go out. -/
def sendsChunk (o : Nat) : Bool :=
  let r := run2 o
  let s := collRuns r
  calm s && decide (s.coll.runs = [r]) && decide (runOf s (key2 2 9) = some r) && decide (r.members[1]? = some (2, 0, 16, 0)) && decide (partnerRanks r = [1]) && r.grants.isEmpty && r.parts.isEmpty &&
  decide ((List.range (cdiv (sendRange r 1).2 4096)).find? (fun j => !(r.sentChunks.contains (1, j))) = some 0) && noWait s 0 &&
  opens s (collWho r) (r.src + (sendRange r 1).1) (min 4096 (sendRange r 1).2) false && devValid s && decide (outstanding s 2 3 < 128) && bucketOpen s 0

theorem test_hyp_collective_grants : (sendsChunk 0x42 && sendsChunk 0x43 && sendsChunk 0x44) = true := by decide +kernel

theorem test_hyp_collective_data :
    (let s := collRuns (run2 0x42)
     let m := toHome .reduceForward 0 16
     m.dstDev.toNat = ownDev s ∧ s.power.s5 = false ∧ inboundBar s m = none ∧ seqPlace s m = .next ∧ badReq s m = false ∧ runOf s (key2 2 9) = some (run2 0x42) ∧ rankOf (run2 0x42) 2 = some 1 ∧
      stagingOpen s (run2 0x42) m = true ∧ noWait s 0 = true ∧ opens s (collWho (run2 0x42)) (stageAt (run2 0x42) 0) 16 true = true) ∧
    (let s := home 0 15
     let m := toHome .reduceForward 0 4096
     calm s = true ∧ s.coll.runs = [] ∧ m.dstDev.toNat = ownDev s ∧ inboundBar s m = none ∧ seqPlace s m = .next ∧ badReq s m = false ∧ badReq s { m with len := 4097 } = true ∧
      inboundBar (setBlk s (pageOf .tap) { pending := true }) m = some 6 ∧ idleColl s = true) := by decide +kernel

/-- A session record: byte 0, LOOKAHEAD, a picture of `h` rows of 8 samples, records to ring 3, two buffers, STALL_US, no knots. -/
def sessRec (b0 la h stall : Nat) (enc : Bool) : List Byte :=
  if enc then toLe 1 b0 ++ [0, 0] ++ toLe 1 (16 * la) ++ toLe 2 8 ++ toLe 2 h ++ List.replicate 28 0 ++ toLe 4 3 ++ List.replicate 8 0 ++ toLe 4 0x100000 ++ List.replicate 16 0 ++
    toLe 2 (2 + la) ++ toLe 2 0xFFFF ++ toLe 3 stall ++ List.replicate 13 0 ++ toLe 2 0xFFFF ++ List.replicate 166 0
  else toLe 1 b0 ++ List.replicate 35 0 ++ toLe 4 3 ++ List.replicate 28 0 ++ toLe 2 2 ++ [0, 0] ++ toLe 3 stall ++ List.replicate 13 0 ++ toLe 2 0xFFFF ++ List.replicate 166 0

/-- The words of a codec operation: word 5, an address, word 8. -/
def cdWords (o w5 a w8 : Nat) : List Word32 := opWords o [(5, w5), (6, a), (8, w8)]

/-- Core 0 runs a codec operation; ring 3 takes 16 records at 0xF0000, and channel `n` has the record `k`. -/
def cdState (ws : List Word32) (n : Nat) (k : Codec) : State :=
  { issuedRun ws id with rings := [(3, { base := 0xF0000, log2 := 4, kind := 4, enable := true })], codecs := [(n, k)] }

/-- The state in which the front command of channel `n` acts: core 0's operation of opcode `o` has entered the queue. -/
def taken0 (s : State) (o : Nat) : State := fresh (takeCmd s 0 o)

/-- The session record that a CONFIG reads at 0x2000: `some` of the bytes, or none when the access fails; the access is served. -/
def readsRecord (s : State) (n : Nat) : Option (Option (List Byte)) :=
  let s1 := taken0 s 0x38
  match loomRead (setCodec s1 n { codecOf s1 n with on := true }) (codecWho n) 0 0x2000 256 with
  | (u, .ok b) => (served u).map fun _ => some b
  | (u, .error _) => (served u).map fun _ => none

/-- The 256 bytes at 0x2000 that a DECODE reads: whether the chunk comes, once the access is served. -/
def readsChunk (s : State) (n : Nat) : Option Bool :=
  match loomRead (taken0 s 0x39) (codecWho n) 0 0x2000 256 with
  | (u, .ok b) => (served u).map fun _ => decide (b.length = 256)
  | (u, .error _) => (served u).map fun _ => false

/-- Whether a record is written at once. -/
def putsRecord (p : State × Bool) : Bool := p.2 && (served p.1).isSome

/-- Core 0 holds no command in any other channel than `n`. -/
def aloneIn (s : State) (n : Nat) : Bool := (List.range 16).all fun j => decide (j = n) || (codecOf s j).cmds.all fun y => decide (y.core ≠ 0)

/-- An open session of channel `n`: a decoder's, or an encoder's with a picture of 128 rows. -/
def open0 (n : Nat) : Codec := { session := some (sessRec 0 0 (if isEnc n then 128 else 0) 0 (isEnc n)), on := true }

/-- An operation of opcode `o` has been issued for channel `n`, which may work. -/
def codecReady (s : State) (o n : Nat) (ws : List Word32) : Bool :=
  calm s && decide (issuedFresh s 0 (isOp o) = some (issued ws)) && decide (wfld ws 5 3 0 = n) && codecRuns s n && (codecOf s n).cmds.isEmpty && aloneIn s n &&
  !(blkOf s (codecKey n 0)).pending && !(blkOf s (codecKey n 0)).resetting && decide (coreLoom s 0 = 0) && decide ((w64 ws 6).toNat = 0x2000)

theorem test_hyp_codec_config :
    ∀ n ∈ [0, 15], (let ws := cdWords 0x38 n 0x2000 0
     let b := sessRec 0 0 64 0 (isEnc n)
     let s := withMem (cdState ws n {}) [(0x2000, b)]
     codecReady s 0x38 n ws = true ∧ ganged s n = false ∧ (codecOf s n).session = none ∧ readsRecord s n = some (some b) ∧ readsRecord { s with badBlocks := [0x80] } n = some none ∧
      sessionBad s 0 n b = false ∧ sessionBad s 0 n (3 :: b.drop 1) = true) := by decide +kernel

theorem test_hyp_codec_queue :
    (let ws := cdWords 0x39 1 0x2000 256
     let s := cdState ws 1 { open0 1 with cmds := List.replicate 16 { core := 1, idx := 0, words := ws } }
     issuedFresh s 0 (isOp 0x39) = some (issued ws) ∧ 16 ≤ (codecOf s 1).cmds.length ∧ aloneIn s 1 = true ∧ ((codecOf s 1).cmds.all fun y => decide (y.core ≠ 0)) = true) ∧
    (let ws := cdWords 0x39 1 0x2000 256
     let s := setBlk (cdState ws 1 (open0 1)) (codecKey 1 0) { pending := true }
     issuedFresh s 0 (isOp 0x39) = some (issued ws) ∧ (blkOf s (codecKey 1 0)).pending = true) ∧
    (let ws := cdWords 0x39 1 0x2000 256
     let s := wr (cdState ws 1 (open0 1)) (codecKey 1 0x100) 0x400
     issuedFresh s 0 (isOp 0x39) = some (issued ws) ∧ codecRuns s 1 = false ∧ aloneIn s 1 = true) ∧
    issuedFresh State.reset 0 (isOp 0x39) = none := by decide +kernel

theorem test_hyp_codec_refusals :
    (let ws := cdWords 0x39 1 0x2000 256
     let s := { cdState ws 1 {} with codecs := [(0, { session := some (sessRec 4 0 0 0 false), on := true })] }
     codecReady s 0x39 1 ws = true ∧ ganged s 1 = true ∧ leaderOf 1 ≠ 1) ∧
    codecReady (cdState (cdWords 0x39 1 0x2000 256) 1 {}) 0x39 1 (cdWords 0x39 1 0x2000 256) = true ∧ isEnc 7 = false ∧ isEnc 8 = true ∧
    codecReady (cdState (cdWords 0x39 8 0x2000 256) 8 (open0 8)) 0x39 8 (cdWords 0x39 8 0x2000 256) = true ∧
    codecReady (cdState (cdWords 0x3A 7 0x2000 2) 7 (open0 7)) 0x3A 7 (cdWords 0x3A 7 0x2000 2) = true ∧
    (∀ w8 ∈ [1, 2, 256], codecReady (cdState (cdWords 0x3A 8 0x2000 w8) 8 (open0 8)) 0x3A 8 (cdWords 0x3A 8 0x2000 w8) = true ∧ ctbRows (open0 8) = 2 ∧
      ((wfld (cdWords 0x3A 8 0x2000 w8) 8 8 0 = ctbRows (open0 8)) ↔ w8 = 2)) := by decide +kernel

theorem test_hyp_codec_chunks :
    (let ws := cdWords 0x39 1 0x2000 256
     let s := cdState ws 1 (open0 1)
     codecReady s 0x39 1 ws = true ∧ ganged s 1 = false ∧ readsChunk s 1 = some true ∧ readsChunk { s with badBlocks := [0x80] } 1 = some false) := by decide +kernel

theorem test_hyp_codec_flush :
    ∀ o ∈ [0x38, 0x3B], ∀ w ∈ [8, 0x18], (let ws := cdWords o w 0x2000 0
     let s := cdState ws 8 (open0 8)
     codecReady s o 8 ws = true ∧ ganged s 8 = false ∧ flushed s 8 = true ∧ putsRecord (codecPush (taken0 s o) 8 (codecRecord (taken0 s o) 8 2 0 0 0 0 0 0 0 0)) = true ∧
      (wfld ws 5 4 4 = 1 ↔ w = 0x18) ∧
      (let t := setCodec s 8 { open0 8 with held := [{ pts := 0, force := false, key := true }] }
       codecReady t o 8 ws = true ∧ flushed t 8 = false)) := by decide +kernel

/-- An encode session with a picture of `h` rows whose bands are being read, and the record of its first band at 0x2000: planes at 0x4000 and 0x8000, pitch 256, a knot and its value. -/
def encState (h la : Nat) (kn kv : Nat) (f : Codec → Codec) : State :=
  let ws := cdWords 0x3A 8 0x2000 (cdiv h 64)
  let k : Codec := { session := some (sessRec 0 la h 0 true), on := true, cmds := [{ core := 0, idx := 0, words := ws }], cur := some { pts := 0, force := false, key := true } }
  withMem (cdState ws 8 (f k)) [(0x2000, toLe 8 0x4000 ++ toLe 8 0x8000 ++ toLe 4 256 ++ toLe 2 kn ++ [0, 0] ++ toLe 8 kv)]

/-- The record of the band that is read next: its bytes, none when the access fails; the access is served. -/
def bandRead0 (s : State) (h : Nat) : Option (Option (List Byte)) :=
  match bandRecord (fresh s) 8 { core := 0, idx := 0, words := cdWords 0x3A 8 0x2000 (cdiv h 64) } with
  | (t, .ok b) => (served t).map fun _ => some b
  | (t, .error _) => (served t).map fun _ => none

/-- Whether the band that is read next is read whole and copied, all its accesses served. -/
def bandWhole (s : State) (h : Nat) : Bool :=
  match bandRecord (fresh s) 8 { core := 0, idx := 0, words := cdWords 0x3A 8 0x2000 (cdiv h 64) } with
  | (t, .ok b) => knotFieldOk s 0 (fieldLe b 20 2) && bandReady s b && (match readRows t 8 (fieldLe b 16 4) 8 64 (fieldLe b 0 8) with
    | (u, .ok luma) => (match readRows u 8 (fieldLe b 16 4) 8 32 (fieldLe b 8 8) with
      | (v, .ok chroma) =>
        let k := codecOf s 8
        let w := copyBand v 8 0 (luma.map (cleanRow k)) (chroma.map (cleanRow k))
        w.2.isNone && (served w.1).isSome
      | _ => false)
    | _ => false)
  | _ => false

/-- A channel that may encode: calm, running, with a session and in no gang. -/
def encodes (s : State) : Bool := calm s && codecRuns s 8 && (codecOf s 8).session.isSome && !ganged s 8

theorem test_hyp_codec_bands :
    (∀ h ∈ [64, 128], (let s := encState h 0 0xFFFF 0 id
     let k := codecOf s 8
     let x : CodecCmd := { core := 0, idx := 0, words := cdWords 0x3A 8 0x2000 (cdiv h 64) }
     encodes s = true ∧ k.cmds = [x] ∧ k.cur ≠ none ∧ opcode x.words = 0x3A ∧ lookahead s k = 0 ∧ ctbRows k = h / 64 ∧ wfld x.words 8 8 0 = ctbRows k ∧ encRow k = 8 ∧ bandRows k 0 = (64, 32) ∧
      bandWhole s h = true ∧ bandRead0 { s with badBlocks := [0x80] } h = some none)) ∧
    (let s := encState 64 0 7 1 id
     ((bandRead0 s 64).any fun b => b.any fun b => knotFieldOk s 0 (fieldLe b 20 2) && !bandReady s b) = true) ∧
    (let s := wr (encState 64 0 7 1 id) (codecKey 8 0x100) 0x400
     codecRuns s 8 = false) ∧ (codecOf State.reset 8).cmds = [] := by decide +kernel

/-- Channel 8 holds a picture with one band of 64 rows read, or ended by an error; whether its slice has been begun. -/
def heldState (h : Nat) (p : CodecPic) (made : Bool) : State := encState h 0 7 1 fun k => { k with cmds := [], cur := none, held := [p], made := made }

-- What is coded is free (log entry 9): whether a slice fits the buffer, and where it ends there, the free value decides.
theorem test_hyp_codec_slices :
    (let p : CodecPic := { pts := 0, force := false, key := true, err := true }
     let s := heldState 64 p false
     let u := startSlice (fresh s) 8
     let s1 := setCodec u 8 { codecOf u 8 with used := stillUsed u (codecOf u 8) }
     let k := codecOf s1 8
     encodes s = true ∧ codecClock s 8 = true ∧ outReady s1 8 = true ∧ codable s1 k = some p ∧ k.made = false ∧ k.cmds = [] ∧
      putsRecord (codecPush s1 8 (codecRecord s1 8 1 (1 + 8 + 16) (sess k 40 8 + k.bsPos) 0 0 p.pts 0 0 k.slice)) = true ∧ b2n p.key = 1 ∧ shedLevel s = 0 ∧
      codecClock { s with board := { s.board with thermTrip := true } } 8 = false) ∧
    (let p : CodecPic := { pts := 0, force := false, key := true, bands := [[0]] }
     let s := heldState 128 p false
     let u := startSlice (fresh s) 8
     let s1 := setCodec u 8 { codecOf u 8 with used := stillUsed u (codecOf u 8) }
     let k := codecOf s1 8
     encodes s = true ∧ outReady s1 8 = true ∧ codable s1 k = some p ∧ p.err = false ∧ k.made = false) ∧
    (let p : CodecPic := { pts := 0, force := false, key := true, bands := [[0]] }
     let s := heldState 64 p true
     let u := startSlice (fresh s) 8
     let s1 := setCodec u 8 { codecOf u 8 with used := stillUsed u (codecOf u 8) }
     let k := codecOf s1 8
     encodes s = true ∧ outReady s1 8 = true ∧ outBad s1 8 = false ∧ codable s1 k = some p ∧ p.err = false ∧ k.made = true ∧ k.cmds = [] ∧ k.held = [p] ∧
      k.used = [] ∧ sess k 48 4 = 0x100000 ∧ rowsTo k k.slice = ctbRows k) ∧
    codable State.reset {} = none := by decide +kernel

/-- Channel 1 decodes with two picture buffers, and has taken `u` units for its picture already. -/
def decState (u : Nat) : State := { cdState [] 1 { open0 1 with stream := [[0]], eaten := u } with time := 1954 }

/-- How many units of syntax the first picture has: a free value (log entry 9). -/
def units0 : Nat := Config.pictureUnits (sessRec 0 0 0 0 false) [[0]] 0

theorem test_hyp_codec_units : unitsNeeded (codecOf (decState units0) 1) ≤ (codecOf (decState units0) 1).syn := by
  show units0 - units0 ≤ 0
  omega

theorem test_hyp_codec_pictures :
    (let s := decState units0
     let s1 := setCodec (fresh s) 1 { codecOf s 1 with used := stillUsed s (codecOf s 1) }
     let k := codecOf s1 1
     calm s = true ∧ codecRuns s 1 = true ∧ isEnc 1 = false ∧ k.session.isSome = true ∧ k.stream = [[0]] ∧ ganged s 1 = false ∧ k.cmds = [] ∧
      outReady s1 1 = true ∧ outBad s1 1 = false ∧ (freeBuffer k).isSome = true ∧ sess k 68 2 = 2) := by decide +kernel

theorem test_hyp_codec_full :
    (let s := setRing (decState 0) 3 { ringOf (decState 0) 3 with wp := 16 }
     outReady (fresh s) 1 = false) ∧
    freeBuffer { open0 1 with used := [(0, 0, 1), (1, 1, 1)] } = none ∧
    (let s := setRing (setCodec (decState 0) 1 { open0 1 with stream := [[0]], used := [(0, 0, 1), (1, 1, 1)] }) 3 { ringOf (decState 0) 3 with wp := 2 }
     (stillUsed s (codecOf s 1)).length = 2) ∧
    (let s := fresh (decState 0)
     putsRecord (codecPush s 1 (codecRecord s 1 3 64 0 0 0 0 0 0 0)) = true) := by decide +kernel

theorem test_hyp_codec_stalls :
    (let k : Codec := { session := some (sessRec 0 0 0 100 false), on := true, stream := [[0]], waitSince := some 0 }
     let s := { cdState [] 1 k with time := 1954 }
     calm s = true ∧ k.session.isSome = true ∧ sess k 72 3 ≠ 0 ∧ k.stallPosted = false ∧ elapsedUs s.time 0 (sess k 72 3) = true ∧ elapsedUs 1953 0 (sess k 72 3) = false ∧
      fbit (rd s (codecKey 1 0x100)) 10 = false) := by decide +kernel

-- ## The machine as a whole, number formats

theorem test_hyp_storage : StorageWf State.reset := ⟨rfl, rfl, rfl⟩

theorem test_hyp_steps : State.reset.pending = [] ∧
    (match step State.reset with
      | .next t => t.pending.isEmpty
      | _ => false) = true ∧
    (∀ l : LoomId, tget 0 State.reset.router.bucket l ≤ rdF State.reset (tapKey (0x180 + 4 * l)) 22 16 * 1024) := by decide +kernel

theorem test_hyp_number_formats :
    (∀ c ∈ [0, 1, 2, 3, 4, 5, 6, 7, 8, 9], 1 < 2 ^ elemBits c ∧ decFloat c 1 ≠ .nan) ∧ subElem 0 1 = true ∧ subElem 0 0x3F800000 = false ∧ decFloat 0 0x7FC00000 = .nan ∧
    (let f := fspec 0
     max ((Nat.log2 3 : Int) + 0) f.emin - f.mb ≤ 0 ∧ (0 : Int) < max ((Nat.log2 (2 ^ 25) : Int) + 0) f.emin - f.mb) := by decide +kernel
end Sys2Proof.Tests
end

/-! Steps against the fuses, the timestamp and the queue: what a command answers, and what a tick leaves. -/

namespace Sys2Proof.Machine

section Frames

variable {K : Nat → Prop} {ps : List Part} {s t : State}

-- ## A tick

/-- The registers a tick may change: the sampled GPIO levels (R444) and the counters of waiting time (R69, R88, R95, R197, R215, R331, R446). -/
def tickRegs : Nat → Prop := fun k =>
  k ∈ [0x120, 0x21104, 0x10184] ∨ (∃ p, p < 16 ∧ k = wfpKey p 0x120) ∨ ∃ c o, o ∈ [0x110, 0x130, 0x188, 0x1D4] ∧ k = coreKey c o

/-- The parts a tick may change: the buckets of the stacks and of the router, and the cycles that stopping cores have run. -/
def tickParts : List Part := [.stackTab, .router, .cores]

theorem Frame.fillStack (h : Frame K ps s t) (hp : Part.stackTab ∈ ps) (st : Nat) : Frame K ps s (fillStack t st) := by
  unfold Machine.fillStack
  exact Frame.ite (fun _ => h) fun _ => h.setStack hp _ _

theorem Frame.fillRouter (h : Frame K ps s t) (hp : Part.router ∈ ps) : Frame K ps s (fillRouter t) := by
  unfold Machine.fillRouter
  exact Frame.ite (fun _ => h) fun _ => h.set_router hp _

theorem Frame.countWait (h : Frame K ps s t) {k : Nat} (hk : K k) (n : Nat) (waits : Bool) : Frame K ps s (countWait t k n waits) := by
  unfold Machine.countWait
  exact Frame.ite (fun _ => h.addCnt hk _) fun _ => h

theorem Frame.tickWaits (h : Frame K ps s t) (hk : ∀ k, tickRegs k → K k) : Frame K ps s (tickWaits t) := by
  unfold Machine.tickWaits
  have hentries := h.countWait (hk 0x21104 (.inl (by simp))) (tickUnits t.time 512 10000)
  refine Frame.foldl _ _ ((hentries _).countWait (hk 0x10184 (.inl (by simp))) _ _) fun p hp u hu => ?_
  exact hu.countWait (hk _ (.inr (.inl ⟨p, List.mem_range.mp hp, rfl⟩))) _ _

theorem Frame.countCore (h : Frame K ps s t) (hk : ∀ k, tickRegs k → K k) (c : Nat) : Frame K ps s (countCore t c) := by
  have hcount : ∀ o, o ∈ [0x110, 0x130, 0x188, 0x1D4] → K (coreKey c o) := fun o ho => hk _ (.inr (.inr ⟨c, o, ho, rfl⟩))
  unfold Machine.countCore
  refine Frame.ite (fun _ => h) fun _ => ?_
  exact (((h.countWait (hcount _ (by simp)) _ _).countWait (hcount _ (by simp)) _ _).countWait (hcount _ (by simp)) _ _).countWait
    (hcount _ (by simp)) _ _

theorem Frame.tickCores (h : Frame K ps s t) (hp : Part.cores ∈ ps) : Frame K ps s (tickCores t) := h.set_cores hp _

/-- A tick is its own frame and the timestamp advanced by one (R376). -/
theorem aonTick_frame (s : State) : ∃ u, Frame tickRegs tickParts s u ∧ aonTick s = { u with time := s.time + 1 } := by
  refine ⟨_, ?_, rfl⟩
  refine Frame.wr (Frame.tickCores ?_ (by simp [tickParts])) (.inl (by simp)) _
  refine Frame.foldl _ _ ?_ fun c _ u hu => hu.countCore (fun _ hk => hk) c
  refine Frame.tickWaits (Frame.fillRouter ?_ (by simp [tickParts])) fun _ hk => hk
  exact Frame.foldl _ _ (Frame.refl s) fun st _ u hu => hu.fillStack (by simp [tickParts]) st

-- ## A power-on reset

/-- The registers that sampling the straps may change (R400, R401): the boot straps and status, PLL control, and the control and status of the Weft ports. -/
def strapRegs : Nat → Prop := fun k => k ∈ [rstKey 0x104, rstKey 0x108, pcmKey 0x108, wfpKey 0 0x100] ∨ ∃ p, k = wfpKey p 0x104

/-- The parts that sampling the straps may change. -/
def strapParts : List Part := [.board, .boot, .links]

theorem Frame.trainPort (h : Frame K ps s t) (hk : ∀ p, K (wfpKey p 0x104)) (hp : ∀ p, p ∈ strapParts → p ∈ ps) (p : Nat) :
    Frame K ps s (trainPort t p) := by
  unfold Machine.trainPort
  refine Frame.foldl _ _ h fun k _ u hu => ?_
  exact ((hu.setLink (hp _ (by simp [strapParts])) k _).set_board (hp _ (by simp [strapParts])) _).wrF (hk (k / 2)) _ _ _

theorem Frame.set_board_boot (h : Frame K ps s t) (hb : Part.board ∈ ps) (hp : Part.boot ∈ ps) (x : Board) (y : Boot) :
    Frame K ps s { t with board := x, boot := y } := (h.set_board hb x).set_boot hp y

theorem Frame.sampleStraps (h : Frame K ps s t) (hk : ∀ k, strapRegs k → K k) (hp : ∀ p, p ∈ strapParts → p ∈ ps) (straps : BitVec 7) :
    Frame K ps s (sampleStraps t straps) := by
  have hboard := hp .board (by simp [strapParts])
  have hboot := hp .boot (by simp [strapParts])
  have hstat : K (rstKey 0x108) := hk _ (.inl (by simp))
  have hpll : K (pcmKey 0x108) := hk _ (.inl (by simp))
  have hport : K (wfpKey 0 0x100) := hk _ (.inl (by simp))
  have hread : Frame K ps s (Machine.wr { t with board := { t.board with straps := straps } } (rstKey 0x104) (straps.setWidth 32)) :=
    (h.set_board hboard _).wr (hk _ (.inl (by simp))) _
  have hosc := Frame.ite (c := bitsOf straps.toNat 3 2 = 3) (fun _ => hread.wrB hpll 0 true) fun _ => hread
  unfold Machine.sampleStraps bootFail bootF
  refine Frame.ite (fun _ => ?_) fun _ => ?_
  · exact (hosc.set_boot hboot _).wrF hstat _ _ _
  · have hrom := hosc.wrF hstat 3 0 1
    match bitsOf straps.toNat 1 0 with
    | 0 => exact hrom.set_board_boot hboard hboot _ _
    | 1 => exact (hrom.set_board_boot hboard hboot _ _).wrF hstat _ _ _
    | 2 => exact (((hrom.set_boot hboot _).wr hport _).trainPort (fun p => hk _ (.inr ⟨p, rfl⟩)) hp 0).wrF hstat _ _ _
    | _ + 3 => exact (hrom.set_boot hboot _).wrF hstat _ _ _

end Frames

/-- A power-on reset keeps the fuses and the queue, and starts the timestamp again (R398). -/
theorem powerOn_fuse_time_pending (s : State) (straps : BitVec 7) (resetN : Bool) :
    (powerOn s straps resetN).fuse = s.fuse ∧ (powerOn s straps resetN).time = 0 ∧ (powerOn s straps resetN).pending = s.pending := by
  unfold powerOn
  cases resetN
  · exact ⟨rfl, rfl, rfl⟩
  · have h := fun u : State => (Frame.refl u).sampleStraps (fun _ hk => hk) (fun _ hp => hp) straps
    exact ⟨(h _).fuse, (h _).time, (h _).pending⟩

-- ## A command

/-- Every command but a power-on reset and the commit of an image is an effect inside `keep`: it hands back the fuses, the timestamp and the queue as it got them. -/
theorem exec_eq_next_keep (c : Instr) (s : State) (hp : ∀ straps resetN, c ≠ .powerOnReset straps resetN) (hc : c ≠ .imageCommit) :
    ∃ u, exec c s = .next (keep s u) := by
  cases c with
  | powerOnReset straps resetN => exact absurd rfl (hp straps resetN)
  | imageCommit => exact absurd rfl hc
  | _ => exact ⟨_, rfl⟩

theorem FusesGrow.refl (f : Fuses) : FusesGrow f f :=
  ⟨rfl, rfl, rfl, rfl, rfl, rfl, rfl, rfl, Nat.le_refl _, fun _ h => h, fun h => h⟩

/-- Blowing anti-rollback bits is the one change of a fuse (R410, R445). -/
theorem FusesGrow.raise_arbCount (f : Fuses) (n : Nat) : FusesGrow f { f with arbCount := max f.arbCount n } :=
  ⟨rfl, rfl, rfl, rfl, rfl, rfl, rfl, rfl, Nat.le_max_left _ _, fun _ h => h, fun h => h⟩

/-- The commit of an image only raises the anti-rollback count (R410). -/
theorem exec_imageCommit (s : State) :
    ∃ t, exec .imageCommit s = .next t ∧ FusesGrow s.fuse t.fuse ∧ t.time = s.time ∧ t.pending = s.pending := by
  refine ⟨_, rfl, ?_⟩
  cases s.boot.firmware
  · exact ⟨FusesGrow.refl _, rfl, rfl⟩
  · exact ⟨FusesGrow.raise_arbCount _ _, rfl, rfl⟩

/-- What every command leaves of fuses, timestamp and queue. -/
theorem exec_fuse_time_pending (c : Instr) (s : State) :
    ∃ t, exec c s = .next t ∧ FusesGrow s.fuse t.fuse ∧ t.pending = s.pending ∧
      ((∀ straps resetN, c ≠ .powerOnReset straps resetN) → t.time = s.time) ∧
      (∀ straps resetN, c = .powerOnReset straps resetN → t.time = 0) := by
  by_cases hpor : ∃ straps resetN, c = .powerOnReset straps resetN
  · obtain ⟨straps, resetN, rfl⟩ := hpor
    obtain ⟨hfuse, htime, hpend⟩ := powerOn_fuse_time_pending s straps resetN
    exact ⟨_, rfl, hfuse ▸ FusesGrow.refl _, hpend, fun h => absurd rfl (h straps resetN), fun _ _ _ => htime⟩
  · have hne : ∀ straps resetN, c ≠ .powerOnReset straps resetN := fun a b e => hpor ⟨a, b, e⟩
    by_cases hc : c = .imageCommit
    · subst hc
      obtain ⟨t, ht, hfuse, htime, hpend⟩ := exec_imageCommit s
      exact ⟨t, ht, hfuse, hpend, fun _ => htime, fun a b e => absurd e (hne a b)⟩
    · obtain ⟨u, hu⟩ := exec_eq_next_keep c s hne hc
      exact ⟨_, hu, FusesGrow.refl _, rfl, fun _ => rfl, fun a b e => absurd e (hne a b)⟩

/-- Settles O57: on an empty queue by the frame of the tick, else by what the command at its front leaves. -/
theorem stepKeepsFusesAndTime : Obligations.StepKeepsFusesAndTime := by
  intro s
  unfold step
  cases hq : s.pending with
  | nil =>
    obtain ⟨u, hu, htick⟩ := aonTick_frame s
    refine ⟨aonTick s, rfl, ?_, ?_, fun _ => by rw [htick], by simp, by simp⟩
    · rw [htick, show ({ u with time := s.time + 1 } : State).fuse = s.fuse from hu.fuse]
      exact FusesGrow.refl _
    · rw [htick]
      exact hu.pending.trans hq
  | cons c rest =>
    obtain ⟨t, ht, hfuse, hpend, htime, hpor⟩ := exec_fuse_time_pending c { s with pending := rest }
    refine ⟨t, ht, hfuse, hpend, by simp, ?_, ?_⟩
    · intro c' r' he hne
      obtain ⟨rfl, rfl⟩ := List.cons.inj he
      exact htime hne
    · intro straps resetN r' he
      obtain ⟨rfl, rfl⟩ := List.cons.inj he
      exact hpor straps resetN rfl

end Sys2Proof.Machine

/-! Fields of registers: the register map's fields lie apart, and what a write leaves in each bit of a register. -/

namespace Sys2Proof.Machine

-- ## Fields of the register map

/-- Fields of one register lie in its 32 bits, and no two share a bit. -/
def fieldsApart (fs : List RField) : Bool :=
  fs.all (fun f => decide (f.lo ≤ f.hi) && decide (f.hi < 32)) && decide (fs.Pairwise fun f g => f.hi < g.lo ∨ g.hi < f.lo)

/-- Every register of a table has its fields apart. -/
def rowsApart (rows : List RegRow) : Bool := rows.all fun r => fieldsApart r.fields

theorem commonRegs_apart : rowsApart commonRegs = true := by rfl
theorem doorbellRegs_apart : rowsApart doorbellRegs = true := by rfl
theorem statusRegs_apart : rowsApart statusRegs = true := by rfl

theorem regsOf_apart (b : Block) : rowsApart (regsOf b) = true := by
  cases b <;> rfl

theorem msixWord_apart (w : Nat) : fieldsApart (msixWord w) = true := by
  unfold msixWord
  split
  · rfl
  · split <;> rfl

theorem findRow_apart {rows : List RegRow} {o : Nat} {fs : List RField} (h : rowsApart rows = true)
    (hf : (findRow rows o).map RegRow.fields = some fs) : fieldsApart fs = true := by
  obtain ⟨r, hr, rfl⟩ := Option.map_eq_some_iff.mp hf
  exact List.all_eq_true.mp h r (List.mem_of_find?_eq_some hr)

/-- The fields of every register of the map lie apart. -/
theorem fieldsAt_apart {k : Nat} {fs : List RField} (h : fieldsAt k = some fs) : fieldsApart fs = true := by
  unfold fieldsAt at h
  split at h
  · exact Option.some.inj h ▸ msixWord_apart _
  split at h
  · exact Option.some.inj h ▸ rfl
  split at h
  · cases hb : blockAt k with
    | none => simp [hb] at h
    | some b =>
      rw [hb] at h
      by_cases ho : k % 0x1000 < 0x100
      · exact findRow_apart commonRegs_apart (by simpa [ho] using h)
      · exact findRow_apart (regsOf_apart b) (by simpa [ho] using h)
  split at h
  · exact findRow_apart doorbellRegs_apart h
  split at h
  · exact findRow_apart statusRegs_apart h
  split at h
  · by_cases ho : (k - bar2Key) % 0x2000 < 0x400
    · rw [if_pos ho] at h
      exact Option.some.inj h ▸ msixWord_apart _
    · rw [if_neg ho] at h
      split at h
      · exact Option.some.inj h ▸ rfl
      · cases h
  · cases h

theorem fieldsApart_bounds {fs : List RField} (h : fieldsApart fs = true) {f : RField} (hf : f ∈ fs) : f.lo ≤ f.hi ∧ f.hi < 32 := by
  simp only [fieldsApart, Bool.and_eq_true, List.all_eq_true, decide_eq_true_eq] at h
  exact h.1 f hf

theorem fieldsApart_pairwise {fs : List RField} (h : fieldsApart fs = true) : fs.Pairwise fun f g => f.hi < g.lo ∨ g.hi < f.lo := by
  simp only [fieldsApart, Bool.and_eq_true, decide_eq_true_eq] at h
  exact h.2

-- ## Bits after a write

/-- Two register values that agree on the bits of a field have the same field. -/
theorem fld_congr {w x : Word32} {hi lo : Nat} (h : ∀ i, lo ≤ i → i ≤ hi → w.getLsbD i = x.getLsbD i) : fld w hi lo = fld x hi lo := by
  apply Nat.eq_of_testBit_eq
  intro i
  rw [testBit_fld, testBit_fld]
  by_cases hi' : i < hi + 1 - lo
  · rw [h (i + lo) (by omega) (by omega)]
  · simp [hi']

/-- A write of `v` gives field `f` an encoding that is not reserved (R9). -/
abbrev legalIn (v : Word32) (f : RField) : Prop := f.min ≤ fld v f.hi f.lo ∧ fld v f.hi f.lo ≤ f.max

/-- What a write of `v` makes of bit `i` of a field, where it was `b` (R8, R9). -/
def writtenBit (locked : Bool) (v : Word32) (f : RField) (b : Bool) (i : Nat) : Bool :=
  let set := if legalIn v f then v.getLsbD i else b
  match f.acc with
  | .rw => set
  | .rwl => if locked then b else set
  | .w1c => b && !v.getLsbD i
  | .w1s => b || v.getLsbD i
  | .ro => b
  | .wo => b

/-- A field set to the field of `v` takes the bits of `v`. -/
theorem getLsbD_setFld_fld (v old : Word32) (hi lo i : Nat) (h : hi < 32) (hl : lo ≤ hi) :
    (setFld old hi lo (fld v hi lo)).getLsbD i = if lo ≤ i ∧ i ≤ hi then v.getLsbD i else old.getLsbD i := by
  rw [getLsbD_setFld old hi lo _ i h hl]
  by_cases hi' : lo ≤ i ∧ i ≤ hi
  · have hlt : i - lo < hi + 1 - lo := by omega
    simp [hi', testBit_fld, hlt]
  · simp [hi']

/-- A write touches a field's own bits, by its access code. -/
theorem getLsbD_writeField (locked : Bool) (v old : Word32) (f : RField) (i : Nat) (hl : f.lo ≤ f.hi) (h : f.hi < 32) :
    (writeField locked v old f).getLsbD i =
      if f.lo ≤ i ∧ i ≤ f.hi then writtenBit locked v f (old.getLsbD i) i else old.getLsbD i := by
  have hset := getLsbD_setFld_fld v old f.hi f.lo i h hl
  have hmask := getLsbD_fmask f.hi f.lo i h hl
  have hlegal : (if legalIn v f then setFld old f.hi f.lo (fld v f.hi f.lo) else old).getLsbD i =
      if f.lo ≤ i ∧ i ≤ f.hi then if legalIn v f then v.getLsbD i else old.getLsbD i
      else old.getLsbD i := by
    split
    · exact hset
    · simp
  unfold writeField writtenBit
  cases f.acc with
  | rw => exact hlegal
  | rwl => cases locked <;> simp [hlegal]
  | w1c =>
    have hhigh : ¬ i < 32 → old.getLsbD i = false := fun hi => BitVec.getLsbD_of_ge old i (Nat.not_lt.mp hi)
    simp only [BitVec.getLsbD_and, BitVec.getLsbD_not, hmask]
    by_cases hin : f.lo ≤ i ∧ i ≤ f.hi
    · simp [hin, show i < 32 by omega]
    · by_cases hi : i < 32
      · rw [if_neg hin]
        simp only [hi, decide_true, Bool.true_and]
        rcases Decidable.not_and_iff_or_not.mp hin with hlo | hhi
        · simp [hlo]
        · simp [hhi]
      · simp [hhigh hi]
  | w1s =>
    by_cases hin : f.lo ≤ i ∧ i ≤ f.hi
    · simp [hmask, hin]
    · simp [hmask, hin]
  | ro => simp
  | wo => simp

/-- Bits outside every field of a list stay under a write of its fields. -/
theorem getLsbD_writeFields_outside (locked : Bool) (v old : Word32) (fs : List RField) (i : Nat)
    (hb : ∀ f ∈ fs, f.lo ≤ f.hi ∧ f.hi < 32) (h : ∀ f ∈ fs, i < f.lo ∨ f.hi < i) :
    (writeFields locked fs v old).getLsbD i = old.getLsbD i := by
  unfold writeFields
  induction fs generalizing old with
  | nil => rfl
  | cons f r ih =>
    obtain ⟨hl, hlt⟩ := hb f (by simp)
    have hout : ¬ (f.lo ≤ i ∧ i ≤ f.hi) := by have := h f (by simp); omega
    rw [List.foldl_cons, ih _ (fun g hg => hb g (by simp [hg])) fun g hg => h g (by simp [hg]), getLsbD_writeField locked v old f i hl hlt, if_neg hout]

/-- A bit of a field is written by that field's access code alone. -/
theorem getLsbD_writeFields_of_mem (locked : Bool) (v old : Word32) {fs : List RField} {f : RField} {i : Nat} (hfs : fieldsApart fs = true)
    (hf : f ∈ fs) (hlo : f.lo ≤ i) (hhi : i ≤ f.hi) : (writeFields locked fs v old).getLsbD i = writtenBit locked v f (old.getLsbD i) i := by
  have hb := fun g (hg : g ∈ fs) => fieldsApart_bounds hfs hg
  have hpair := fieldsApart_pairwise hfs
  obtain ⟨hl, hlt⟩ := hb f hf
  obtain ⟨before, after, rfl⟩ := List.append_of_mem hf
  obtain ⟨-, hafter, hbefore⟩ := List.pairwise_append.mp hpair
  have hskip : (writeFields locked before v old).getLsbD i = old.getLsbD i :=
    getLsbD_writeFields_outside locked v old before i (fun g hg => hb g (by simp [hg])) fun g hg => by
      have := hbefore g hg f (by simp)
      omega
  have hrest := fun x => getLsbD_writeFields_outside locked v x after i (fun g hg => hb g (by simp [hg])) fun g hg => by
    have := (List.pairwise_cons.mp hafter).1 g hg
    omega
  calc (writeFields locked (before ++ f :: after) v old).getLsbD i
      = (writeFields locked after v (writeField locked v (writeFields locked before v old) f)).getLsbD i := by
        simp [writeFields]
    _ = writtenBit locked v f (old.getLsbD i) i := by
        rw [hrest, getLsbD_writeField locked v _ f i hl hlt, if_pos ⟨hlo, hhi⟩, hskip]

-- ## A register written

theorem putReg_of_fields {s : State} {k : Nat} {fs : List RField} (h : fieldsAt k = some fs) (v : Word32) :
    putReg s k v = wr s k (writeFields (pageLocked s k) fs v (rd s k)) := by
  unfold putReg
  rw [h]

theorem rd_putReg_of_fields {s : State} {k : Nat} {fs : List RField} (h : fieldsAt k = some fs) (v : Word32) :
    rd (putReg s k v) k = writeFields (pageLocked s k) fs v (rd s k) := by
  rw [putReg_of_fields h, rd_wr_self]

theorem putReg_frame {s : State} {k : Nat} {fs : List RField} (h : fieldsAt k = some fs) (v : Word32) :
    Frame (someRegs [k]) [] s (putReg s k v) := by
  rw [putReg_of_fields h]
  exact (Frame.refl s).wr (by simp [someRegs]) _

/-- A field whose every bit a write takes from `v` or leaves. -/
theorem fld_writeFields (locked : Bool) (v old w : Word32) {fs : List RField} {f : RField} (hfs : fieldsApart fs = true) (hf : f ∈ fs)
    (h : ∀ i, writtenBit locked v f (old.getLsbD i) i = w.getLsbD i) : fld (writeFields locked fs v old) f.hi f.lo = fld w f.hi f.lo :=
  fld_congr fun i hlo hhi => (getLsbD_writeFields_of_mem locked v old hfs hf hlo hhi).trans (h i)

/-- A field that a write may set takes the value written, unless its encoding is reserved (R9). -/
theorem fld_writeFields_set (locked : Bool) (v old : Word32) {fs : List RField} {f : RField} (hfs : fieldsApart fs = true) (hf : f ∈ fs)
    (hacc : f.acc = .rw ∨ (f.acc = .rwl ∧ locked = false)) :
    fld (writeFields locked fs v old) f.hi f.lo =
      if legalIn v f then fld v f.hi f.lo else fld old f.hi f.lo := by
  have hbit : ∀ b i, writtenBit locked v f b i = if legalIn v f then v.getLsbD i else b := by
    intro b i
    rcases hacc with hacc | ⟨hacc, hlocked⟩
    · simp [writtenBit, hacc]
    · simp [writtenBit, hacc, hlocked]
  split
  · exact fld_writeFields locked v old v hfs hf fun i => by rw [hbit, if_pos ‹_›]
  · exact fld_writeFields locked v old old hfs hf fun i => by rw [hbit, if_neg ‹_›]

/-- A field that a write may not set stays. -/
theorem fld_writeFields_kept (locked : Bool) (v old : Word32) {fs : List RField} {f : RField} (hfs : fieldsApart fs = true) (hf : f ∈ fs)
    (hacc : f.acc = .ro ∨ f.acc = .wo ∨ (f.acc = .rwl ∧ locked = true)) :
    fld (writeFields locked fs v old) f.hi f.lo = fld old f.hi f.lo := by
  refine fld_writeFields locked v old old hfs hf fun i => ?_
  rcases hacc with hacc | hacc | ⟨hacc, hlocked⟩
  · simp [writtenBit, hacc]
  · simp [writtenBit, hacc]
  · simp [writtenBit, hacc, hlocked]

/-- Settles O13: the fields of a register share no bit, so each is written by its own access code. -/
theorem fieldWrites : Obligations.FieldWrites := by
  intro s k fs v hk
  have hfs := fieldsAt_apart hk
  rw [rd_putReg_of_fields hk]
  refine ⟨fun f hf hacc => ?_, fun f hf hacc hl => ?_, fun f hf hacc hl => ?_, fun f hf hacc i hlo hhi => ?_, fun f hf hacc i hlo hhi => ?_,
    fun f hf hacc => ?_, fun i hi => ?_, putReg_frame hk v⟩
  · exact fld_writeFields_set _ v _ hfs hf (.inl hacc)
  · exact fld_writeFields_kept _ v _ hfs hf (.inr (.inr ⟨hacc, hl⟩))
  · exact fld_writeFields_set _ v _ hfs hf (.inr ⟨hacc, hl⟩)
  · exact (getLsbD_writeFields_of_mem _ v _ hfs hf hlo hhi).trans (by simp [writtenBit, hacc, fbit])
  · exact (getLsbD_writeFields_of_mem _ v _ hfs hf hlo hhi).trans (by simp [writtenBit, hacc, fbit])
  · exact fld_writeFields_kept _ v _ hfs hf (hacc.imp_right .inl)
  · exact getLsbD_writeFields_outside _ v _ fs i (fun f hf => fieldsApart_bounds hfs hf) hi

end Sys2Proof.Machine

/-! Shedding levels (R391, R392): what holding and releasing work may change, and a new level in force. -/

namespace Sys2Proof.Machine

section Frames

variable {K : Nat → Prop} {ps : List Part} {s t : State}

-- ## Cores and entries of a held bolt

theorem Frame.updEntry (h : Frame K ps s t) (hp : Part.entries ∈ ps) (r : Nat) (q : Word32) (f : Entry → Entry) :
    Frame K ps s (updEntry t r q f) := h.set_entries hp _

theorem Frame.askStop (h : Frame K ps s t) (hp : Part.cores ∈ ps) (c : Nat) : Frame K ps s (askStop t c) := by
  unfold Machine.askStop
  refine Frame.ite (fun _ => h) fun _ => ?_
  cases coreBolt t c with
  | none => exact h.setCore hp _ _
  | some x => exact (h.setCore hp _ _).setCore hp _ _

theorem Frame.goOn (h : Frame K ps s t) (hp : Part.cores ∈ ps) (b : Bolt) (c : Nat) : Frame K ps s (goOn t b c) := h.setCore hp _ _

theorem Frame.holdBolt (h : Frame K ps s t) (hc : Part.cores ∈ ps) (he : Part.entries ∈ ps) (e : Entry) (b : Bolt) (cs : List Nat) :
    Frame K ps s (holdBolt t e b cs) := by
  unfold Machine.holdBolt
  exact Frame.ite (fun _ => h) fun _ => Frame.foldl _ _ (h.updEntry he _ _ _) fun c _ u hu => hu.askStop hc c

theorem Frame.releaseBolt (h : Frame K ps s t) (hc : Part.cores ∈ ps) (he : Part.entries ∈ ps) (e : Entry) (b : Bolt) :
    Frame K ps s (releaseBolt t e b) := by
  have hgo := fun cs : List Nat => Frame.foldl (fun u c => Machine.goOn u b c) cs h fun c _ u hu => hu.goOn hc b c
  unfold Machine.releaseBolt
  exact Frame.ite (fun _ => hgo _) fun _ => (hgo _).updEntry he _ _ _

theorem Frame.releaseHeld (h : Frame K ps s t) (hc : Part.cores ∈ ps) (he : Part.entries ∈ ps) : Frame K ps s (releaseHeld t) := by
  refine Frame.foldl _ _ h fun e _ u hu => ?_
  split
  · exact hu
  · split
    · exact Frame.ite (fun _ => hu.releaseBolt hc he _ _) fun _ => hu
    · exact hu

-- ## Parks and pauses

/-- The parts that holding and releasing bolts may change: the loom's record, its entries and its cores. -/
def holdParts : List Part := [.looms, .entries, .cores]

variable (hk : ∀ l, K (loomKey l 0x4A8)) (hp : ∀ p, p ∈ holdParts → p ∈ ps)

include hk hp

theorem Frame.updPark (h : Frame K ps s t) (l r : Nat) (q : Word32) (f : Park → Option Park) : Frame K ps s (updPark t l r q f) :=
  (h.setLoom (hp _ (by simp [holdParts])) _ _).wrF (hk l) _ _ _

theorem Frame.beginPark (h : Frame K ps s t) (l : Nat) (e : Entry) (b : Bolt) (why : ParkWhy) (asker : Nat) :
    Frame K ps s (beginPark t l e b why asker) := by
  unfold Machine.beginPark
  refine Frame.foldl _ _ (Frame.updEntry ?_ (hp _ (by simp [holdParts])) _ _ _) fun c _ u hu => hu.askStop (hp _ (by simp [holdParts])) c
  exact (h.setLoom (hp _ (by simp [holdParts])) _ _).wrF (hk l) _ _ _

theorem Frame.askPark (h : Frame K ps s t) (l : Nat) (e : Entry) (why : ParkWhy) : Frame K ps s (askPark t l e why) := by
  unfold Machine.askPark
  split
  · exact h.updPark hk hp _ _ _ _
  · exact Frame.ite (fun _ => h.beginPark hk hp _ _ _ _ _) fun _ => h
  · exact h

theorem Frame.parkStep (h : Frame K ps s t) (l : Nat) (why : ParkWhy) : Frame K ps s (parkStep t l why) := by
  unfold Machine.parkStep
  refine Frame.ite (fun _ => h) fun _ => ?_
  split
  · exact h.askPark hk hp _ _ _
  · exact h

theorem Frame.holdLoom (h : Frame K ps s t) (l : Nat) : Frame K ps s (holdLoom t l) :=
  Frame.foldl _ _ (h.parkStep hk hp l .pause) fun _ _ _ hu => hu.holdBolt (hp _ (by simp [holdParts])) (hp _ (by simp [holdParts])) _ _ _

theorem Frame.applyPause (h : Frame K ps s t) (l : Nat) : Frame K ps s (applyPause t l) := by
  unfold Machine.applyPause
  exact Frame.ite (fun _ => h) fun _ => (h.setLoom (hp _ (by simp [holdParts])) _ _).holdLoom hk hp l

omit hk in
theorem Frame.liftPauses (h : Frame K ps s t) : Frame K ps s (liftPauses t) := by
  unfold Machine.liftPauses
  refine Frame.ite (fun _ => h) fun _ => Frame.releaseHeld ?_ (hp _ (by simp [holdParts])) (hp _ (by simp [holdParts]))
  exact Frame.foldl _ _ h fun l _ u hu => Frame.ite (fun _ => hu.setLoom (hp _ (by simp [holdParts])) _ _) fun _ => hu

end Frames

-- ## Commands inside their frame

/-- An effect that keeps the fuses, the timestamp and the queue is the whole command. -/
theorem keep_of_frame {K : Nat → Prop} {ps : List Part} {s t : State} (h : Frame K ps s t) : keep s t = t := by
  unfold keep
  rw [← h.fuse, ← h.time, ← h.pending]

/-- While every staging area has room, no producer waits (R223). -/
theorem overfull_of_eventsOpen {s : State} (h : eventsOpen s) (t : State) : overfull s t = false := by
  unfold overfull
  rw [List.any_eq_false]
  intro p _
  have := h p.1
  simp only [Bool.and_eq_true, decide_eq_true_eq, not_and]
  omega

theorem posting_of_eventsOpen {s : State} (h : eventsOpen s) (f : State → State) : posting f s = f s := by
  unfold posting
  rw [overfull_of_eventsOpen h]
  rfl

/-- A row whose conditions do not hold changes nothing (log entry 2). -/
theorem effect_of_fixed {f : State → State} {s : State} (h : f s = s) : effect f s = .next s := by
  rw [effect_eq, h, keep_of_frame (Frame.refl (K := noReg) (ps := []) s)]

theorem posting_of_fixed {f : State → State} {s : State} (h : f s = s) : posting f s = s := by
  unfold posting
  rw [h, ite_self]

-- ## Events to looms

/-- The event that a loom is handed at this moment (R223). -/
def eventNow (s : State) (l typ srcT srcI : Nat) (i0 i1 : Word64) : Event :=
  { type := BitVec.ofNat 16 typ, loom := l, srcType := BitVec.ofNat 16 srcT, srcInst := BitVec.ofNat 16 srcI, time := s.time, info0 := i0, info1 := i1 }

section Events

variable {s : State} {l typ srcT srcI : Nat} {i0 i1 : Word64}

theorem eventNow_time : (eventNow s l typ srcT srcI i0 i1).time = s.time := rfl

theorem eventNow_mem_produce (h : loomSt s l ≠ 0) :
    eventNow s l typ srcT srcI i0 i1 ∈ tget [] (produce s l typ srcT srcI i0 i1).produced l := by
  simp [produce, h, eventNow]

/-- An event handed over stays handed over. -/
theorem mem_produce_of_mem {e : Event} {m : Nat} (h : e ∈ tget [] s.produced m) :
    e ∈ tget [] (produce s l typ srcT srcI i0 i1).produced m := by
  unfold produce
  split
  · exact h
  · by_cases hm : m = l
    · subst hm
      simp [h]
    · simpa [tget_tput_of_ne _ _ _ _ _ hm] using h

theorem mem_produceAll_of_mem {e : Event} {m : Nat} (ls : List Nat) (h : e ∈ tget [] s.produced m) :
    e ∈ tget [] (produceAll s ls typ srcT srcI i0 i1).produced m := by
  unfold produceAll
  induction ls generalizing s with
  | nil => exact h
  | cons x r ih => exact ih (mem_produce_of_mem h)

/-- Every loom of the list that is not DESTROYED is handed the event. -/
theorem eventNow_mem_produceAll (ls : List Nat) (hl : l ∈ ls) (h : loomSt s l ≠ 0) :
    eventNow s l typ srcT srcI i0 i1 ∈ tget [] (produceAll s ls typ srcT srcI i0 i1).produced l := by
  unfold produceAll
  induction ls generalizing s with
  | nil => cases hl
  | cons x r ih =>
    have hx : Frame noReg [.produced] s (produce s x typ srcT srcI i0 i1) := (Frame.refl s).produce (by simp) _ _ _ _ _ _
    rcases List.mem_cons.mp hl with rfl | hr
    · exact mem_produceAll_of_mem r (eventNow_mem_produce h)
    · have hst : loomSt (produce s x typ srcT srcI i0 i1) l ≠ 0 := by
        unfold loomSt rdF at h ⊢
        rwa [hx.regs _ (fun hn => hn)]
      have hmem := ih hr hst
      unfold eventNow at hmem ⊢
      rwa [hx.time] at hmem

end Events

-- ## A new level in force (R392)

/-- The registers that follow the level: the stacks' and codec channels' status, PARK_STATE of the looms and the regions' operating points. -/
def followRegs : Nat → Prop := fun k =>
  (∃ x, k = drcKey x 0x100) ∨ (∃ x, k = codecKey x 0x100) ∨ (∃ x, k = loomKey x 0x4A8) ∨ ∃ x, k = regionKey x 0x104

theorem not_followRegs_pcmKey {o : Nat} (h : o < 0x1000) : ¬ followRegs (pcmKey o) := by
  rintro (⟨x, hx⟩ | ⟨x, hx⟩ | ⟨x, hx⟩ | ⟨x, hx⟩)
  · simp only [pcmKey, drcKey] at hx; omega
  · simp only [pcmKey, codecKey] at hx; omega
  · simp only [pcmKey, loomKey] at hx; omega
  · simp only [pcmKey, regionKey] at hx; omega

theorem not_followRegs_loomState (l : Nat) : ¬ followRegs (loomKey l 0x108) := by
  rintro (⟨x, hx⟩ | ⟨x, hx⟩ | ⟨x, hx⟩ | ⟨x, hx⟩)
  · simp only [loomKey, drcKey] at hx; omega
  · simp only [loomKey, codecKey] at hx; omega
  · simp only [loomKey] at hx; omega
  · simp only [loomKey, regionKey] at hx; omega

/-- The state with LEVEL set and no fall under way. -/
def markLevel (s : State) (v : Nat) : State :=
  let s1 := wrF s (pcmKey 0x110) 2 0 v
  { s1 with power := { s1.power with belowSince := none } }

/-- Caps, pauses and ceilings as the level in force asks for them (R295, R372, R390). -/
def followLevel (s : State) : State := reeval (liftPauses ((List.range 32).foldl applyPause (syncCodecs (syncCaps s))))

theorem setLevel_eq (s : State) (v : Nat) :
    setLevel s v =
      (let t := followLevel (markLevel s v)
       syncDemand (produceAll t (liveLooms t) 0x0070 0x011 0 (BitVec.ofNat 64 v) (BitVec.ofNat 64 (causeBits t)))) := rfl

theorem markLevel_frame (s : State) (v : Nat) : Frame (someRegs [pcmKey 0x110]) [.power] s (markLevel s v) :=
  ((Frame.refl s).wrF (by simp [someRegs]) _ _ _).set_power (by simp) _

theorem followLevel_frame (s : State) : Frame followRegs holdParts s (followLevel s) := by
  have hcaps : Frame followRegs holdParts s (syncCaps s) := Frame.foldl _ _ (Frame.refl s) fun st _ u hu => hu.wrB (.inl ⟨st, rfl⟩) _ _
  have hcodecs : Frame followRegs holdParts s (syncCodecs (syncCaps s)) := Frame.foldl _ _ hcaps fun n _ u hu => hu.wrB (.inr (.inl ⟨n, rfl⟩)) _ _
  have hpauses := Frame.foldl applyPause (List.range 32) hcodecs fun l _ u hu =>
    hu.applyPause (fun x => .inr (.inr (.inl ⟨x, rfl⟩))) (fun _ hp => hp) l
  exact (hpauses.liftPauses fun _ hp => hp).reeval fun r _ => .inr (.inr (.inr ⟨r, rfl⟩))

/-- The registers a new level may change. -/
def levelRegs : Nat → Prop := fun k => k = pcmKey 0x110 ∨ followRegs k

theorem not_levelRegs_riseCount : ¬ levelRegs (pcmKey 0x11C) :=
  not_or.mpr ⟨by decide, not_followRegs_pcmKey (by omega)⟩

/-- The parts a new level may change. -/
def levelParts : List Part := [.power, .looms, .entries, .cores, .produced]

theorem setLevel_frame (s : State) (v : Nat) : Frame levelRegs levelParts s (setLevel s v) := by
  have hmark : Frame levelRegs levelParts s (markLevel s v) :=
    (markLevel_frame s v).mono (fun k hk => .inl (by simpa [someRegs] using hk)) (by simp [levelParts])
  have hfollow : Frame levelRegs levelParts (markLevel s v) (followLevel (markLevel s v)) :=
    (followLevel_frame _).mono (fun k hk => .inr hk) (by simp [holdParts, levelParts])
  rw [setLevel_eq]
  exact ((hmark.trans hfollow).produceAll (by simp [levelParts]) _ _ _ _ _ _).syncDemand (.inl rfl) (by simp [levelParts])

@[simp] theorem syncDemand_produced (s : State) : (syncDemand s).produced = s.produced := rfl
@[simp] theorem syncDemand_riseAt (s : State) : (syncDemand s).power.riseAt = s.power.riseAt := rfl
@[simp] theorem shedLevel_syncDemand (s : State) : shedLevel (syncDemand s) = shedLevel s := syncDemand_level s

/-- The level set is the level in force. -/
theorem shedLevel_setLevel (s : State) (v : Nat) (hv : v < 8) : shedLevel (setLevel s v) = v := by
  have hmark : shedLevel (markLevel s v) = v := (rdF_wrF_self s (pcmKey 0x110) 2 0 v (by omega) (by omega)).trans (Nat.mod_eq_of_lt hv)
  have hposts : ∀ (u : State) (ls : List Nat) (i0 i1 : Word64), shedLevel (produceAll u ls 0x0070 0x011 0 i0 i1) = shedLevel u := by
    intro u ls i0 i1
    unfold shedLevel rdF
    rw [((Frame.refl u).produceAll (K := noReg) (ps := [.produced]) (by simp) _ _ _ _ _ _).regs _ fun hn => hn]
  have hfollow : shedLevel (followLevel (markLevel s v)) = shedLevel (markLevel s v) := by
    unfold shedLevel rdF
    rw [(followLevel_frame _).regs _ (not_followRegs_pcmKey (by omega))]
  rw [setLevel_eq, shedLevel_syncDemand, hposts, hfollow, hmark]

/-- The time of the last rise is the rise's own to set. -/
theorem riseAt_setLevel (s : State) (v : Nat) : (setLevel s v).power.riseAt = s.power.riseAt := by
  have hfollow : Frame followRegs (.produced :: holdParts) (markLevel s v) (followLevel (markLevel s v)) :=
    (followLevel_frame _).mono (fun _ hk => hk) fun _ hp => List.mem_cons_of_mem _ hp
  have hpower : ∀ ls i0 i1, (produceAll (followLevel (markLevel s v)) ls 0x0070 0x011 0 i0 i1).power = (markLevel s v).power :=
    fun ls i0 i1 => (hfollow.produceAll (by simp) ls 0x0070 0x011 0 i0 i1).parts .power (by simp [holdParts])
  rw [setLevel_eq, syncDemand_riseAt, hpower]
  rfl

/-- Every loom that is not DESTROYED gets the SHED_LEVEL event with the new level (R395). -/
theorem setLevel_tells (s : State) (v l : Nat) (hl : l < 32) (hst : loomSt s l ≠ 0) :
    ∃ e ∈ tget [] (setLevel s v).produced l, e.type = 0x70 ∧ e.info0 = BitVec.ofNat 64 v ∧ e.time = s.time := by
  have hmark := markLevel_frame s v
  have hfollow := followLevel_frame (markLevel s v)
  have hst' : loomSt (followLevel (markLevel s v)) l ≠ 0 := by
    unfold loomSt rdF at hst ⊢
    rwa [hfollow.regs _ (not_followRegs_loomState l), hmark.regs _ (by simp [someRegs, loomKey, pcmKey]; omega)]
  have hlive : l ∈ liveLooms (followLevel (markLevel s v)) := by simp [liveLooms, hl, hst']
  rw [setLevel_eq, syncDemand_produced]
  exact ⟨_, eventNow_mem_produceAll _ hlive hst', rfl, rfl, eventNow_time.trans (hfollow.time.trans hmark.time)⟩

-- ## The rows of the shedding level

/-- A level demanded by software (R391). -/
def demandLevel (s : State) (v : Nat) : State := syncDemand (wrF s (pcmKey 0x10C) 2 0 v)

theorem demandLevel_frame (s : State) (v : Nat) : Frame (someRegs [pcmKey 0x10C, pcmKey 0x110]) [.power] s (demandLevel s v) :=
  ((Frame.refl s).wrF (by simp [someRegs]) _ _ _).syncDemand (by simp [someRegs]) (by simp)

/-- PCM_SHED_REQ takes a level 0 to 5 (R391). -/
theorem exec_pcmShedReqWrite (s : State) (v : BitVec 3) (hv : v.toNat ≤ 5) : exec (.pcmShedReqWrite v) s = .next (demandLevel s v.toNat) := by
  have hreq : opShedReq s v.toNat = demandLevel s v.toNat := if_neg (by omega)
  show effect (fun u => opShedReq u v.toNat) s = _
  rw [effect_eq, hreq, keep_of_frame (demandLevel_frame s _)]

/-- Reserved levels are refused (R9). -/
theorem exec_pcmShedReqWrite_reserved (s : State) (v : BitVec 3) (hv : 5 < v.toNat) : exec (.pcmShedReqWrite v) s = .next s :=
   effect_of_fixed (f := fun u => opShedReq u v.toNat) (if_pos hv)

/-- What a level demanded by software shows, the level in force apart (R391, R396). -/
theorem demandLevel_shown (s : State) (v : Nat) (hv : v ≤ 5) :
    rdF (demandLevel s v) (pcmKey 0x10C) 2 0 = v ∧ v ≤ rdF (demandLevel s v) (pcmKey 0x110) 5 3 ∧
    fbit (rd (demandLevel s v) (pcmKey 0x110)) 13 = decide (v ≠ 0) ∧ shedLevel (demandLevel s v) = shedLevel s := by
  have hreq : rdF (wrF s (pcmKey 0x10C) 2 0 v) (pcmKey 0x10C) 2 0 = v :=
    (rdF_wrF_self s (pcmKey 0x10C) 2 0 v (by omega) (by omega)).trans (Nat.mod_eq_of_lt (by omega))
  have hdemand : (demands (wrF s (pcmKey 0x10C) 2 0 v)).getD 5 0 = v := hreq
  have hmem : v ∈ demands (wrF s (pcmKey 0x10C) 2 0 v) := by simp [demands, hreq]
  unfold demandLevel
  refine ⟨?_, ?_, ?_, ?_⟩
  · unfold rdF at hreq ⊢
    rwa [rd_syncDemand_of_ne _ _ (by decide)]
  · rw [syncDemand_demand]
    exact le_demandNow _ _ hmem
  · rw [show 13 = 8 + 5 from rfl, syncDemand_cause _ 5 (by omega), hdemand]
  · rw [shedLevel_syncDemand]
    exact rdF_wrF_of_ne s _ _ _ _ _ _ _ (by decide)

/-- The registers that a change of the level may change, RISE count among them. -/
def shedRegs : Nat → Prop := fun k =>
  k ∈ [pcmKey 0x110, pcmKey 0x11C] ∨ (∃ x, k = drcKey x 0x100) ∨ (∃ x, k = codecKey x 0x100) ∨ (∃ x, k = loomKey x 0x4A8) ∨
    ∃ x, k = regionKey x 0x104

theorem shedRegs_of_levelRegs {k : Nat} (h : levelRegs k) : shedRegs k := h.imp (fun e => by simp [e]) id

/-- The state in which a rise sets the level: its time and count noted (R395). -/
def noteRise (s : State) : State := addCnt { s with power := { s.power with riseAt := s.time } } (pcmKey 0x11C) 1

theorem noteRise_frame (s : State) : Frame (someRegs [pcmKey 0x11C]) [.power] s (noteRise s) :=
  ((Frame.refl s).set_power (by simp) _).addCnt (by simp [someRegs]) 1

/-- What SHED_LEVEL_RISE does (R392). -/
def riseLevel (s : State) : State := if demandNow s ≤ shedLevel s then s else setLevel (noteRise s) (demandNow s)

theorem exec_shedLevelRise_eq (s : State) : exec .shedLevelRise s = effect (posting riseLevel) s := rfl

theorem riseLevel_frame (s : State) : Frame shedRegs levelParts s (setLevel (noteRise s) (demandNow s)) := by
  have hnote : Frame shedRegs levelParts s (noteRise s) :=
    (noteRise_frame s).mono (fun k hk => .inl (by simp only [someRegs, List.mem_singleton] at hk; simp [hk])) (by simp [levelParts])
  exact hnote.trans ((setLevel_frame (noteRise s) (demandNow s)).mono (fun _ => shedRegs_of_levelRegs) fun _ hp => hp)

theorem exec_shedLevelRise_of_lt {s : State} (ho : eventsOpen s) (h : shedLevel s < demandNow s) :
    exec .shedLevelRise s = .next (setLevel (noteRise s) (demandNow s)) := by
  rw [exec_shedLevelRise_eq, effect_eq, posting_of_eventsOpen ho, riseLevel, if_neg (Nat.not_le.mpr h), keep_of_frame (riseLevel_frame s)]

theorem exec_shedLevelRise_of_le {s : State} (h : demandNow s ≤ shedLevel s) : exec .shedLevelRise s = .next s :=
  effect_of_fixed (posting_of_fixed (if_pos h))

/-- A rise is counted (R395). -/
theorem rd_riseCount_setLevel (s : State) (v : Nat) : rd (setLevel (noteRise s) v) (pcmKey 0x11C) = rd s (pcmKey 0x11C) + 1 := by
  rw [(setLevel_frame _ _).regs _ not_levelRegs_riseCount, noteRise, rd_addCnt_self]
  rfl

theorem loomSt_noteRise (s : State) (l : Nat) : loomSt (noteRise s) l = loomSt s l := by
  unfold loomSt rdF
  rw [(noteRise_frame s).regs _ (by simp only [someRegs, List.mem_singleton, loomKey, pcmKey]; omega)]

/-- The level may fall, every demand having been below it since `b`: for 195,313 ticks, and at S5 once S5 has been reached (R392, R394). -/
abbrev fallDue (s : State) (b : Word64) : Prop :=
  demandNow s < shedLevel s ∧ 195313 ≤ (s.time - b).toNat ∧ (shedLevel s < 5 ∨ s.power.s5 = true)

/-- What SHED_LEVEL_FALL does (R392, R394). -/
def fallLevel (s : State) : State :=
  match s.power.belowSince with
  | none => s
  | some b => if fallDue s b then setLevel s (demandNow s) else s

theorem exec_shedLevelFall_eq (s : State) : exec .shedLevelFall s = effect (posting fallLevel) s := rfl

theorem fallLevel_some {s : State} {b : Word64} (hb : s.power.belowSince = some b) :
    fallLevel s = if fallDue s b then setLevel s (demandNow s) else s := by
  unfold fallLevel
  rw [hb]

/-- The level stays before the 195,313 ticks are over, while some demand reaches it, and at S5 before S5 is reached (R392, R394). -/
theorem exec_shedLevelFall_of_held {s : State}
    (h : ∀ b, s.power.belowSince = some b →
      ¬ fallDue s b) :
    exec .shedLevelFall s = .next s := by
  refine effect_of_fixed (f := posting fallLevel) (posting_of_fixed ?_)
  cases hb : s.power.belowSince with
  | none => unfold fallLevel; rw [hb]
  | some b => rw [fallLevel_some hb, if_neg (h b hb)]

theorem exec_shedLevelFall_of_due {s : State} {b : Word64} (ho : eventsOpen s) (hb : s.power.belowSince = some b)
    (h : fallDue s b) :
    exec .shedLevelFall s = .next (setLevel s (demandNow s)) := by
  rw [exec_shedLevelFall_eq, effect_eq, posting_of_eventsOpen ho, fallLevel_some hb, if_pos h, keep_of_frame (setLevel_frame s _)]

/-- Settles O2: the demand of software shows in PCM_SHED_STAT, and both rows of the level set it to the highest demand, or do nothing. -/
theorem sheddingLevels : Obligations.SheddingLevels := by
  refine ⟨fun s v => ⟨fun hv => ?_, exec_pcmShedReqWrite_reserved s v⟩,
    fun s => ⟨fun ho h => ?_, exec_shedLevelRise_of_le, fun ho b hb hticks hlt hs5 => ?_, fun b hb hticks => ?_, fun hheld => ?_⟩⟩
  · obtain ⟨hreq, hdemand, hcause, hlevel⟩ := demandLevel_shown s v.toNat hv
    exact ⟨_, exec_pcmShedReqWrite s v hv, hreq, hdemand, hcause, hlevel, demandLevel_frame s _⟩
  · have htold := fun l hl (hst : loomSt s l ≠ 0) => setLevel_tells (noteRise s) (demandNow s) l hl (by rwa [loomSt_noteRise])
    exact ⟨_, exec_shedLevelRise_of_lt ho h, shedLevel_setLevel _ _ (demandNow_lt s), rd_riseCount_setLevel s _, riseAt_setLevel _ _, htold,
      riseLevel_frame s⟩
  · have hframe := setLevel_frame s (demandNow s)
    exact ⟨_, exec_shedLevelFall_of_due ho hb ⟨hlt, hticks, hs5⟩, shedLevel_setLevel _ _ (demandNow_lt s), hframe.regs _ not_levelRegs_riseCount,
      setLevel_tells s _, hframe.mono (fun _ => shedRegs_of_levelRegs) fun _ hp => hp⟩
  · refine exec_shedLevelFall_of_held fun c hc => ?_
    obtain rfl : b = c := Option.some.inj (hb.symm.trans hc)
    omega
  · refine exec_shedLevelFall_of_held fun b hb => ?_
    rintro ⟨hlt, -, hs5⟩
    rcases hheld with hnone | hle | ⟨h5, hoff⟩
    · simp [hb] at hnone
    · omega
    · rcases hs5 with h | h
      · omega
      · simp [hoff] at h

end Sys2Proof.Machine

/-! Register accesses (R4, R8, R432-R436): where an access lands, what a write of each kind does, and what a read masks. -/

namespace Sys2Proof.Machine

-- ## The placing of the pages (R437)

section Pages

variable {n : Nat} {b : Block}

/-- A block, if any, whose page begins at `n`. -/
def beginsAt (n : Nat) (o : Option Block) : Prop := ∀ b, o = some b → pageOf b = n

theorem beginsAt_none : beginsAt n none := fun _ h => nomatch h

theorem beginsAt_some (h : pageOf b = n) : beginsAt n (some b) := fun _ hb => Option.some.inj hb ▸ h

theorem beginsAt_ite {c : Prop} [Decidable c] {x y : Option Block} (hy : beginsAt n y) (hx : c → beginsAt n x) :
    beginsAt n (if c then x else y) := by
  by_cases h : c
  · rw [if_pos h]; exact hx h
  · rwa [if_neg h]

theorem beginsAt_dite {c : Prop} [Decidable c] {x : c → Option Block} {y : Option Block} (hy : beginsAt n y) (hx : ∀ h, beginsAt n (x h)) :
    beginsAt n (if h : c then x h else y) := by
  by_cases h : c
  · rw [dif_pos h]; exact hx h
  · rwa [dif_neg h]

end Pages

/-- The block that an offset reaches has the page in which the offset lies. -/
theorem blockAt_beginsAt (off : Nat) : beginsAt (off / 0x1000 * 0x1000) (blockAt off) := by
  unfold blockAt
  iterate 11 refine beginsAt_ite ?_ fun hp => beginsAt_some ?_
  refine beginsAt_dite ?_ fun hp => beginsAt_some ?_
  refine beginsAt_dite ?_ fun hp => beginsAt_ite (beginsAt_ite beginsAt_none fun hr => beginsAt_some ?_) fun hr => beginsAt_some ?_
  refine beginsAt_dite ?_ fun hp => beginsAt_ite beginsAt_none fun hr => beginsAt_some ?_
  refine beginsAt_ite ?_ fun hp => beginsAt_some ?_
  refine beginsAt_dite ?_ fun hp => beginsAt_ite beginsAt_none fun hr => beginsAt_some ?_
  refine beginsAt_ite ?_ fun hp => beginsAt_some ?_
  refine beginsAt_dite ?_ fun hp => beginsAt_some ?_
  refine beginsAt_dite ?_ fun hp => beginsAt_some ?_
  refine beginsAt_ite beginsAt_none fun hp => beginsAt_some ?_
  all_goals
    simp only [pageOf]
    omega

/-- An offset is its page and its place there. -/
theorem pageOf_add_mod {off : Nat} {b : Block} (h : blockAt off = some b) : pageOf b + off % 0x1000 = off := by
  have := blockAt_beginsAt off b h
  omega

-- ## Accesses refused (R432, R433)

/-- What a refused access leaves (R444): its count, and its record unless CHIP_ACC_ERR holds one. -/
theorem accRefuse_records (s : State) (off kind : Nat) (h : off < 2 ^ 26) :
    rd (accRefuse s off kind) 0x10C = rd s 0x10C + 1 ∧
    rd (accRefuse s off kind) 0x108 = (if fbit (rd s 0x108) 31 then rd s 0x108 else BitVec.ofNat 32 (off + kind * 2 ^ 26 + 2 ^ 31)) ∧
    Frame (someRegs [0x108, 0x10C]) [] s (accRefuse s off kind) := by
  have hframe : Frame (someRegs [0x108, 0x10C]) [] s (accRefuse s off kind) :=
    (Frame.refl s).accRefuse off kind (by simp [someRegs]) (by simp [someRegs])
  refine ⟨?_, ?_, hframe⟩
  · unfold accRefuse
    rw [rd_addCnt_self]
    split
    · rfl
    · rw [rd_wr_of_ne _ _ _ _ (by decide)]
      rfl
  · unfold accRefuse
    rw [rd_addCnt_of_ne _ _ _ _ (by decide), Nat.mod_eq_of_lt h]
    split
    · rfl
    · exact rd_wr_self _ _ _

/-- A command that is a refused access. -/
theorem effect_of_accRefuse {f : State → State} {s : State} {off kind : Nat} (h : f s = accRefuse s off kind) :
    effect f s = .next (accRefuse s off kind) := by
  rw [effect_eq, h, keep_of_frame ((Frame.refl s).accRefuse (K := someRegs [0x108, 0x10C]) (ps := []) off kind (by simp [someRegs]) (by simp [someRegs]))]

-- ## What a read masks (R8)

/-- A bit outside every readable field is no bit of the read mask. -/
theorem getLsbD_readMask_outside {fs : List RField} {i : Nat} (hb : ∀ f ∈ fs, f.lo ≤ f.hi ∧ f.hi < 32)
    (h : ∀ f ∈ fs, f.acc = .wo ∨ i < f.lo ∨ f.hi < i) : (readMask fs).getLsbD i = false := by
  have hfold : ∀ (gs : List RField) (m : Word32), (∀ f ∈ gs, f ∈ fs) → m.getLsbD i = false →
      (gs.foldl (fun m f => if f.acc = .wo then m else m ||| fmask f.hi f.lo) m).getLsbD i = false := by
    intro gs
    induction gs with
    | nil => exact fun m _ hm => hm
    | cons f r ih =>
      intro m hsub hm
      refine ih _ (fun g hg => hsub g (by simp [hg])) ?_
      have hf := hsub f (by simp)
      obtain ⟨hl, hlt⟩ := hb f hf
      show (if f.acc = .wo then m else m ||| fmask f.hi f.lo).getLsbD i = false
      split
      · exact hm
      · have hout := (h f hf).resolve_left ‹_›
        rw [BitVec.getLsbD_or, hm, getLsbD_fmask f.hi f.lo i hlt hl]
        rcases hout with hlo | hhi
        · simp [Nat.not_le.mpr hlo]
        · simp [Nat.not_le.mpr hhi]
  exact hfold fs 0 (fun _ hf => hf) (by simp)

/-- The register value behind a read, before its write-only and reserved bits are masked (R4, R433, R435). -/
def readValue (s : State) (b : Block) (off : Nat) : Word32 :=
  let o := off % 0x1000
  let rst := (blkOf s (pageOf b)).resetting
  if o = 0x04 then blkCap b
  else if o = 0x0C then
    BitVec.ofNat 32 (1 + (if rst then 4 else 2 * b2n (decide (rd s (pageOf b + 0x10) ≠ 0)) + 8 * b2n (pageLocked s off)))
  else if rst && decide (o ≠ 0x2C) then resetVal s off
  else if o < 0x100 then rd s off
  else ownRead s b o

/-- A read of a register beside BLK_ID: 0 on a disabled core's page, else the value under the register's read mask. -/
theorem regRead_eq {s : State} {off : Nat} {fs : List RField} {b : Block} (hfs : fieldsAt off = some fs) (hb : blockAt off = some b)
    (ho : off % 0x1000 ≠ 0) : regRead s off = if deadPage s b then 0 else readValue s b off &&& readMask fs := by
  unfold regRead
  rw [hfs, hb]
  exact if_neg ho

theorem regRead_masked {s : State} {off : Nat} {fs : List RField} {b : Block} (hfs : fieldsAt off = some fs) (hb : blockAt off = some b)
    (ho : off % 0x1000 ≠ 0) {i : Nat} (hi : ∀ f ∈ fs, f.acc = .wo ∨ i < f.lo ∨ f.hi < i) : fbit (regRead s off) i = false := by
  have hmask := getLsbD_readMask_outside (fun f hf => fieldsApart_bounds (fieldsAt_apart hfs) hf) hi
  rw [regRead_eq hfs hb ho]
  split
  · simp [fbit]
  · unfold fbit
    rw [BitVec.getLsbD_and, hmask, Bool.and_false]

theorem regRead_disabled_core {s : State} {off : Nat} {fs : List RField} {c : CoreId} (hfs : fieldsAt off = some fs)
    (hb : blockAt off = some (.core c)) (ho : off % 0x1000 ≠ 0) (hc : coreEnabled s c = false) : regRead s off = 0 := by
  rw [regRead_eq hfs hb ho, if_pos (by simp [deadPage, hc])]

-- ## Writes

section Writes

variable {s : State} {off : Nat} {b : Block} {fs : List RField}

theorem registerWrite_of_link_down (h : s.boot.pcieUp = false) (x : BarTarget) (off : Nat) (w : AccWidth) (v : Word64) :
    registerWrite x off w v s = s := by
  unfold registerWrite
  simp [h]

theorem registerWrite_bar0_w32 (hup : s.boot.pcieUp = true) (ha : off % 4 = 0) (v : Word64) :
    registerWrite .bar0 off .w32 v s = bar0Write s off (v.setWidth 32) := by
  simp [registerWrite, hup, ha]

theorem registerWrite_bar0_w64 (hup : s.boot.pcieUp = true) (ha : off % 4 = 0) (v : Word64) :
    registerWrite .bar0 off .w64 v s = bar0Write (bar0Write s off (v.setWidth 32)) (off + 4) (v.extractLsb' 32 32) := by
  simp [registerWrite, hup, ha]

theorem registerWrite_bar2_w32 (hup : s.boot.pcieUp = true) (ha : off % 4 = 0) (fn : FnId) (v : Word64) :
    registerWrite (.bar2 fn) off .w32 v s = bar2Write s fn off (v.setWidth 32) := by
  simp [registerWrite, hup, ha]

/-- An access of 8 or 16 bits is refused (R432). -/
theorem registerWrite_bar0_narrow (hup : s.boot.pcieUp = true) {w : AccWidth} (hw : w = .w8 ∨ w = .w16) (v : Word64) :
    registerWrite .bar0 off w v s = accRefuse s off 1 := by
  rcases hw with rfl | rfl <;> simp [registerWrite, hup]

/-- A misaligned access is refused (R432). -/
theorem registerWrite_bar0_misaligned (hup : s.boot.pcieUp = true) {w : AccWidth} (hw : w = .w32 ∨ w = .w64) (ha : off % 4 ≠ 0) (v : Word64) :
    registerWrite .bar0 off w v s = accRefuse s off 3 := by
  rcases hw with rfl | rfl <;> simp [registerWrite, hup, ha]

/-- A write that reaches a page which takes it (R433, R435). -/
theorem bar0Write_of_open (hm : off < 0x310000 ∨ 0x318100 ≤ off) (hb : blockAt off = some b) (hf : fieldsAt off = some fs)
    (hdead : deadPage s b = false) (hsleep : asleep s (pageOf b) = false) (hreset : (blkOf s (pageOf b)).resetting = false) (v : Word32) :
    bar0Write s off v = pageWrite s b (off % 0x1000) v := by
  unfold bar0Write
  rw [if_neg (by omega), hb]
  simp [hdead, hf, hsleep, hreset]

theorem pageWrite_own {o : Nat} (ho : 0x100 ≤ o) (v : Word32) : pageWrite s b o v = ownWrite s b o v := by
  unfold pageWrite
  rw [if_neg (by omega), if_neg (by omega), if_neg (by omega), if_neg (by omega)]

/-- A write to a disabled core's page is refused (R4). -/
theorem bar0Write_of_disabled_core {c : CoreId} (hb : blockAt off = some (.core c)) (ho : off % 0x1000 ≠ 0) (hc : coreEnabled s c = false) (v : Word32) :
    bar0Write s off v = accRefuse s off 0 := by
  have hpage : 0x400000 + c.val * 0x1000 + off % 0x1000 = off := pageOf_add_mod hb
  unfold bar0Write
  rw [if_neg (by omega), hb]
  simp [deadPage, hc, ho]

/-- Every page has BLK_ID at its start (R442). -/
theorem fieldsAt_page_start (h : off < 0x4000000) (hb : blockAt off = some b) (ho : off % 0x1000 = 0) : fieldsAt off ≠ none := by
  unfold fieldsAt
  split
  · simp
  split
  · simp
  rw [if_pos (show off < bar2Key from h), hb]
  simp only [ho]
  exact Option.some_ne_none _

/-- A write to a reserved offset is refused (R433). -/
theorem bar0Write_of_reserved (h : off < 0x4000000) (hf : fieldsAt off = none) (v : Word32) : bar0Write s off v = accRefuse s off 0 := by
  have hm : ¬ (0x310000 ≤ off ∧ off < 0x318100) := by
    intro hm
    unfold fieldsAt at hf
    by_cases hlt : off < 0x318000
    · simp [hm.1, hlt] at hf
    · simp [hm.2, hlt, Nat.not_lt.mp hlt] at hf
  unfold bar0Write
  rw [if_neg hm]
  cases hb : blockAt off with
  | none => rfl
  | some b =>
    have ho : off % 0x1000 ≠ 0 := fun ho => fieldsAt_page_start h hb ho hf
    simp [hf, ho]

/-- A doorbell page's register below 0x100 that is no doorbell is written by its access codes (R204). -/
theorem bar2Write_doorbell_page {fn : Nat} {l : LoomId} (hp : bar2Page s fn off = some (l, true)) (hopen : pagesOpen s fn l = true)
    (h0 : 0x10 ≤ off % 0x1000) (h1 : off % 0x1000 < 0x100) (hfn : fn = 0 ∨ off < 0x1000) (v : Word32) :
    bar2Write s fn off v = putReg s (dbPage l + off % 0x1000) v := by
  unfold bar2Write
  rw [if_neg (by omega), hp]
  simp only [hopen, Bool.not_true, Bool.false_eq_true, if_false, if_true]
  unfold doorbellPageWrite
  rw [if_neg (by omega), if_neg (by omega), if_neg (by omega)]

end Writes

-- ## LOCK and the device number

theorem lockable_open {s : State} {b : Block} (h : lockable b = true) : deadPage s b = false ∧ asleep s (pageOf b) = false := by
  cases b with
  | chip => exact ⟨rfl, by simp [asleep, gatedPage, pageOf]⟩
  | pcie => exact ⟨rfl, by simp [asleep, gatedPage, pageOf]⟩
  | _ => cases h

theorem exec_blkCtrlLock_eq (b : Block) (s : State) :
    exec (.blkCtrlLock b) s = effect (onBlock b 0x08 (onPage (pageOf b) 0x08 fun s => opLock s b)) s := rfl

/-- A write to a page that is reached, awake and under no reset does its effect. -/
theorem onBlock_onPage_of_open {s : State} {b : Block} (hdead : deadPage s b = false) (hsleep : asleep s (pageOf b) = false)
    (hreset : (blkOf s (pageOf b)).resetting = false) (o : Nat) (f : State → State) : onBlock b o (onPage (pageOf b) o f) s = f s := by
  simp [onBlock, onPage, hdead, hsleep, hreset]

/-- LOCK sets where it exists (R436). -/
theorem exec_blkCtrlLock_of_lockable {s : State} {b : Block} (h : lockable b = true) (hreset : (blkOf s (pageOf b)).resetting = false) :
    ∃ t, exec (.blkCtrlLock b) s = .next t ∧ fbit (rd t (pageOf b + 8)) 0 = true ∧ Frame (someRegs [pageOf b + 8]) [] s t := by
  obtain ⟨hdead, hsleep⟩ := lockable_open (s := s) h
  have hframe : Frame (someRegs [pageOf b + 8]) [] s (opLock s b) := by
    rw [opLock, if_pos h]
    exact (Frame.refl s).wrB (by simp [someRegs]) _ _
  refine ⟨opLock s b, ?_, ?_, hframe⟩
  · rw [exec_blkCtrlLock_eq, effect_eq, onBlock_onPage_of_open hdead hsleep hreset, keep_of_frame hframe]
  · rw [opLock, if_pos h]
    exact fbit_wrB_self _ _ _ _ (by omega)

/-- Elsewhere LOCK is reserved (R436). -/
theorem exec_blkCtrlLock_of_not_lockable {s : State} {b : Block} (h : lockable b = false) (hdead : deadPage s b = false)
    (hsleep : asleep s (pageOf b) = false) (hreset : (blkOf s (pageOf b)).resetting = false) : exec (.blkCtrlLock b) s = .next s := by
  rw [exec_blkCtrlLock_eq]
  refine effect_of_fixed ?_
  rw [onBlock_onPage_of_open hdead hsleep hreset, opLock, if_neg (by simp [h])]

theorem exec_blkCtrlLock_of_dead {s : State} {b : Block} (h : deadPage s b = true) : exec (.blkCtrlLock b) s = .next (accRefuse s (pageOf b + 8) 0) := by
  rw [exec_blkCtrlLock_eq]
  exact effect_of_accRefuse (if_pos h)

theorem pageOf_lt (b : Block) : pageOf b + 0x1000 ≤ 0x4000000 := by
  cases b <;> simp only [pageOf] <;> omega

theorem exec_tapDevIdValid_of_open {s : State} (h5 : s.power.s5 = false) (hreset : (blkOf s 0x200000).resetting = false) (dev : BitVec 14) :
    exec (.tapDevIdValid dev) s = effect (fun u => opDevId u dev.toNat true) s := by
  show effect (onPage 0x200000 0x100 fun u => opDevId u dev.toNat true) s = _
  rw [effect_eq, effect_eq]
  simp [onPage, asleep, h5, hreset]

/-- The device number comes into force (R309). -/
theorem exec_tapDevIdValid_of_free {s : State} (h5 : s.power.s5 = false) (hreset : (blkOf s 0x200000).resetting = false) (dev : BitVec 14)
    (hfree : devValid s = false) :
    ∃ t, exec (.tapDevIdValid dev) s = .next t ∧ ownDev t = dev.toNat ∧ devValid t = true ∧ Frame (someRegs [tapKey 0x100]) [] s t := by
  have hset : opDevId s dev.toNat true = wrB (wrF s (tapKey 0x100) 13 0 dev.toNat) (tapKey 0x100) 31 true := if_neg (by simp [hfree])
  have hframe : Frame (someRegs [tapKey 0x100]) [] s (opDevId s dev.toNat true) := by
    rw [hset]
    exact ((Frame.refl s).wrF (by simp [someRegs]) _ _ _).wrB (by simp [someRegs]) _ _
  refine ⟨opDevId s dev.toNat true, ?_, ?_, ?_, hframe⟩
  · rw [exec_tapDevIdValid_of_open h5 hreset, effect_eq, keep_of_frame hframe]
  · rw [hset]
    unfold ownDev wrB
    rw [rdF_wrF_apart _ _ _ _ _ _ _ (by omega) (by omega) (by omega), rdF_wrF_self _ _ _ _ _ (by omega) (by omega)]
    exact Nat.mod_eq_of_lt dev.isLt
  · rw [hset]
    exact fbit_wrB_self _ _ _ _ (by omega)

/-- A device number in force stays (R309). -/
theorem exec_tapDevIdValid_of_valid {s : State} (h5 : s.power.s5 = false) (hreset : (blkOf s 0x200000).resetting = false) (dev : BitVec 14)
    (hvalid : devValid s = true) : exec (.tapDevIdValid dev) s = .next s := by
  rw [exec_tapDevIdValid_of_open h5 hreset]
  exact effect_of_fixed (if_pos hvalid)

-- ## REGISTER_WRITE

theorem exec_registerWrite_eq (x : BarTarget) (off : BitVec 26) (w : AccWidth) (v : Word64) (s : State) :
    exec (.registerWrite x off w v) s = effect (registerWrite x off.toNat w v) s := rfl

/-- A register write that acts by the register's access codes alone (R8). -/
theorem exec_registerWrite_of_putReg {s : State} {x : BarTarget} {off : BitVec 26} {w : AccWidth} {v : Word64} {k : Nat} {fs : List RField} {y : Word32}
    (hf : fieldsAt k = some fs) (h : registerWrite x off.toNat w v s = putReg s k y) :
    ∃ t, exec (.registerWrite x off w v) s = .next t ∧ rd t k = writeFields (pageLocked s k) fs y (rd s k) ∧ Frame (someRegs [k]) [] s t := by
  refine ⟨putReg s k y, ?_, rd_putReg_of_fields hf y, putReg_frame hf y⟩
  rw [exec_registerWrite_eq, effect_eq, h, keep_of_frame (putReg_frame hf y)]

/-- A register write that is refused. -/
theorem exec_registerWrite_of_accRefuse {s : State} {off : BitVec 26} {w : AccWidth} {v : Word64} {kind : Nat}
    (h : registerWrite .bar0 off.toNat w v s = accRefuse s off.toNat kind) :
    exec (.registerWrite .bar0 off w v) s = .next (accRefuse s off.toNat kind) := by
  rw [exec_registerWrite_eq]
  exact effect_of_accRefuse h

/-- Settles O14: each access comes to a register written by its access codes, a refused access or nothing. -/
theorem registerAccesses : Obligations.RegisterAccesses := by
  refine ⟨fun s off fs hf ho => ⟨fun b hb i _ hi => regRead_masked hf hb ho hi, fun c hb hc => regRead_disabled_core hf hb ho hc⟩, fun s => ?_⟩
  intro refused
  have hrefused : ∀ off kind, off < 2 ^ 26 → refused (accRefuse s off kind) off kind := accRefuse_records s
  refine ⟨?_, ?_, ?_, ?_, ?_, ?_, fun b => exec_blkCtrlLock_of_lockable, fun b => exec_blkCtrlLock_of_not_lockable, ?_, ?_⟩
  · intro hup x off w v
    rw [exec_registerWrite_eq]
    exact effect_of_fixed (registerWrite_of_link_down hup x _ w v)
  · intro hup off v b fs hb hf ho ha hm hreset hsleep hplain
    obtain ⟨hdead, hown⟩ : deadPage s b = false ∧ ∀ o y, ownWrite s b o y = putReg s (pageOf b + o) y := by
      cases b with
      | chip => exact ⟨rfl, fun _ _ => rfl⟩
      | rst => exact ⟨rfl, fun _ _ => rfl⟩
      | loader => exact ⟨rfl, fun _ _ => rfl⟩
      | pcie => exact ⟨rfl, fun _ _ => rfl⟩
      | drc _ => exact ⟨rfl, fun _ _ => rfl⟩
      | codec _ => exact ⟨rfl, fun _ _ => rfl⟩
      | core c => exact ⟨by simp [deadPage, show coreEnabled s c = true from hplain], fun _ _ => rfl⟩
      | _ => exact False.elim hplain
    refine exec_registerWrite_of_putReg (y := v.setWidth 32) hf ?_
    rw [registerWrite_bar0_w32 hup ha, bar0Write_of_open hm hb hf hdead hsleep hreset, pageWrite_own ho, hown, pageOf_add_mod hb]
  · intro hup off v ha
    rw [exec_registerWrite_eq, effect_eq, registerWrite_bar0_w64 hup ha]
  · intro hup off v c ha ho hb hc
    refine ⟨_, exec_registerWrite_of_accRefuse ?_, hrefused _ 0 off.isLt⟩
    rw [registerWrite_bar0_w32 hup ha, bar0Write_of_disabled_core hb ho hc]
  · intro hup fn l off v fs hp hopen ha h0 h1 hf hfn
    refine exec_registerWrite_of_putReg (y := v.setWidth 32) hf ?_
    rw [registerWrite_bar2_w32 hup ha, bar2Write_doorbell_page hp hopen h0 h1 hfn]
  · intro hup off w v kind hkind
    rcases hkind with ⟨hw, rfl⟩ | ⟨hw, ha, rfl⟩ | ⟨rfl, ha, hf, rfl⟩
    · exact ⟨_, exec_registerWrite_of_accRefuse (registerWrite_bar0_narrow hup hw v), hrefused _ 1 off.isLt⟩
    · exact ⟨_, exec_registerWrite_of_accRefuse (registerWrite_bar0_misaligned hup hw ha v), hrefused _ 3 off.isLt⟩
    · refine ⟨_, exec_registerWrite_of_accRefuse ?_, hrefused _ 0 off.isLt⟩
      rw [registerWrite_bar0_w32 hup ha, bar0Write_of_reserved off.isLt hf]
  · intro b hdead
    exact ⟨_, exec_blkCtrlLock_of_dead hdead, hrefused _ 0 (by have := pageOf_lt b; omega)⟩
  · intro h5 hreset dev
    exact ⟨exec_tapDevIdValid_of_free h5 hreset dev, exec_tapDevIdValid_of_valid h5 hreset dev⟩

end Sys2Proof.Machine

/-! Weft ports and links (R301-R307, R324): the state of a link, folds over a port's links, link events and reports, and the ends of training. -/

namespace Sys2Proof.Machine

-- ## The state of a link and its port's settings

theorem bitsOf_rdF (s : State) (k a hi lo : Nat) (h : hi ≤ a) : bitsOf (rdF s k a 0) hi lo = rdF s k hi lo := by
  apply Nat.eq_of_testBit_eq
  intro i
  unfold bitsOf rdF
  rw [Nat.testBit_mod_two_pow, Nat.testBit_div_two_pow, testBit_fld, testBit_fld]
  by_cases hin : i < hi + 1 - lo
  · simp [hin, show i + lo < a + 1 by omega]
  · simp [hin]

/-- The state of a link is a field of its port's status register (R331). -/
theorem linkState_eq_rdF (s : State) (k : Nat) : linkState s k = rdF s (wfpKey (k / 2) 0x104) (4 * (k % 2) + 2) (4 * (k % 2)) :=
  bitsOf_rdF s _ 6 _ _ (by omega)

theorem linkState_setLinkState_self (s : State) (k v : Nat) (hv : v < 8) : linkState (setLinkState s k v) k = v := by
  rw [linkState_eq_rdF, setLinkState, rdF_wrF_self _ _ _ _ _ (by omega) (by omega), show 4 * (k % 2) + 2 + 1 - 4 * (k % 2) = 3 by omega]
  exact Nat.mod_eq_of_lt hv

theorem linkState_setLinkState_of_ne (s : State) (k j v : Nat) (h : j ≠ k) : linkState (setLinkState s k v) j = linkState s j := by
  rw [linkState_eq_rdF, linkState_eq_rdF, setLinkState]
  by_cases hp : j / 2 = k / 2
  · rw [hp, rdF_wrF_apart _ _ _ _ _ _ _ (by omega) (by omega) (by omega)]
  · exact rdF_wrF_of_ne _ _ _ _ _ _ _ _ (by simp only [wfpKey]; omega)

section Congr

variable {s t : State} {p k : Nat}

theorem linkState_congr (h : rd t (wfpKey (k / 2) 0x104) = rd s (wfpKey (k / 2) 0x104)) : linkState t k = linkState s k := by
  unfold linkState rdF
  rw [h]

theorem portEn_congr (h : rd t (wfpKey p 0x100) = rd s (wfpKey p 0x100)) : portEn t p = portEn s p := by
  unfold portEn
  rw [h]

theorem portSplit_congr (h : rd t (wfpKey p 0x100) = rd s (wfpKey p 0x100)) : portSplit t p = portSplit s p := by
  unfold portSplit
  rw [h]

theorem portLinks_congr (h : portSplit t p = portSplit s p) : portLinks t p = portLinks s p := by
  unfold portLinks
  rw [h]

theorem wideLink_congr (h : portSplit t (k / 2) = portSplit s (k / 2)) : wideLink t k = wideLink s k := by
  unfold wideLink
  rw [h]

theorem linkLanes_congr (h : portSplit t (k / 2) = portSplit s (k / 2)) : linkLanes t k = linkLanes s k := by
  unfold linkLanes
  rw [wideLink_congr h]

theorem linkWorks_of_state (h : linkState s k = 2 ∨ linkState s k = 3) : linkWorks s k = true := by
  rcases h with h | h <;> simp [linkWorks, h]

theorem mem_portLinks_div (h : k ∈ portLinks s p) : k / 2 = p := by
  unfold portLinks at h
  split at h
  · simp only [List.mem_cons, List.not_mem_nil, or_false] at h
    omega
  · simp only [List.mem_singleton] at h
    omega

theorem portLinks_nodup (s : State) (p : Nat) : (portLinks s p).Nodup := by
  unfold portLinks
  split <;> simp

theorem portLinks_ne_nil (s : State) (p : Nat) : portLinks s p ≠ [] := by
  unfold portLinks
  split <;> simp

end Congr

-- ## EN of a port

/-- A port with EN as given. -/
def setPortEn (s : State) (p : Nat) (b : Bool) : State := wrB s (wfpKey p 0x100) 0 b

theorem portEn_setPortEn (s : State) (p : Nat) (b : Bool) : portEn (setPortEn s p b) p = b := fbit_wrB_self _ _ _ _ (by omega)

theorem portSplit_setPortEn (s : State) (p : Nat) (b : Bool) : portSplit (setPortEn s p b) p = portSplit s p :=
  fbit_wrB_apart _ _ _ _ _ (by omega) (by omega)

theorem linkState_setPortEn (s : State) (p k : Nat) (b : Bool) : linkState (setPortEn s p b) k = linkState s k :=
  linkState_congr (rd_wrB_of_ne _ _ _ _ _ (by simp only [wfpKey]; omega))

theorem linkOf_setPortEn (s : State) (p k : Nat) (b : Bool) : linkOf (setPortEn s p b) k = linkOf s k := rfl

theorem linkWorks_setPortEn (s : State) (p k : Nat) (b : Bool) : linkWorks (setPortEn s p b) k = linkWorks s k := by
  unfold linkWorks
  rw [linkState_setPortEn, linkOf_setPortEn]

theorem portLinks_setPortEn (s : State) (p : Nat) (b : Bool) : portLinks (setPortEn s p b) p = portLinks s p :=
  portLinks_congr (portSplit_setPortEn s p b)

-- ## Folds over the links of a port

/-- A link reads alike in two states: its record and its state. -/
def SameLink (s t : State) (k : Nat) : Prop := linkOf t k = linkOf s k ∧ linkState t k = linkState s k

theorem SameLink.refl (s : State) (k : Nat) : SameLink s s k := ⟨rfl, rfl⟩

theorem SameLink.trans {s t u : State} {k : Nat} (h1 : SameLink s t k) (h2 : SameLink t u k) : SameLink s u k :=
  ⟨h2.1.trans h1.1, h2.2.trans h1.2⟩

theorem SameLink.works {s t : State} {k : Nat} (h : SameLink s t k) : linkWorks t k = linkWorks s k := by
  unfold linkWorks
  rw [h.1, h.2]

/-- The status register of a port. -/
abbrev portStat (p : Nat) : Nat → Prop := someRegs [wfpKey p 0x104]

/-- An update of one link: it leaves the other links, and everything but link records, the board and the status register of the link's port. -/
structure LinkStep (f : State → Nat → State) : Prop where
  others : ∀ s k j, j ≠ k → SameLink s (f s k) j
  frame : ∀ s k, Frame (portStat (k / 2)) [.links, .board] s (f s k)

section Folds

variable {f : State → Nat → State} {l : List Nat} {p : Nat}

theorem LinkStep.foldl_frame (hf : LinkStep f) (hp : ∀ k ∈ l, k / 2 = p) (s : State) : Frame (portStat p) [.links, .board] s (l.foldl f s) :=
  Frame.foldl _ _ (Frame.refl s) fun k hk u hu => hu.trans (hp k hk ▸ hf.frame u k)

theorem LinkStep.foldl_others (hf : LinkStep f) (s : State) {j : Nat} (hj : j ∉ l) : SameLink s (l.foldl f s) j := by
  induction l generalizing s with
  | nil => exact SameLink.refl s j
  | cons k r ih =>
    obtain ⟨hne, hr⟩ := not_or.mp (mt List.mem_cons.mpr hj)
    exact (hf.others s k j hne).trans (ih _ hr)

/-- A fold of an update over different links of a port updates each of them in a state in which that link is still as before. -/
theorem LinkStep.foldl_mem (hf : LinkStep f) (hl : l.Nodup) (hp : ∀ k ∈ l, k / 2 = p) (s : State) {j : Nat} (hj : j ∈ l) :
    ∃ u, Frame (portStat p) [.links, .board] s u ∧ SameLink s u j ∧ SameLink (f u j) (l.foldl f s) j := by
  induction l generalizing s with
  | nil => cases hj
  | cons k r ih =>
    obtain ⟨hkr, hr⟩ := List.nodup_cons.mp hl
    rcases List.mem_cons.mp hj with rfl | hjr
    · exact ⟨s, Frame.refl s, SameLink.refl s j, hf.foldl_others _ hkr⟩
    · obtain ⟨u, hframe, hsame, hend⟩ := ih hr (fun k hk => hp k (by simp [hk])) (f s k) hjr
      have hne : j ≠ k := fun e => hkr (e ▸ hjr)
      exact ⟨u, (hp k (by simp) ▸ hf.frame s k : Frame (portStat p) _ _ _).trans hframe, (hf.others s k j hne).trans hsame, hend⟩

/-- What every step of a fold establishes holds at its end, unless there is no step. -/
theorem foldl_of_each {P : State → Prop} (h : ∀ s, ∀ k ∈ l, P (f s k)) (hl : l ≠ []) (s : State) : P (l.foldl f s) := by
  rw [← List.dropLast_concat_getLast hl, List.foldl_append]
  exact h _ _ (List.getLast_mem hl)

end Folds

/-- A link with its record and its state set. -/
def putLink (s : State) (k : Nat) (x : Link) (v : Nat) : State := setLinkState (setLink s k x) k v

theorem sameLink_putLink (s : State) (k v : Nat) (x : Link) {j : Nat} (h : j ≠ k) : SameLink s (putLink s k x v) j :=
  ⟨linkOf_setLink_of_ne s k j x h, linkState_setLinkState_of_ne _ _ _ _ h⟩

theorem linkOf_putLink_self (s : State) (k v : Nat) (x : Link) : linkOf (putLink s k x v) k = x := linkOf_setLink_self s k x

theorem linkState_putLink_self (s : State) (k v : Nat) (x : Link) (hv : v < 8) : linkState (putLink s k x v) k = v :=
  linkState_setLinkState_self _ _ _ hv

theorem Frame.putLink {K : Nat → Prop} {ps : List Part} {s t : State} (h : Frame K ps s t) (hp : Part.links ∈ ps) (k v : Nat) (x : Link)
    (hk : K (wfpKey (k / 2) 0x104)) : Frame K ps s (putLink t k x v) := (h.setLink hp k x).wrF hk _ _ _

-- ## Training

theorem startTraining_frame (s : State) (k : Nat) : Frame (portStat (k / 2)) [.links, .board] s (startTraining s k) :=
  ((Frame.refl s).set_board (by simp) _).wrF (by simp [someRegs]) _ _ _

theorem linkState_startTraining_self (s : State) (k : Nat) : linkState (startTraining s k) k = 1 := linkState_setLinkState_self _ _ _ (by omega)

theorem sameLink_startTraining (s : State) {k j : Nat} (h : j ≠ k) : SameLink s (startTraining s k) j :=
  ⟨rfl, linkState_setLinkState_of_ne _ _ _ _ h⟩

/-- The transmitters of a link that trains leave electrical idle (R302). -/
theorem wfIdle_startTraining (s : State) {k p : Nat} (hk : k / 2 = p) (hp : p < 16) : (startTraining s k).board.wfIdle.getLsbD p = false := by
  show (s.board.wfIdle &&& ~~~(1#16 <<< (k / 2))).getLsbD p = false
  rw [hk, BitVec.getLsbD_and, BitVec.getLsbD_not, BitVec.getLsbD_shiftLeft]
  simp [hp]

/-- The record with which a link of a port that is enabled trains. -/
def enabledLink (x : Link) (wide : Bool) : Link := { blankLink x wide with enWait := false, deg := false }

/-- Training of one link of a port that is enabled. -/
def trainLink (s : State) (k : Nat) : State := startTraining (setLink s k (enabledLink (linkOf s k) (wideLink s k))) k

theorem trainPort_eq (s : State) (p : Nat) : trainPort s p = (portLinks s p).foldl trainLink s := rfl

theorem trainLink_linkStep : LinkStep trainLink where
  others s k j h := SameLink.trans ⟨linkOf_setLink_of_ne s k j _ h, rfl⟩ (sameLink_startTraining _ h)
  frame s k := ((Frame.refl s).setLink (by simp) k _).trans (startTraining_frame _ k)

theorem linkOf_trainLink_self (s : State) (k : Nat) : linkOf (trainLink s k) k = enabledLink (linkOf s k) (wideLink s k) :=
  linkOf_setLink_self s k _

/-- Every link of a port trains afresh (R302). -/
theorem trainPort_mem (s : State) {p k : Nat} (hk : k ∈ portLinks s p) :
    linkState (trainPort s p) k = 1 ∧ linkOf (trainPort s p) k = enabledLink (linkOf s k) (wideLink s k) := by
  obtain ⟨u, hframe, hsame, hend⟩ := trainLink_linkStep.foldl_mem (portLinks_nodup s p) (fun _ => mem_portLinks_div) s hk
  have hsplit : portSplit u (k / 2) = portSplit s (k / 2) := by
    rw [mem_portLinks_div hk]
    exact portSplit_congr (hframe.regs _ (by simp [someRegs, wfpKey]))
  rw [trainPort_eq, hend.1, hend.2, linkOf_trainLink_self, hsame.1, wideLink_congr hsplit]
  exact ⟨linkState_startTraining_self _ k, rfl⟩

theorem trainPort_others (s : State) {p k : Nat} (hk : k / 2 ≠ p) : SameLink s (trainPort s p) k :=
  trainLink_linkStep.foldl_others s fun h => hk (mem_portLinks_div h)

theorem trainPort_frame (s : State) (p : Nat) : Frame (portStat p) [.links, .board] s (trainPort s p) :=
  trainLink_linkStep.foldl_frame (fun _ => mem_portLinks_div) s

theorem wfIdle_trainPort (s : State) {p : Nat} (hp : p < 16) : (trainPort s p).board.wfIdle.getLsbD p = false :=
  foldl_of_each (P := fun t => t.board.wfIdle.getLsbD p = false) (fun _ _ hk => wfIdle_startTraining _ (mem_portLinks_div hk) hp)
    (portLinks_ne_nil s p) s

-- ## Enabling a port

/-- A link waits to be enabled until the stop in progress is over (R302). -/
def awaitEnable (s : State) (k : Nat) : State := setLink s k { linkOf s k with enWait := true }

theorem awaitEnable_linkStep : LinkStep awaitEnable where
  others s k j h := ⟨linkOf_setLink_of_ne s k j _ h, rfl⟩
  frame s k := (Frame.refl s).setLink (by simp) k _

theorem opPortEnable_of_stopping {s : State} {p : Nat} (hen : portEn s p = false) (hstop : portStops s p = true) :
    opPortEnable s p = (portLinks s p).foldl awaitEnable (setPortEn s p true) := by
  unfold opPortEnable
  rw [if_neg (by simp [hen])]
  exact if_pos hstop

theorem opPortEnable_of_free {s : State} {p : Nat} (hen : portEn s p = false) (hstop : portStops s p = false) :
    opPortEnable s p = trainPort (setPortEn s p true) p := by
  unfold opPortEnable
  rw [if_neg (by simp [hen])]
  exact if_neg (by simp [hstop])

/-- The registers of a port that enabling and disabling it change. -/
abbrev portRegs (p : Nat) : Nat → Prop := someRegs [wfpKey p 0x100, wfpKey p 0x104]

theorem setPortEn_frame {K : Nat → Prop} {ps : List Part} (s : State) {p : Nat} (b : Bool) (hk : K (wfpKey p 0x100)) :
    Frame K ps s (setPortEn s p b) := (Frame.refl s).wrB hk _ _

theorem setPortEn_trans {s t : State} {p : Nat} {b : Bool} (h : Frame (portStat p) [.links, .board] (setPortEn s p b) t) :
    Frame (portRegs p) [.links, .board] s t :=
  (setPortEn_frame s b (by simp [someRegs])).trans (h.mono (fun _ => List.mem_cons_of_mem _) fun _ hp => hp)

theorem portEn_of_setPortEn_frame {s t : State} {p : Nat} {b : Bool} (h : Frame (portStat p) [.links, .board] (setPortEn s p b) t) :
    portEn t p = b :=
  (portEn_congr (h.regs _ (by simp [someRegs, wfpKey]))).trans (portEn_setPortEn s p b)

theorem awaitEnable_foldl_frame (s : State) (p : Nat) (l : List Nat) :
    Frame (someRegs [wfpKey p 0x100]) [.links] s (l.foldl awaitEnable (setPortEn s p true)) :=
  Frame.foldl _ _ (setPortEn_frame s true (by simp [someRegs])) fun k _ _ hu => hu.setLink (by simp) k _

theorem awaitEnable_foldl_mem (s : State) {p k : Nat} (hk : k ∈ portLinks s p) :
    linkOf ((portLinks s p).foldl awaitEnable s) k = { linkOf s k with enWait := true } ∧
    linkState ((portLinks s p).foldl awaitEnable s) k = linkState s k := by
  obtain ⟨u, -, hsame, hend⟩ := awaitEnable_linkStep.foldl_mem (portLinks_nodup s p) (fun _ => mem_portLinks_div) s hk
  rw [hend.1, hend.2]
  refine ⟨?_, hsame.2⟩
  rw [awaitEnable, linkOf_setLink_self, hsame.1]

-- ## Disabling a port

/-- A link of a port disabled at time `now`: one that carries traffic stops, one that is stopping goes on, any other goes off (R307). -/
def stopOrOff (now : Word64) (s : State) (k : Nat) : State :=
  if linkWorks s k then putLink s k { linkOf s k with downAt := now } 5
  else putLink s k { linkOf s k with enWait := false } (if linkState s k = 5 then 5 else 0)

theorem stopOrOff_linkStep (now : Word64) : LinkStep (stopOrOff now) where
  others s k j h := by
    unfold stopOrOff
    split
    · exact sameLink_putLink s k _ _ h
    · exact sameLink_putLink s k _ _ h
  frame s k := by
    unfold stopOrOff
    exact Frame.ite (fun _ => (Frame.refl s).putLink (by simp) k _ _ (by simp [someRegs])) fun _ =>
      (Frame.refl s).putLink (by simp) k _ _ (by simp [someRegs])

theorem linkState_stopOrOff_self (now : Word64) (s : State) (k : Nat) :
    linkState (stopOrOff now s k) k = if linkWorks s k = true ∨ linkState s k = 5 then 5 else 0 := by
  unfold stopOrOff
  by_cases hw : linkWorks s k = true
  · rw [if_pos hw, if_pos (.inl hw), linkState_putLink_self _ _ _ _ (by omega)]
  · have hlt : (if linkState s k = 5 then 5 else 0) < 8 := by split <;> omega
    rw [if_neg hw, linkState_putLink_self _ _ _ _ hlt]
    simp only [hw, Bool.false_eq_true, false_or]

theorem downAt_stopOrOff_self (now : Word64) {s : State} {k : Nat} (hw : linkWorks s k = true) : (linkOf (stopOrOff now s k) k).downAt = now := by
  unfold stopOrOff
  rw [if_pos hw, linkOf_putLink_self]

theorem opPortDisable_of_enabled {s : State} {p : Nat} (hen : portEn s p = true) :
    opPortDisable s p = idlePort ((portLinks s p).foldl (stopOrOff s.time) (setPortEn s p false)) p := by
  unfold opPortDisable
  rw [if_neg (by simp [hen])]
  rfl

theorem idlePort_frame {K : Nat → Prop} {ps : List Part} (s : State) (p : Nat) (hp : Part.board ∈ ps) : Frame K ps s (idlePort s p) := by
  unfold idlePort
  exact Frame.ite (fun _ => (Frame.refl s).set_board hp _) fun _ => Frame.refl s

theorem sameLink_idlePort (s : State) (p k : Nat) : SameLink s (idlePort s p) k := by
  unfold idlePort
  split
  · exact ⟨rfl, rfl⟩
  · exact SameLink.refl s k

/-- The transmitters idle once no link of the port is left (R307). -/
theorem wfIdle_idlePort {s : State} {p : Nat} (hp : p < 16) (h : ∀ k ∈ portLinks s p, linkState s k = 0) :
    (idlePort s p).board.wfIdle.getLsbD p = true := by
  have hall : ((portLinks s p).all fun j => decide (linkState s j = 0) || decide (linkState s j = 4)) = true :=
    List.all_eq_true.mpr fun k hk => by simp [h k hk]
  unfold idlePort
  rw [if_pos hall]
  show (s.board.wfIdle ||| (1#16 <<< p)).getLsbD p = true
  rw [BitVec.getLsbD_or, BitVec.getLsbD_shiftLeft]
  simp [hp]

/-- The links of a port that is disabled, before its transmitters idle. -/
def stopLinks (s : State) (p : Nat) : State := (portLinks s p).foldl (stopOrOff s.time) (setPortEn s p false)

theorem stopLinks_frame (s : State) (p : Nat) : Frame (portStat p) [.links, .board] (setPortEn s p false) (stopLinks s p) :=
  (stopOrOff_linkStep s.time).foldl_frame (fun _ => mem_portLinks_div) _

theorem stopLinks_others (s : State) {p k : Nat} (hk : k / 2 ≠ p) : SameLink (setPortEn s p false) (stopLinks s p) k :=
  (stopOrOff_linkStep s.time).foldl_others _ fun h => hk (mem_portLinks_div h)

theorem stopLinks_mem (s : State) {p k : Nat} (hk : k ∈ portLinks s p) :
    linkState (stopLinks s p) k = (if linkWorks s k = true ∨ linkState s k = 5 then 5 else 0) ∧
    (linkWorks s k = true → (linkOf (stopLinks s p) k).downAt = s.time) := by
  obtain ⟨u, -, hsame, hend⟩ :=
    (stopOrOff_linkStep s.time).foldl_mem (portLinks_nodup s p) (fun _ => mem_portLinks_div) (setPortEn s p false) hk
  have hworks : linkWorks u k = linkWorks s k := hsame.works.trans (linkWorks_setPortEn s p k false)
  have hstate : linkState u k = linkState s k := hsame.2.trans (linkState_setPortEn s p k false)
  unfold stopLinks
  rw [hend.1, hend.2, linkState_stopOrOff_self, hworks, hstate]
  exact ⟨rfl, fun hw => downAt_stopOrOff_self s.time (hworks.trans hw)⟩

theorem portLinks_stopLinks (s : State) (p : Nat) : portLinks (stopLinks s p) p = portLinks s p :=
  (portLinks_congr (portSplit_congr ((stopLinks_frame s p).regs _ (by simp [someRegs, wfpKey])))).trans (portLinks_setPortEn s p false)

-- ## Writes on a port's page

section PortPage

variable {s : State} {p : WeftId} {f : State → State}

theorem gatedPage_wfpKey (p : WeftId) : gatedPage (wfpKey p 0) = true := by
  unfold gatedPage wfpKey
  rw [Bool.and_eq_true, Bool.and_eq_true]
  exact ⟨⟨decide_eq_true (by omega), decide_eq_true (by omega)⟩, decide_eq_true (by omega)⟩

/-- A write on a port's page is lost at S5 (R393; log entry 59). -/
theorem effect_portPage_of_s5 (h5 : s.power.s5 = true) : effect (onPage (wfpKey p 0) 0x100 f) s = .next s :=
  effect_of_fixed (if_pos (by simp [asleep, h5, gatedPage_wfpKey]))

theorem effect_portPage_of_resetting (h5 : s.power.s5 = false) (hreset : (blkOf s (wfpKey p 0)).resetting = true) :
    effect (onPage (wfpKey p 0) 0x100 f) s = .next (keep s (accRefuse s (wfpKey p 0 + 0x100) 2)) := by
  rw [effect_eq]
  simp [onPage, asleep, h5, hreset]

theorem effect_portPage_of_open {K : Nat → Prop} {ps : List Part} (h5 : s.power.s5 = false) (hreset : (blkOf s (wfpKey p 0)).resetting = false)
    (hf : Frame K ps s (f s)) : effect (onPage (wfpKey p 0) 0x100 f) s = .next (f s) := by
  have hpage : onPage (wfpKey p 0) 0x100 f s = f s := by simp [onPage, asleep, h5, hreset]
  rw [effect_eq, hpage, keep_of_frame hf]

end PortPage

theorem exec_weftPortEnable_eq (p : WeftId) (s : State) :
    exec (.weftPortEnable p) s = effect (onPage (wfpKey p 0) 0x100 fun s => opPortEnable s p) s := rfl

theorem exec_weftPortDisable_eq (p : WeftId) (s : State) :
    exec (.weftPortDisable p) s = effect (onPage (wfpKey p 0) 0x100 fun s => opPortDisable s p) s := rfl

end Sys2Proof.Machine

/-! Link events and reports (R324, R423): who is told, what the ledger holds, and what a report leaves. -/

namespace Sys2Proof.Machine

-- ## Reports

section Reports

variable {K : Nat → Prop} {ps : List Part} {s t u : State} {r : FaultRep}

/-- The entry that a report opens (R422, R423). -/
def openedEntry (s : State) (r : FaultRep) : LedgerEnt :=
  let e := ledgerJoin s (ledgerNew s r (decide (ledgerIndex s r = 1023))) r
  { e with info0 := mcInfo0 (ledgerIndex s r) e }

/-- The first round of the entry that a report opens (R423). -/
def firstRound (s : State) (r : FaultRep) : State :=
  let e := openedEntry s r
  ledgerRound (addCnt s (mbxKey 0x214) 1) (ledgerIndex s r) e (entitled s r) e.evType.toNat (mcInfo0 (ledgerIndex s r) e)
    (firstInfo1 e.evType.toNat e)

theorem report_of_entry {e : LedgerEnt} (h : tfind s.ledger (ledgerIndex s r) = some e) :
    report s r false = { s with ledger := tput s.ledger (ledgerIndex s r) (ledgerJoin s e r) } := by
  simp [report, h]

theorem report_of_no_entry (h : tfind s.ledger (ledgerIndex s r) = none) : report s r false = firstRound s r := by
  unfold report firstRound openedEntry
  generalize ledgerIndex s r = i at h ⊢
  simp only [h]
  rfl

theorem Frame.ledgerRound (h : Frame K ps s t) (hk : ∀ k, reportRegs k → K k) (hp : ∀ p, p ∈ reportParts → p ∈ ps) (i : Nat) (e : LedgerEnt)
    (ls : List Nat) (typ : Nat) (i0 i1 : Word64) : Frame K ps s (ledgerRound t i e ls typ i0 i1) := by
  have hpost := Frame.ite (c := typ = 0) (fun _ => h)
    fun _ => h.produceAll (hp .produced (by simp [reportParts])) ls typ e.repType.toNat e.repInst.toNat i0 i1
  exact (hpost.raiseMsix (hp .msix (by simp [reportParts])) _ _ (hk _ (.inr ⟨_, rfl⟩))).set_ledger (hp .ledger (by simp [reportParts])) _

theorem Frame.report (h : Frame K ps s t) (hk : ∀ k, reportRegs k → K k) (hp : ∀ p, p ∈ reportParts → p ∈ ps) (r : FaultRep) :
    Frame K ps s (report t r false) := by
  have hledger := hp .ledger (by simp [reportParts])
  cases hfind : tfind t.ledger (ledgerIndex t r) with
  | some e =>
    rw [report_of_entry hfind]
    exact h.set_ledger hledger _
  | none =>
    rw [report_of_no_entry hfind]
    exact (h.addCnt (hk _ (.inl rfl)) 1).ledgerRound hk hp _ _ _ _ _ _

theorem ledgerIndex_congr (h : t.ledger = s.ledger) (r : FaultRep) : ledgerIndex t r = ledgerIndex s r := by
  unfold ledgerIndex ledgerMatch ledgerFree
  rw [h]

theorem ledgerJoin_classes (s : State) (e : LedgerEnt) (r : FaultRep) :
    (ledgerJoin s e r).classes = e.classes ||| BitVec.ofNat 8 (2 ^ classBit r.cls) := by
  unfold ledgerJoin
  cases r.fromDev <;> rfl

theorem ledgerJoin_last (s : State) (e : LedgerEnt) (r : FaultRep) : (ledgerJoin s e r).last = s.time := by
  unfold ledgerJoin
  cases r.fromDev <;> rfl

theorem ledgerJoin_count (s : State) (e : LedgerEnt) (r : FaultRep) : (ledgerJoin s e r).count = min (2 ^ 32 - 1) (e.count + 1) := by
  unfold ledgerJoin
  cases r.fromDev <;> rfl

/-- A report taken in leaves who is suspected, since when, and the detail of the first report. -/
theorem ledgerJoin_suspect (s : State) (e : LedgerEnt) (r : FaultRep) :
    (ledgerJoin s e r).sDev = e.sDev ∧ (ledgerJoin s e r).sType = e.sType ∧ (ledgerJoin s e r).sInst = e.sInst ∧
    (ledgerJoin s e r).first = e.first ∧ (ledgerJoin s e r).info1 = e.info1 := by
  unfold ledgerJoin
  cases r.fromDev <;> exact ⟨rfl, rfl, rfl, rfl, rfl⟩

theorem getLsbD_classBit (c : FaultClass) : (BitVec.ofNat 8 (2 ^ classBit c)).getLsbD (classBit c) = true := by
  cases c <;> rfl

theorem ledgerJoin_takes (s : State) (e : LedgerEnt) (r : FaultRep) :
    (ledgerJoin s e r).classes.getLsbD (classBit r.cls) = true ∧ (ledgerJoin s e r).last = s.time ∧ 1 ≤ (ledgerJoin s e r).count := by
  refine ⟨?_, ledgerJoin_last s e r, ?_⟩
  · rw [ledgerJoin_classes, BitVec.getLsbD_or, getLsbD_classBit, Bool.or_true]
  · rw [ledgerJoin_count]
    omega

/-- What the entry that a report opens holds of the report (R422). -/
theorem openedEntry_holds (s : State) (r : FaultRep) :
    (openedEntry s r).classes.getLsbD (classBit r.cls) = true ∧ (openedEntry s r).last = s.time ∧ 1 ≤ (openedEntry s r).count ∧
    (openedEntry s r).sDev = r.dev ∧ (openedEntry s r).sType = r.type ∧ (openedEntry s r).sInst = r.inst ∧
    (openedEntry s r).first = s.time ∧ (openedEntry s r).info1 = r.info1 := by
  unfold openedEntry
  generalize ledgerIndex s r = i
  generalize decide (i = 1023) = overflow
  obtain ⟨hclass, hlast, hcount⟩ := ledgerJoin_takes s (ledgerNew s r overflow) r
  exact ⟨hclass, hlast, hcount, ledgerJoin_suspect s (ledgerNew s r overflow) r⟩

theorem tfind_ledgerRound (s : State) (i : Nat) (e : LedgerEnt) (ls : List Nat) (typ : Nat) (i0 i1 : Word64) :
    tfind (ledgerRound s i e ls typ i0 i1).ledger i =
      some { e with events := e.events + 1, eventTime := s.time, countAt := e.count, holding := true } := tfind_tput_self _ _ _

/-- A report is taken into the ledger at once (R423). -/
theorem report_reported (s : State) (r : FaultRep) : Reported s (report s r false) r := by
  cases hfind : tfind s.ledger (ledgerIndex s r) with
  | some e =>
    obtain ⟨hclass, hlast, hcount⟩ := ledgerJoin_takes s e r
    rw [report_of_entry hfind]
    exact ⟨_, tfind_tput_self _ _ _, hclass, hlast, hcount, by simp [hfind]⟩
  | none =>
    obtain ⟨hclass, hlast, hcount, hfresh⟩ := openedEntry_holds s r
    rw [report_of_no_entry hfind]
    exact ⟨_, tfind_ledgerRound _ _ _ _ _ _ _, hclass, hlast, hcount, fun _ => hfresh⟩

/-- What a report left stands wherever ledger and time are those of the report. -/
theorem Reported.congr {u' t' : State} (h : Reported u u' r) (hl : u.ledger = s.ledger) (ht : u.time = s.time) (hl' : t'.ledger = u'.ledger) :
    Reported s t' r := by
  unfold Reported at h ⊢
  rwa [ledgerIndex_congr hl, hl, ht, ← hl'] at h

theorem localRep_congr (h : rd t (tapKey 0x100) = rd s (tapKey 0x100)) (typ inst : Nat) (cls : FaultClass) (repT repI info1 : Nat) :
    localRep t typ inst cls repT repI info1 = localRep s typ inst cls repT repI info1 := by
  unfold localRep ownDev rdF
  rw [h]

theorem raiseMsix_produced (s : State) (fn v : Nat) : (raiseMsix s fn v).produced = s.produced := by
  unfold raiseMsix
  split
  · split <;> rfl
  · rfl

/-- An event handed to a loom stays so under a report. -/
theorem mem_report_of_mem {e : Event} {l : Nat} (h : e ∈ tget [] s.produced l) (r : FaultRep) :
    e ∈ tget [] (report s r false).produced l := by
  cases hfind : tfind s.ledger (ledgerIndex s r) with
  | some x =>
    rw [report_of_entry hfind]
    exact h
  | none =>
    rw [report_of_no_entry hfind]
    show e ∈ tget [] (raiseMsix _ _ _).produced l
    rw [raiseMsix_produced]
    split
    · exact h
    · exact mem_produceAll_of_mem _ h

end Reports

-- ## Link events

section LinkEvents

variable {s t : State} {k typ cause : Nat}

theorem Frame.linkEvent {K : Nat → Prop} {ps : List Part} (h : Frame K ps s t) (hk : ∀ k, reportRegs k → K k)
    (hp : ∀ p, p ∈ reportParts → p ∈ ps) (k typ cause : Nat) : Frame K ps s (linkEvent t k typ cause) :=
  (h.produceAll (hp .produced (by simp [reportParts])) _ _ _ _ _ _).report hk hp _

/-- A state that announces a link's events as another does: to the same looms, from the same device, at the same time, into the same ledger. -/
structure SameAudience (s t : State) : Prop where
  looms : ∀ l, l < 32 → loomSt t l = loomSt s l
  live : t.live = s.live
  router : t.router = s.router
  ledger : t.ledger = s.ledger
  time : t.time = s.time
  device : rd t (tapKey 0x100) = rd s (tapKey 0x100)

/-- Updates of one port's page and of link records change nothing of who is told. -/
theorem SameAudience.of_frame {p : Nat} (hp : p < 16) (h : Frame (pageRegs (wfpKey p 0)) [.links] s t) : SameAudience s t where
  looms l hl := by
    unfold loomSt rdF
    rw [h.regs _ (by simp only [pageRegs, wfpKey, loomKey]; omega)]
  live := h.parts .live (by simp)
  router := h.parts .router (by simp)
  ledger := h.parts .ledger (by simp)
  time := h.time
  device := h.regs _ (by simp only [pageRegs, wfpKey, tapKey]; omega)

theorem SameAudience.linkLooms (h : SameAudience s t) (k : Nat) : linkLooms t k = linkLooms s k := by
  have hlive : liveLooms t = liveLooms s := List.filter_congr fun l hl => by rw [h.looms l (List.mem_range.mp hl)]
  have himps : ∀ l, liveImps t l = liveImps s l := fun l => by
    have hlv : lv t l = lv s l := by
      funext off
      rw [lv, lv, h.live]
    rw [liveImps, liveImps, hlv]
  simp only [Machine.linkLooms, hlive, himps, h.router]

theorem loomSt_of_mem_linkLooms {l : Nat} (h : l ∈ linkLooms s k) : loomSt s l ≠ 0 := by
  have hlive := (List.mem_filter.mp h).1
  exact of_decide_eq_true (List.mem_filter.mp hlive).2

/-- A link event enters the ledger under its port (R421). -/
theorem linkEvent_reported (h : SameAudience s t) (k typ cause : Nat) :
    Reported s (linkEvent t k typ cause) (localRep s 0x060 (k / 2) .link 0x060 (k / 2) cause) := by
  have hpost : Frame noReg [.produced] t (produceAll t (linkLooms t k) typ 0x060 (k / 2) (BitVec.ofNat 64 k) (BitVec.ofNat 64 cause)) :=
    (Frame.refl t).produceAll (by simp) _ _ _ _ _ _
  rw [← localRep_congr ((hpost.regs _ fun hn => hn).trans h.device)]
  exact (report_reported _ _).congr ((hpost.parts .ledger (by simp)).trans h.ledger) (hpost.time.trans h.time) rfl

/-- A link event reaches the looms of the link (R324). -/
theorem linkEvent_tells (h : SameAudience s t) (typ cause : Nat) {l : Nat} (hl : l ∈ linkLooms s k) :
    ∃ v ∈ tget [] (linkEvent t k typ cause).produced l,
      v.type = BitVec.ofNat 16 typ ∧ v.info0 = BitVec.ofNat 64 k ∧ v.info1 = BitVec.ofNat 64 cause := by
  rw [← h.linkLooms k] at hl
  exact ⟨_, mem_report_of_mem (eventNow_mem_produceAll _ hl (loomSt_of_mem_linkLooms hl)) _, rfl, rfl, rfl⟩

end LinkEvents

end Sys2Proof.Machine

/-! The end of a link's training (R302, R306): whole, on one half, or failed, and another try 100 ms later. -/

namespace Sys2Proof.Machine

-- ## What LINK_TRAINED finds and records

section Trained

variable {s : State} {k : Nat} {rep : TrainReport}

theorem setLanes_frame {ps : List Part} (s : State) (k : Nat) (rep : TrainReport) : Frame (portStat (k / 2)) ps s (setLanes s k rep) :=
  (Frame.refl s).wrF (by simp [someRegs]) _ _ _

/-- The lanes found working change neither the record nor the state of a link. -/
theorem sameLink_setLanes (s : State) (k j : Nat) (rep : TrainReport) : SameLink s (setLanes s k rep) j := by
  refine ⟨rfl, ?_⟩
  rw [linkState_eq_rdF, linkState_eq_rdF, setLanes]
  by_cases hp : j / 2 = k / 2
  · rw [hp, rdF_wrF_apart _ _ _ _ _ _ _ (by omega) (by omega) (by omega)]
  · exact rdF_wrF_of_ne _ _ _ _ _ _ _ _ (by simp only [wfpKey]; omega)

theorem linkLanes_setLanes (s : State) (k : Nat) (rep : TrainReport) : linkLanes (setLanes s k rep) k = linkLanes s k :=
  linkLanes_congr (portSplit_congr ((setLanes_frame (ps := []) s k rep).regs _ (by simp [someRegs, wfpKey])))

/-- The register of a link's neighbour. -/
def nbrKey (k : Nat) : Nat := wfpKey (k / 2) (0x108 + 4 * (k % 2))

/-- A link's neighbour noted as its training found it (R331). -/
def noteNbr (k : Nat) (rep : TrainReport) (s : State) : State := wr s (nbrKey k) (nbrWord rep (linkWorks s k))

theorem rd_noteNbr_self (s : State) (k : Nat) (rep : TrainReport) : rd (noteNbr k rep s) (nbrKey k) = nbrWord rep (linkWorks s k) :=
  rd_wr_self _ _ _

theorem linkState_noteNbr (s : State) (k : Nat) (rep : TrainReport) : linkState (noteNbr k rep s) k = linkState s k :=
  linkState_congr (rd_wr_of_ne _ _ _ _ (by simp only [nbrKey, wfpKey]; omega))

theorem pageRegs_nbrKey (k : Nat) : pageRegs (wfpKey (k / 2) 0) (nbrKey k) := by
  simp only [pageRegs, nbrKey, wfpKey]
  omega

theorem pageRegs_portStat (k : Nat) : pageRegs (wfpKey (k / 2) 0) (wfpKey (k / 2) 0x104) := by
  simp only [pageRegs, wfpKey]
  omega

theorem pageRegs_of_portStat {p : Nat} {r : Nat} (h : portStat p r) : pageRegs (wfpKey p 0) r := by
  simp only [someRegs, List.mem_singleton] at h
  simp only [h, pageRegs, wfpKey]
  omega

/-- What LINK_TRAINED does. -/
def endTraining (k : Nat) (rep : TrainReport) (s : State) : State :=
  if linkState s k ≠ 1 then s else noteNbr k rep (trained (setLanes s k rep) k rep)

theorem exec_linkTrained_eq (k : LinkId) (rep : TrainReport) (s : State) :
    exec (.linkTrained k rep) s = effect (posting (endTraining k rep)) s := rfl

theorem exec_linkTrained_of_not_training {k : LinkId} (h : linkState s k ≠ 1) : exec (.linkTrained k rep) s = .next s :=
  effect_of_fixed (posting_of_fixed (f := endTraining k rep) (if_pos h))

/-- LINK_TRAINED of a link in training, by what its training came to. -/
theorem exec_linkTrained_of_training {K : Nat → Prop} {ps : List Part} {k : LinkId} {u : State} (ho : eventsOpen s) (h : linkState s k = 1)
    (hu : trained (setLanes s k rep) k rep = u) (hf : Frame K ps s (noteNbr k rep u)) :
    exec (.linkTrained k rep) s = .next (noteNbr k rep u) := by
  have hend : endTraining k rep s = noteNbr k rep u := by
    rw [endTraining, if_neg (by simp [h]), hu]
  rw [exec_linkTrained_eq, effect_eq, posting_of_eventsOpen ho, hend, keep_of_frame hf]

/-- A link whose training found a whole link comes up (R302). -/
theorem trained_of_whole (hr : (linkOf s k).retrain = false) (hd : (linkOf s k).deg = false) (hp : rep.peerMatches = true)
    (hfull : ∀ n ∈ linkLanes s k, rep.lanes.getLsbD n = true) : trained s k rep = linkUp s k := by
  unfold trained
  rw [if_neg (by simp [hr, hd]), if_pos (by rw [hp, List.all_eq_true.mpr hfull]; rfl)]

/-- A link that retrains, or was degraded, runs on a good half (R306). -/
theorem trained_of_half {h : Nat} (hx : (linkOf s k).retrain = true ∨ (linkOf s k).deg = true) (hp : rep.peerMatches = true)
    (hh : goodHalf (linkOf s k) rep = some h) : trained s k rep = linkDegraded s k h := by
  unfold trained
  rw [if_pos (by simpa using hx)]
  simp only [hp, if_true, hh]

/-- The link DOWN as its training failed. -/
def downLink (s : State) (k : Nat) : State := putLink s k { linkOf s k with downAt := s.time } 4

/-- A link, not retraining, that finds neither a whole link nor, once degraded, a good half goes DOWN (R302). -/
theorem trained_of_failed (hr : (linkOf s k).retrain = false)
    (hhalf : (linkOf s k).deg = true → ¬ (rep.peerMatches = true ∧ (goodHalf (linkOf s k) rep).isSome = true))
    (hfull : (linkOf s k).deg = false → ¬ (rep.peerMatches = true ∧ ∀ n ∈ linkLanes s k, rep.lanes.getLsbD n = true)) :
    trained s k rep = downLink s k := by
  unfold trained
  cases hd : (linkOf s k).deg with
  | true =>
    have hnone : (if rep.peerMatches then goodHalf (linkOf s k) rep else none) = none := by
      by_cases hp : rep.peerMatches = true
      · rw [if_pos hp]
        exact Option.not_isSome_iff_eq_none.mp fun hsome => hhalf hd ⟨hp, hsome⟩
      · exact if_neg hp
    rw [if_pos (by simp [hd]), hnone]
    exact if_neg (by simp [hr])
  | false =>
    rw [if_neg (by simp [hr, hd]), if_neg (by simpa using hfull hd)]
    rfl

end Trained

-- ## A link that comes up whole

section LinkUp

variable {s : State} {k : Nat}

/-- The link UP, before LINK_UP goes out. -/
def upLink (s : State) (k : Nat) : State := putLink s k { linkOf s k with lost := none } 2

theorem linkUp_of_lost {c : Nat} (h : (linkOf s k).lost = some c) : linkUp s k = linkEvent (upLink s k) k 0x0052 c := by
  simp only [linkUp, h]
  rfl

theorem linkUp_of_kept (h : (linkOf s k).lost = none) : linkUp s k = upLink s k := by
  simp only [linkUp, h]
  rfl

end LinkUp

-- ## A link on one half

/-- Accepting flits leaves what the link has lost. -/
theorem pumpFlits_keeps (q : List Flit) (shut : List Nat) (kept : List Flit) (x : Link) :
    (pumpFlits q shut kept x).lost = x.lost ∧ (pumpFlits q shut kept x).deg = x.deg := by
  induction q generalizing shut kept x with
  | nil => exact ⟨rfl, rfl⟩
  | cons f r ih =>
    unfold pumpFlits
    dsimp only
    split
    · exact ih _ _ _
    · exact ih _ _ _

theorem pumpLink_keeps (x : Link) : (pumpLink x).lost = x.lost ∧ (pumpLink x).deg = x.deg := by
  unfold pumpLink
  split
  · exact ⟨rfl, rfl⟩
  · exact pumpFlits_keeps _ _ _ _

/-- The record of a link that runs on half `h`. -/
def halfLink (x : Link) (h : Nat) : Link :=
  pumpLink { x with lost := some 0, deg := true, retrain := false, badLanes := x.badLanes ||| otherHalf h }

theorem halfLink_lost (x : Link) (h : Nat) : (halfLink x h).lost = some 0 := (pumpLink_keeps _).1
theorem halfLink_deg (x : Link) (h : Nat) : (halfLink x h).deg = true := (pumpLink_keeps _).2

/-- The link DEGRADED and its error recorded, before the loss is announced. -/
def degradedLink (s : State) (k h : Nat) : State :=
  blkError (putLink s k (halfLink (linkOf s k) h) 3) (wfpKey (k / 2) 0) 4 (BitVec.ofNat 32 k)

theorem linkDegraded_eq (s : State) (k h : Nat) : linkDegraded s k h = linkEvent (degradedLink s k h) k 0x0051 0 := rfl

end Sys2Proof.Machine

/-! What each row of a Weft port and of a link's training comes to, and the statement on them. -/

namespace Sys2Proof.Machine

-- ## LINK_TRAINED

section TrainingEnds

variable {s b : State} {k : LinkId} {rep : TrainReport}

/-- The registers that the end of a link's training may change: those of its port's page, and what a report changes. -/
abbrev trainRegs (k : Nat) : Nat → Prop := fun r => reportRegs r ∨ pageRegs (wfpKey (k / 2) 0) r

theorem not_reportRegs_wfpKey (k : LinkId) {o : Nat} (ho : o < 0x1000) : ¬ reportRegs (wfpKey (k.val / 2) o) := by
  rintro (h | ⟨x, h⟩)
  · simp only [wfpKey, mbxKey] at h
    omega
  · simp only [wfpKey, pbaKey, if_true] at h
    omega

theorem linkEvent_frame (s : State) (k typ cause : Nat) : Frame reportRegs reportParts s (linkEvent s k typ cause) :=
  (Frame.refl s).linkEvent (fun _ h => h) (fun _ h => h) k typ cause

theorem linkOf_linkEvent (s : State) (k typ cause j : Nat) : linkOf (linkEvent s k typ cause) j = linkOf s j := by
  unfold linkOf
  rw [show (linkEvent s k typ cause).links = s.links from (linkEvent_frame s k typ cause).parts .links (by simp [reportParts])]

theorem sameLink_linkEvent (s : State) (k : LinkId) (typ cause : Nat) : SameLink s (linkEvent s k typ cause) k :=
  ⟨linkOf_linkEvent s k typ cause k, linkState_congr ((linkEvent_frame s k typ cause).regs _ (not_reportRegs_wfpKey k (by omega)))⟩

theorem noteNbr_frame {ps : List Part} (h : Frame (pageRegs (wfpKey (k.val / 2) 0)) ps s b) :
    Frame (pageRegs (wfpKey (k.val / 2) 0)) ps s (noteNbr k rep b) := h.wr (pageRegs_nbrKey k) _

/-- The frame of the end of a training that announces itself. -/
theorem announced_frame (h : Frame (pageRegs (wfpKey (k.val / 2) 0)) [.links] s b) (typ cause : Nat) :
    Frame (trainRegs k) (.links :: reportParts) s (noteNbr k rep (linkEvent b k typ cause)) :=
  ((h.mono (fun _ => .inr) (by simp)).linkEvent (fun _ => .inl) (fun _ => List.mem_cons_of_mem _) _ _ _).wr (.inr (pageRegs_nbrKey k)) _

/-- What the end of a training that announces itself leaves of the link, and whom it tells. -/
theorem announced_shows (h : Frame (pageRegs (wfpKey (k.val / 2) 0)) [.links] s b) (typ cause : Nat) :
    linkState (noteNbr k rep (linkEvent b k typ cause)) k = linkState b k ∧
    rd (noteNbr k rep (linkEvent b k typ cause)) (nbrKey k) = nbrWord rep (linkWorks b k) ∧
    Reported s (noteNbr k rep (linkEvent b k typ cause)) (localRep s 0x060 (k.val / 2) .link 0x060 (k.val / 2) cause) ∧
    ∀ l ∈ linkLooms s k, ∃ v ∈ tget [] (noteNbr k rep (linkEvent b k typ cause)).produced l,
      v.type = BitVec.ofNat 16 typ ∧ v.info0 = BitVec.ofNat 64 k.val ∧ v.info1 = BitVec.ofNat 64 cause := by
  have haudience : SameAudience s b := SameAudience.of_frame (by omega) h
  have hlink := sameLink_linkEvent b k typ cause
  refine ⟨(linkState_noteNbr _ k rep).trans hlink.2, ?_, ?_, fun l => linkEvent_tells haudience typ cause⟩
  · rw [rd_noteNbr_self, hlink.works]
  · exact (linkEvent_reported haudience k typ cause).congr rfl rfl rfl

theorem upLink_setLanes_frame (s : State) (k : LinkId) (rep : TrainReport) :
    Frame (pageRegs (wfpKey (k.val / 2) 0)) [.links] s (upLink (setLanes s k rep) k) :=
  ((setLanes_frame s k rep).mono (fun _ => pageRegs_of_portStat) fun _ hp => hp).putLink (by simp) _ _ _ (pageRegs_portStat k)

theorem degradedLink_setLanes_frame (s : State) (k : LinkId) (rep : TrainReport) (h : Nat) :
    Frame (pageRegs (wfpKey (k.val / 2) 0)) [.links] s (degradedLink (setLanes s k rep) k h) := by
  have hput := ((setLanes_frame (ps := [.links]) s k rep).mono (fun _ => pageRegs_of_portStat) fun _ hp => hp).putLink (by simp) k 3
    (halfLink (linkOf (setLanes s k rep) k) h) (pageRegs_portStat k)
  have herr : ∀ o, o < 0x1000 → pageRegs (wfpKey (k.val / 2) 0) (wfpKey (k.val / 2) 0 + o) := fun o ho => by
    simp only [pageRegs]
    omega
  exact hput.blkError _ _ _ (herr _ (by omega)) (herr _ (by omega)) (herr _ (by omega))

theorem linkState_degradedLink (s : State) (k h : Nat) : linkState (degradedLink s k h) k = 3 := by
  have herr : Frame (someRegs [wfpKey (k / 2) 0 + 0x10, wfpKey (k / 2) 0 + 0x18, wfpKey (k / 2) 0 + 0x1C]) []
      (putLink s k (halfLink (linkOf s k) h) 3) (degradedLink s k h) :=
    (Frame.refl _).blkError _ _ _ (by simp [someRegs]) (by simp [someRegs]) (by simp [someRegs])
  rw [linkState_congr (herr.regs _ (by simp [someRegs, wfpKey])), linkState_putLink_self _ _ _ _ (by omega)]

theorem linkOf_degradedLink (s : State) (k h j : Nat) :
    linkOf (degradedLink s k h) j = linkOf (putLink s k (halfLink (linkOf s k) h) 3) j := by
  have herr : Frame (fun _ => True) [] (putLink s k (halfLink (linkOf s k) h) 3) (degradedLink s k h) :=
    (Frame.refl _).blkError _ _ _ trivial trivial trivial
  exact congrArg (fun x => tget {} x j) (herr.parts .links (by simp))

theorem exec_linkTrained_of_whole (ho : eventsOpen s) (hst : linkState s k = 1) (hr : (linkOf s k).retrain = false)
    (hd : (linkOf s k).deg = false) (hp : rep.peerMatches = true) (hfull : ∀ n ∈ linkLanes s k, rep.lanes.getLsbD n = true) :
    ∃ t, exec (.linkTrained k rep) s = .next t ∧ linkState t k = 2 ∧ rd t (nbrKey k) = nbrWord rep true ∧
      (∀ c, (linkOf s k).lost = some c → (linkOf t k).lost = none ∧ Reported s t (localRep s 0x060 (k.val / 2) .link 0x060 (k.val / 2) c) ∧
        ∀ l ∈ linkLooms s k, ∃ v ∈ tget [] t.produced l, v.type = 0x52 ∧ v.info0 = BitVec.ofNat 64 k.val ∧ v.info1 = BitVec.ofNat 64 c) ∧
      ((linkOf s k).lost = none → t.produced = s.produced) ∧ (∀ j, j ≠ k.val → linkOf t j = linkOf s j) ∧
      Frame (trainRegs k) (.links :: reportParts) s t := by
  have htrained : trained (setLanes s k rep) k rep = linkUp (setLanes s k rep) k :=
    trained_of_whole hr hd hp (by rwa [linkLanes_setLanes])
  have hup := upLink_setLanes_frame s k rep
  have hstate : linkState (upLink (setLanes s k rep) k) k = 2 := linkState_putLink_self _ _ _ _ (by omega)
  have hworks : linkWorks (upLink (setLanes s k rep) k) k = true := linkWorks_of_state (.inl hstate)
  have hlost : (linkOf (upLink (setLanes s k rep) k) k).lost = none := by rw [upLink, linkOf_putLink_self]
  have hothers : ∀ j, j ≠ k.val → linkOf (upLink (setLanes s k rep) k) j = linkOf s j := fun j hj => (sameLink_putLink _ _ _ _ hj).1
  cases hc : (linkOf s k).lost with
  | some c =>
    obtain ⟨hst', hnbr, hrep, htell⟩ := announced_shows (rep := rep) hup 0x0052 c
    have hframe := announced_frame (rep := rep) hup 0x0052 c
    have hlinks := fun j => linkOf_linkEvent (upLink (setLanes s k rep) k) k 0x0052 c j
    refine ⟨_, exec_linkTrained_of_training ho hst (htrained.trans (linkUp_of_lost hc)) hframe, hst'.trans hstate,
      by rw [hnbr, hworks], ?_, by simp, fun j hj => (hlinks j).trans (hothers j hj), hframe⟩
    rintro _ ⟨⟩
    exact ⟨(congrArg Link.lost (hlinks k)).trans hlost, hrep, htell⟩
  | none =>
    have hframe : Frame (trainRegs k) (.links :: reportParts) s (noteNbr k rep (upLink (setLanes s k rep) k)) :=
      (noteNbr_frame hup).mono (fun _ => .inr) (by simp)
    exact ⟨_, exec_linkTrained_of_training ho hst (htrained.trans (linkUp_of_kept hc)) hframe, (linkState_noteNbr _ k rep).trans hstate,
      by rw [rd_noteNbr_self, hworks], by simp, fun _ => rfl, hothers, hframe⟩

theorem exec_linkTrained_of_failed (ho : eventsOpen s) (hst : linkState s k = 1) (hr : (linkOf s k).retrain = false)
    (hhalf : (linkOf s k).deg = true → ¬ (rep.peerMatches = true ∧ (goodHalf (linkOf s k) rep).isSome = true))
    (hfull : (linkOf s k).deg = false → ¬ (rep.peerMatches = true ∧ ∀ n ∈ linkLanes s k, rep.lanes.getLsbD n = true)) :
    ∃ t, exec (.linkTrained k rep) s = .next t ∧ linkState t k = 4 ∧ rd t (nbrKey k) = nbrWord rep false ∧
      (linkOf t k).downAt = s.time ∧ (∀ j, j ≠ k.val → linkOf t j = linkOf s j) ∧ Frame (trainRegs k) [.links] s t := by
  have hu : trained (setLanes s k rep) k rep = downLink (setLanes s k rep) k := trained_of_failed hr hhalf (by rwa [linkLanes_setLanes])
  have hstate : linkState (downLink (setLanes s k rep) k) k = 4 := linkState_putLink_self _ _ _ _ (by omega)
  have hput : Frame (pageRegs (wfpKey (k.val / 2) 0)) [.links] s (downLink (setLanes s k rep) k) :=
    ((setLanes_frame s k rep).mono (fun _ => pageRegs_of_portStat) fun _ hp => hp).putLink (by simp) _ _ _ (pageRegs_portStat k)
  have hframe : Frame (trainRegs k) [.links] s (noteNbr k rep (downLink (setLanes s k rep) k)) :=
    (noteNbr_frame hput).mono (fun _ => .inr) fun _ hp => hp
  have hself : linkOf (noteNbr k rep (downLink (setLanes s k rep) k)) k = { linkOf s k with downAt := s.time } :=
    linkOf_putLink_self (setLanes s k rep) k 4 _
  refine ⟨_, exec_linkTrained_of_training ho hst hu hframe, (linkState_noteNbr _ k rep).trans hstate, ?_, by rw [hself],
    fun j hj => (sameLink_putLink (setLanes s k rep) k 4 _ hj).1, hframe⟩
  rw [rd_noteNbr_self, show linkWorks (downLink (setLanes s k rep) k) k = false by simp [linkWorks, hstate]]

theorem exec_linkTrained_of_half (ho : eventsOpen s) (hst : linkState s k = 1) (hx : (linkOf s k).retrain = true ∨ (linkOf s k).deg = true)
    (hhalf : rep.peerMatches = true ∧ (goodHalf (linkOf s k) rep).isSome = true) :
    ∃ t, exec (.linkTrained k rep) s = .next t ∧ linkState t k = 3 ∧ rd t (nbrKey k) = nbrWord rep true ∧
      (linkOf t k).lost = some 0 ∧ (linkOf t k).deg = true ∧
      (∀ l ∈ linkLooms s k, ∃ v ∈ tget [] t.produced l, v.type = 0x51 ∧ v.info0 = BitVec.ofNat 64 k.val) ∧
      Reported s t (localRep s 0x060 (k.val / 2) .link 0x060 (k.val / 2) 0) ∧ (∀ j, j ≠ k.val → linkOf t j = linkOf s j) ∧
      Frame (trainRegs k) (.links :: reportParts) s t := by
  obtain ⟨hp, hsome⟩ := hhalf
  obtain ⟨h, hh⟩ := Option.isSome_iff_exists.mp hsome
  have hu : trained (setLanes s k rep) k rep = linkEvent (degradedLink (setLanes s k rep) k h) k 0x0051 0 :=
    (trained_of_half (s := setLanes s k rep) hx hp hh).trans (linkDegraded_eq _ _ _)
  have hput := degradedLink_setLanes_frame s k rep h
  have hstate := linkState_degradedLink (setLanes s k rep) k h
  have hlinks : ∀ j, linkOf (noteNbr k rep (linkEvent (degradedLink (setLanes s k rep) k h) k 0x0051 0)) j =
      linkOf (putLink (setLanes s k rep) k (halfLink (linkOf s k) h) 3) j :=
    fun j => (linkOf_linkEvent _ _ _ _ j).trans (linkOf_degradedLink _ _ _ j)
  have hself := (hlinks k).trans (linkOf_putLink_self _ _ _ _)
  obtain ⟨hst', hnbr, hrep, htell⟩ := announced_shows (rep := rep) hput 0x0051 0
  have hframe := announced_frame (rep := rep) hput 0x0051 0
  refine ⟨_, exec_linkTrained_of_training ho hst hu hframe, hst'.trans hstate, ?_, by rw [hself, halfLink_lost], by rw [hself, halfLink_deg],
    fun l hl => ?_, hrep, fun j hj => (hlinks j).trans (sameLink_putLink _ _ _ _ hj).1, hframe⟩
  · rw [hnbr, linkWorks_of_state (.inr hstate)]
  · obtain ⟨v, hv, htype, hinfo, -⟩ := htell l hl
    exact ⟨v, hv, htype, hinfo⟩

end TrainingEnds

-- ## LINK_TRAIN_RETRY

section Retry

variable {s : State} {k : LinkId}

/-- A DOWN link trains again: its port is enabled, S5 is not in force, and 100 ms have passed (R302). -/
abbrev retryDue (s : State) (k : LinkId) : Prop :=
  linkState s k = 4 ∧ s.power.s5 = false ∧ portEn s (k.val / 2) = true ∧ elapsedUs s.time (linkOf s k).downAt 100000 = true

/-- A DOWN link in training again. -/
def retryLink (s : State) (k : Nat) : State := startTraining (setLink s k (blankLink (linkOf s k) (wideLink s k))) k

theorem exec_linkTrainRetry_eq (k : LinkId) (s : State) :
    exec (.linkTrainRetry k) s = effect (fun s => if retryDue s k then retryLink s k else s) s := rfl

theorem retryLink_frame (s : State) (k : Nat) : Frame (portStat (k / 2)) [.links, .board] s (retryLink s k) :=
  ((Frame.refl s).setLink (by simp) k _).trans (startTraining_frame _ k)

theorem exec_linkTrainRetry_of_due (h : retryDue s k) : exec (.linkTrainRetry k) s = .next (retryLink s k) := by
  rw [exec_linkTrainRetry_eq, effect_eq, if_pos h, keep_of_frame (retryLink_frame s k)]

theorem exec_linkTrainRetry_of_not_due (h : ¬ retryDue s k) : exec (.linkTrainRetry k) s = .next s := by
  rw [exec_linkTrainRetry_eq]
  exact effect_of_fixed (if_neg h)

theorem linkOf_retryLink_self (s : State) (k : Nat) : linkOf (retryLink s k) k = blankLink (linkOf s k) (wideLink s k) :=
  linkOf_setLink_self s k _

theorem linkOf_retryLink_of_ne (s : State) {k j : Nat} (h : j ≠ k) : linkOf (retryLink s k) j = linkOf s j := linkOf_setLink_of_ne s k j _ h

end Retry

-- ## The rows of a port

section Ports

variable {s : State} {p : WeftId}

theorem exec_weftPortEnable_of_enabled (h5 : s.power.s5 = false) (hreset : (blkOf s (wfpKey p 0)).resetting = false) (hen : portEn s p = true) :
    exec (.weftPortEnable p) s = .next s := by
  have hsame : opPortEnable s p = s := if_pos hen
  rw [exec_weftPortEnable_eq, effect_portPage_of_open (K := noReg) (ps := []) h5 hreset (hsame.symm ▸ Frame.refl s), hsame]

theorem exec_weftPortDisable_of_disabled (h5 : s.power.s5 = false) (hreset : (blkOf s (wfpKey p 0)).resetting = false) (hen : portEn s p = false) :
    exec (.weftPortDisable p) s = .next s := by
  have hsame : opPortDisable s p = s := if_pos (by simp [hen])
  rw [exec_weftPortDisable_eq, effect_portPage_of_open (K := noReg) (ps := []) h5 hreset (hsame.symm ▸ Frame.refl s), hsame]

/-- Enabling a port none of whose links is stopping trains them afresh (R302). -/
theorem exec_weftPortEnable_of_free (h5 : s.power.s5 = false) (hreset : (blkOf s (wfpKey p 0)).resetting = false) (hen : portEn s p = false)
    (hstop : portStops s p = false) :
    ∃ t, exec (.weftPortEnable p) s = .next t ∧ portEn t p = true ∧ t.board.wfIdle.getLsbD p = false ∧
      (∀ k ∈ portLinks s p, linkState t k = 1 ∧ linkOf t k = enabledLink (linkOf s k) (wideLink s k)) ∧
      (∀ k, k / 2 ≠ p.val → linkOf t k = linkOf s k) ∧ Frame (portRegs p) [.links, .board] s t := by
  have htrain := trainPort_frame (setPortEn s p true) p
  have hframe := setPortEn_trans htrain
  have hop := opPortEnable_of_free hen hstop
  refine ⟨trainPort (setPortEn s p true) p, ?_, portEn_of_setPortEn_frame htrain, wfIdle_trainPort _ p.isLt, fun k hk => ?_,
    fun k hk => (trainPort_others _ hk).1, hframe⟩
  · rw [exec_weftPortEnable_eq, effect_portPage_of_open h5 hreset (hop.symm ▸ hframe), hop]
  · have hwide : wideLink (setPortEn s p true) k = wideLink s k := wideLink_congr (by rw [mem_portLinks_div hk, portSplit_setPortEn])
    rw [← hwide]
    exact trainPort_mem _ (by rwa [portLinks_setPortEn])

/-- Enabling a port waits for a stop in progress (R302). -/
theorem exec_weftPortEnable_of_stopping (h5 : s.power.s5 = false) (hreset : (blkOf s (wfpKey p 0)).resetting = false) (hen : portEn s p = false)
    (hstop : portStops s p = true) :
    ∃ t, exec (.weftPortEnable p) s = .next t ∧ portEn t p = true ∧
      (∀ k ∈ portLinks s p, (linkOf t k).enWait = true ∧ linkState t k = linkState s k) ∧
      (∀ k, k / 2 ≠ p.val → linkOf t k = linkOf s k) ∧ Frame (someRegs [wfpKey p 0x100]) [.links] s t := by
  have hframe := awaitEnable_foldl_frame s p (portLinks s p)
  have hop := opPortEnable_of_stopping hen hstop
  refine ⟨(portLinks s p).foldl awaitEnable (setPortEn s p true), ?_, ?_, fun k hk => ?_,
    fun k hk => (awaitEnable_linkStep.foldl_others _ fun h => hk (mem_portLinks_div h)).1, hframe⟩
  · rw [exec_weftPortEnable_eq, effect_portPage_of_open h5 hreset (hop.symm ▸ hframe), hop]
  · exact portEn_of_setPortEn_frame (awaitEnable_linkStep.foldl_frame (fun _ => mem_portLinks_div) _)
  · obtain ⟨hself, hstate⟩ := awaitEnable_foldl_mem (setPortEn s p true) (p := p) (k := k) (by rwa [portLinks_setPortEn])
    rw [portLinks_setPortEn] at hself hstate
    exact ⟨by rw [hself], hstate.trans (linkState_setPortEn s p k true)⟩

/-- Disabling a port lets its links that carry traffic stop and turns the others off (R307). -/
theorem exec_weftPortDisable_of_enabled (h5 : s.power.s5 = false) (hreset : (blkOf s (wfpKey p 0)).resetting = false) (hen : portEn s p = true) :
    ∃ t, exec (.weftPortDisable p) s = .next t ∧ portEn t p = false ∧
      (∀ k ∈ portLinks s p, linkState t k = (if linkWorks s k = true ∨ linkState s k = 5 then 5 else 0) ∧
        (linkWorks s k = true → (linkOf t k).downAt = s.time)) ∧
      ((∀ k ∈ portLinks s p, linkWorks s k = false ∧ linkState s k ≠ 5) → t.board.wfIdle.getLsbD p = true) ∧
      (∀ k, k / 2 ≠ p.val → linkOf t k = linkOf s k) ∧ Frame (portRegs p) [.links, .board] s t := by
  have hidle := (stopLinks_frame s p).trans (idlePort_frame (stopLinks s p) p (by simp))
  have hframe := setPortEn_trans hidle
  have hop : opPortDisable s p = idlePort (stopLinks s p) p := opPortDisable_of_enabled hen
  have hsame := sameLink_idlePort (stopLinks s p) p
  refine ⟨idlePort (stopLinks s p) p, ?_, portEn_of_setPortEn_frame hidle, fun k hk => ?_, fun hoff => ?_,
    fun k hk => (hsame k).1.trans (stopLinks_others s hk).1, hframe⟩
  · rw [exec_weftPortDisable_eq, effect_portPage_of_open h5 hreset (hop.symm ▸ hframe), hop]
  · rw [(hsame k).1, (hsame k).2]
    exact stopLinks_mem s hk
  · refine wfIdle_idlePort p.isLt fun k hk => ?_
    rw [portLinks_stopLinks] at hk
    obtain ⟨hworks, hstop⟩ := hoff k hk
    rw [(stopLinks_mem s hk).1, if_neg (by simp [hworks, hstop])]

end Ports

/-- Settles O45: the rows of a port fold one update over its links, and LINK_TRAINED leaves the link UP, DOWN or DEGRADED, as its training found it. -/
theorem weftPorts : Obligations.WeftPorts := by
  intro s
  refine ⟨fun p => ⟨fun h5 => ?_, fun hreset h5 => ?_, fun hreset h5 => ⟨?_, ?_, ?_, ?_, ?_⟩⟩, fun k rep ho => ⟨?_, ?_, ?_, ?_⟩,
    fun k => ⟨?_, ?_⟩⟩
  · exact ⟨effect_portPage_of_s5 h5, effect_portPage_of_s5 h5⟩
  · exact ⟨effect_portPage_of_resetting h5 hreset, effect_portPage_of_resetting h5 hreset⟩
  · exact exec_weftPortEnable_of_enabled h5 hreset
  · intro hen hstop
    obtain ⟨t, hexec, hport, hidle, hlinks, hothers, hframe⟩ :=
      exec_weftPortEnable_of_free h5 hreset (Bool.eq_false_iff.mpr hen) (Bool.eq_false_iff.mpr hstop)
    refine ⟨t, hexec, hport, hidle, fun k hk => ?_, hothers, hframe⟩
    obtain ⟨hstate, hrecord⟩ := hlinks k hk
    rw [hrecord]
    exact ⟨hstate, rfl, rfl, rfl, rfl, rfl, rfl⟩
  · exact fun hen hstop => exec_weftPortEnable_of_stopping h5 hreset (Bool.eq_false_iff.mpr hen) hstop
  · exact fun hen => exec_weftPortDisable_of_disabled h5 hreset (Bool.eq_false_iff.mpr hen)
  · exact exec_weftPortDisable_of_enabled h5 hreset
  · exact exec_linkTrained_of_not_training
  · exact exec_linkTrained_of_whole ho
  · exact exec_linkTrained_of_failed ho
  · exact exec_linkTrained_of_half ho
  · exact exec_linkTrainRetry_of_not_due
  · intro hdue
    refine ⟨_, exec_linkTrainRetry_of_due hdue, linkState_startTraining_self _ _, ?_, ?_, ?_, ?_, ?_,
      wfIdle_startTraining _ rfl (by omega), fun j => linkOf_retryLink_of_ne s, retryLink_frame s k⟩
    all_goals
      rw [linkOf_retryLink_self]
      rfl

end Sys2Proof.Machine

/-! Number formats: what rounding to a format does to an exact magnitude (R38, R39), and the stored encodings and their values (R25, R27, R36). -/

namespace Sys2Proof.Machine

section Rounding

variable {f : FSpec} {rm : Rnd} {m : Nat} {e : Int}

/-- The exponent of one unit of the format's grid where the magnitude m × 2^e lies. -/
def FSpec.gridExp (f : FSpec) (m : Nat) (e : Int) : Int := max ((Nat.log2 m : Int) + e) f.emin - f.mb

/-- The low bits of m that lie below one unit of the format's grid. -/
def FSpec.cutBits (f : FSpec) (m : Nat) (e : Int) : Nat := (f.gridExp m e - e).toNat

-- ## A magnitude against the format's grid

theorem roundMag_of_fits (h : f.gridExp m e ≤ e) (more : Bool) :
    roundMag f rm m e more = (m * 2 ^ (e - f.gridExp m e).toNat, f.gridExp m e, more) := by
  unfold FSpec.gridExp at h ⊢
  simp only [roundMag, if_pos h, shl]

theorem roundMag_of_cut (h : e < f.gridExp m e) :
    roundMag f rm m e false =
      (m / 2 ^ f.cutBits m e + b2n (roundsUp rm (m / 2 ^ f.cutBits m e) (m % 2 ^ f.cutBits m e) (f.cutBits m e) false),
        f.gridExp m e, decide (m % 2 ^ f.cutBits m e ≠ 0)) := by
  unfold FSpec.cutBits FSpec.gridExp at *
  simp only [roundMag, if_neg (Int.not_le.mpr h), Bool.or_false]

/-- What is kept of a magnitude has no more bits than the format's significand. -/
theorem div_cutBits_lt : m / 2 ^ f.cutBits m e < 2 ^ (f.mb + 1) := by
  have hbits : m.log2 + 1 ≤ f.mb + 1 + f.cutBits m e := by
    unfold FSpec.cutBits FSpec.gridExp
    omega
  rw [Nat.div_lt_iff_lt_mul (Nat.two_pow_pos _), ← Nat.pow_add]
  exact Nat.lt_of_lt_of_le Nat.lt_log2_self (Nat.pow_le_pow_right Nat.zero_lt_two hbits)

-- ## The direction of each mode

theorem b2n_eq_zero_or_one (b : Bool) : b2n b = 0 ∨ b2n b = 1 := by cases b <;> simp [b2n]

/-- Half a unit of a grid that cuts off at least one bit is a power of two below it. -/
theorem roundsUp_rne_succ (q r n : Nat) :
    roundsUp .rne q r (n + 1) false = (decide (2 ^ n < r) || (decide (r = 2 ^ n) && decide (q % 2 = 1))) := by
  simp [roundsUp]

theorem roundsUp_rne_of_below {q r k : Nat} (h : 2 * r < 2 ^ k) : roundsUp .rne q r k false = false := by
  cases k with
  | zero => simp [roundsUp]
  | succ n =>
    rw [Nat.pow_succ] at h
    rw [roundsUp_rne_succ, decide_eq_false (by omega), decide_eq_false (by omega)]
    rfl

theorem roundsUp_rne_of_above {q r k : Nat} (hk : k ≠ 0) (h : 2 ^ k < 2 * r) : roundsUp .rne q r k false = true := by
  obtain ⟨n, rfl⟩ := Nat.exists_eq_succ_of_ne_zero hk
  rw [Nat.succ_eq_add_one, Nat.pow_succ] at h
  rw [Nat.succ_eq_add_one, roundsUp_rne_succ, decide_eq_true (by omega), Bool.true_or]

/-- A tie moves an odd significand and keeps an even one (R38). -/
theorem roundsUp_rne_of_tie {q r k : Nat} (hk : k ≠ 0) (h : 2 * r = 2 ^ k) : roundsUp .rne q r k false = decide (q % 2 = 1) := by
  obtain ⟨n, rfl⟩ := Nat.exists_eq_succ_of_ne_zero hk
  rw [Nat.succ_eq_add_one, Nat.pow_succ] at h
  rw [Nat.succ_eq_add_one, roundsUp_rne_succ, decide_eq_false (by omega), decide_eq_true (by omega), Bool.false_or, Bool.true_and]

theorem cutBits_ne_zero (h : e < f.gridExp m e) : f.cutBits m e ≠ 0 := by
  unfold FSpec.cutBits
  omega

/-- RNE takes the nearer neighbour, and of two equally near the even one (R38). -/
theorem roundMag_rne_of_cut (h : e < f.gridExp m e) :
    let q := m / 2 ^ f.cutBits m e
    let d := m % 2 ^ f.cutBits m e
    ∃ q1, roundMag f .rne m e false = (q1, f.gridExp m e, decide (d ≠ 0)) ∧ (q1 = q ∨ q1 = q + 1) ∧
      (2 * d < 2 ^ f.cutBits m e → q1 = q) ∧ (2 ^ f.cutBits m e < 2 * d → q1 = q + 1) ∧ (2 * d = 2 ^ f.cutBits m e → q1 % 2 = 0) := by
  have hk := cutBits_ne_zero h
  refine ⟨_, roundMag_of_cut h, ?_, fun hbelow => ?_, fun habove => ?_, fun htie => ?_⟩
  · exact (b2n_eq_zero_or_one _).imp (fun h => by rw [h, Nat.add_zero]) (fun h => by rw [h])
  · rw [roundsUp_rne_of_below hbelow]; rfl
  · rw [roundsUp_rne_of_above hk habove]; rfl
  · rw [roundsUp_rne_of_tie hk htie]
    rcases Nat.mod_two_eq_zero_or_one (m / 2 ^ f.cutBits m e) with hq | hq <;> simp [b2n, hq, Nat.add_mod]

theorem roundsUp_sr (x q r k : Nat) (more : Bool) : roundsUp (.sr x) q r k more = decide (x < r * 2 ^ 32 / 2 ^ k) := rfl

/-- SR moves away from zero where the random bits lie below the discarded fraction in 32 bits (R39). -/
theorem roundMag_sr_of_cut (h : e < f.gridExp m e) (x : Nat) :
    let q := m / 2 ^ f.cutBits m e
    let d := m % 2 ^ f.cutBits m e
    ∃ q1, roundMag f (.sr x) m e false = (q1, f.gridExp m e, decide (d ≠ 0)) ∧
      (x < d * 2 ^ 32 / 2 ^ f.cutBits m e → q1 = q + 1) ∧ (d * 2 ^ 32 / 2 ^ f.cutBits m e ≤ x → q1 = q) := by
  refine ⟨_, roundMag_of_cut h, fun hlt => ?_, fun hle => ?_⟩
  · rw [roundsUp_sr, decide_eq_true hlt]; rfl
  · rw [roundsUp_sr, decide_eq_false (Nat.not_lt.mpr hle)]; rfl

-- ## A rounding point with its flags

/-- A non-zero magnitude at a rounding point: beyond the largest finite value it overflows; otherwise it is the rounded magnitude, but under FTZ a zero where that is subnormal (R36, R38, R41). -/
theorem runFM_roundFin {q : Nat} {u : Int} {inx : Bool} (c : RCtl) (s : Bool) (hm : m ≠ 0) (hr : roundMag f c.rm m e false = (q, u, inx)) :
    runFM (roundFin f c s m e false) =
      if beyondMax f q u then (if c.sat || !f.hasInf || decide (c.rm = .rtz) then .fin s f.maxM f.maxE else .inf s, fOverflow ||| fInexact)
      else if q = 0 || belowNormal f q u then
        (if c.ftz then (.fin s 0 0, fUnderflow ||| fInexact) else (.fin s q u, if inx then fUnderflow ||| fInexact else 0))
      else (.fin s q u, if inx then fInexact else 0) := by
  simp only [roundFin, hm, hr, decide_false, Bool.false_and, Bool.false_eq_true, if_false]
  cases beyondMax f q u with
  | true => rfl
  | false =>
    cases decide (q = 0) || belowNormal f q u with
    | true => cases c.ftz <;> cases inx <;> rfl
    | false => cases inx <;> rfl

/-- OVERFLOW is raised exactly where the rounded magnitude exceeds the largest finite value (R41). -/
theorem overflow_roundFin (c : RCtl) (s : Bool) (hm : m ≠ 0) :
    (runFM (roundFin f c s m e false)).2.getLsbD 2 = beyondMax f (roundMag f c.rm m e false).1 (roundMag f c.rm m e false).2.1 := by
  obtain ⟨⟨q, u, inx⟩, hr⟩ : ∃ x, roundMag f c.rm m e false = x := ⟨_, rfl⟩
  rw [runFM_roundFin c s hm hr, hr]
  split
  case isTrue hbeyond => simp [hbeyond, fOverflow, fInexact]
  case isFalse hbeyond =>
    split
    · cases c.ftz <;> cases inx <;> simp [hbeyond, fUnderflow, fInexact]
    · cases inx <;> simp [hbeyond, fInexact]

end Rounding

/-- Settles O60: the grid of the format cuts the magnitude into q and the rest d, and each mode decides between q and q + 1 by d. -/
theorem rounding : Obligations.Rounding := by
  intro f m e hm
  refine ⟨fun hfits rm => ⟨_, roundMag_of_fits hfits false, rfl⟩, fun hcut => ⟨?_, ?_, ?_, ?_, ?_, ?_⟩, fun s => overflow_roundFin _ s hm⟩
  · exact Nat.div_add_mod' _ _
  · exact Nat.mod_lt _ (Nat.two_pow_pos _)
  · exact div_cutBits_lt
  · exact roundMag_of_cut hcut
  · exact roundMag_rne_of_cut hcut
  · exact roundMag_sr_of_cut hcut

section Encodings

variable {f : FSpec} {m ex code w : Nat} {e : Int}

/-- The sign bit of an encoding. -/
def FSpec.signField (f : FSpec) (w : Nat) : Bool := bitOf w (f.eb + f.mb)

/-- The exponent field of an encoding. -/
def FSpec.expField (f : FSpec) (w : Nat) : Nat := w / 2 ^ f.mb % 2 ^ f.eb

/-- The mantissa field of an encoding. -/
def FSpec.manField (f : FSpec) (w : Nat) : Nat := w % 2 ^ f.mb

/-- The encoding with these three fields. -/
def FSpec.pack (f : FSpec) (s : Bool) (ex mt : Nat) : Nat := b2n s * 2 ^ (f.eb + f.mb) + ex * 2 ^ f.mb + mt

/-- The largest exponent field of a finite value: all ones stands for infinities and NaNs where the format has infinities. -/
def FSpec.topField (f : FSpec) : Nat := 2 ^ f.eb - 1 - b2n f.hasInf

/-- The exponent of the least bit of a normal value with this exponent field. -/
def FSpec.unitExp (f : FSpec) (ex : Nat) : Int := (ex : Int) - f.bias - f.mb

/-- The exponent of the least bit of every subnormal value. -/
def FSpec.subExp (f : FSpec) : Int := f.emin - f.mb

-- ## The fields of an encoding

theorem manField_lt (f : FSpec) (w : Nat) : f.manField w < 2 ^ f.mb := Nat.mod_lt _ (Nat.two_pow_pos _)

theorem expField_lt (f : FSpec) (w : Nat) : f.expField w < 2 ^ f.eb := Nat.mod_lt _ (Nat.two_pow_pos _)

theorem b2n_bitOf (w i : Nat) : b2n (bitOf w i) = w / 2 ^ i % 2 := by
  rcases Nat.mod_two_eq_zero_or_one (w / 2 ^ i) with h | h <;> simp [bitOf, b2n, h]

/-- An encoding is made of its three fields (R25). -/
theorem pack_fields (h : w < 2 ^ (f.eb + f.mb + 1)) : f.pack (f.signField w) (f.expField w) (f.manField w) = w := by
  have hsign : b2n (f.signField w) = w / 2 ^ (f.eb + f.mb) := by
    rw [FSpec.signField, b2n_bitOf, Nat.mod_eq_of_lt]
    exact Nat.div_lt_of_lt_mul (by rwa [Nat.pow_succ] at h)
  have hexp := Nat.div_add_mod' (w / 2 ^ f.mb) (2 ^ f.eb)
  rw [Nat.div_div_eq_div_mul, ← Nat.pow_add, Nat.add_comm f.mb f.eb] at hexp
  calc f.pack (f.signField w) (f.expField w) (f.manField w)
      = (w / 2 ^ (f.eb + f.mb) * 2 ^ f.eb + w / 2 ^ f.mb % 2 ^ f.eb) * 2 ^ f.mb + w % 2 ^ f.mb := by
        rw [FSpec.pack, hsign, Nat.pow_add, FSpec.expField, FSpec.manField, ← Nat.mul_assoc, ← Nat.add_mul]
    _ = w := by rw [hexp, Nat.div_add_mod']

theorem elemBits_eq_fields (h : code < 10) : elemBits code = (fspec code).eb + (fspec code).mb + 1 := by
  revert code; decide

/-- The largest finite value of every stored format (R25) has the largest exponent field of a finite value, and a significand of the format's full width. -/
theorem fspec_largest (h : code < 10) : (fspec code).maxE = (fspec code).unitExp (fspec code).topField ∧ 2 ^ (fspec code).mb ≤ (fspec code).maxM ∧
    1 < (fspec code).topField := by
  revert code; decide

/-- All significands of that width are finite values but in E4M3, where the largest is the NaN's (R25). -/
theorem fspec_maxM (h : code < 10) (h43 : ¬(code = 3 ∨ code = 5)) : (fspec code).maxM + 1 = 2 ^ ((fspec code).mb + 1) := by
  revert code; decide

theorem decFloat_eq (code w : Nat) :
    decFloat code w =
      if (code = 3 ∨ code = 5) ∧ (fspec code).expField w = 15 ∧ (fspec code).manField w = 7 then .nan
      else if (fspec code).hasInf ∧ (fspec code).expField w = 2 ^ (fspec code).eb - 1 then
        (if (fspec code).manField w = 0 then .inf ((fspec code).signField w) else .nan)
      else if (fspec code).expField w = 0 then .fin ((fspec code).signField w) ((fspec code).manField w) (fspec code).subExp
      else .fin ((fspec code).signField w) ((fspec code).manField w + 2 ^ (fspec code).mb) ((fspec code).unitExp ((fspec code).expField w)) := rfl

/-- The exponent field of an encoding that is no infinity's and no NaN's is at most the largest one, and there the significand is at most the largest one. -/
theorem finite_fields_le (hcode : code < 10) (hnan : ¬((code = 3 ∨ code = 5) ∧ (fspec code).expField w = 15 ∧ (fspec code).manField w = 7))
    (hinf : ¬((fspec code).hasInf ∧ (fspec code).expField w = 2 ^ (fspec code).eb - 1)) :
    (fspec code).expField w < (fspec code).topField ∨
      (fspec code).expField w = (fspec code).topField ∧ (fspec code).manField w + 2 ^ (fspec code).mb ≤ (fspec code).maxM := by
  have hexp := expField_lt (fspec code) w
  have hman := manField_lt (fspec code) w
  have htop : (fspec code).expField w ≤ (fspec code).topField := by
    unfold FSpec.topField
    cases h : (fspec code).hasInf with
    | false => simp only [b2n, Bool.false_eq_true, if_false]; omega
    | true => simp only [b2n, h, true_and] at hinf ⊢; simp only [if_true]; omega
  rcases Nat.lt_or_eq_of_le htop with hlt | heq
  · exact .inl hlt
  refine .inr ⟨heq, ?_⟩
  by_cases h43 : code = 3 ∨ code = 5
  · obtain ⟨hmb, hmax, htop15⟩ : (fspec code).mb = 3 ∧ (fspec code).maxM = 14 ∧ (fspec code).topField = 15 := by
      rcases h43 with rfl | rfl <;> decide
    have hsig : (fspec code).manField w ≠ 7 := fun h7 => hnan ⟨h43, heq.trans htop15, h7⟩
    rw [hmb] at hman ⊢
    omega
  · have hmax := fspec_maxM hcode h43
    rw [Nat.pow_succ] at hmax
    omega

theorem decFloat_of_expField_zero (hcode : code < 10) (hexp : (fspec code).expField w = 0) :
    decFloat code w = .fin ((fspec code).signField w) ((fspec code).manField w) (fspec code).subExp := by
  have hones : 0 ≠ 2 ^ (fspec code).eb - 1 := by
    have := (fspec_largest hcode).2.2
    unfold FSpec.topField at this
    omega
  simp [decFloat_eq, hexp, hones]

theorem subElem_iff (hcode : code < 10) : subElem code w = true ↔ (fspec code).expField w = 0 ∧ (fspec code).manField w ≠ 0 := by
  have hint : isInt code = false := by revert code; decide
  simp [subElem, hint, FSpec.expField, FSpec.manField]

-- ## Representable magnitudes

/-- A magnitude of no more bits than the significand lies on the subnormal grid at its least exponent. -/
theorem gridExp_subExp (h0 : m ≠ 0) (h : m < 2 ^ f.mb) : f.gridExp m f.subExp = f.subExp := by
  have hlog := (Nat.log2_lt h0).mpr h
  unfold FSpec.gridExp FSpec.subExp
  omega

theorem significand_ne_zero (f : FSpec) (m : Nat) : m + 2 ^ f.mb ≠ 0 := Nat.ne_of_gt (Nat.add_pos_right m (Nat.two_pow_pos f.mb))

theorem log2_significand (h : m < 2 ^ f.mb) : (m + 2 ^ f.mb).log2 = f.mb := by
  rw [Nat.log2_eq_iff (significand_ne_zero f m), Nat.pow_succ]
  omega

theorem gridExp_unitExp (h : m < 2 ^ f.mb) (hex : 0 < ex) : f.gridExp (m + 2 ^ f.mb) (f.unitExp ex) = f.unitExp ex := by
  rw [FSpec.gridExp, log2_significand h]
  unfold FSpec.unitExp FSpec.emin
  omega

theorem roundMag_of_onGrid {rm : Rnd} (h : f.gridExp m e = e) : roundMag f rm m e false = (m, e, false) := by
  rw [roundMag_of_fits (Int.le_of_eq h), h, Int.sub_self, Int.toNat_zero, Nat.pow_zero, Nat.mul_one]

theorem belowNormal_subExp (h : m < 2 ^ f.mb) : belowNormal f m f.subExp = true := by
  have hmin : min f.subExp f.emin = f.subExp := by unfold FSpec.subExp; omega
  have hgap : f.emin - f.subExp = f.mb := by unfold FSpec.subExp; omega
  simp [belowNormal, shl, hmin, hgap, h]

theorem belowNormal_unitExp (hex : 0 < ex) : belowNormal f (m + 2 ^ f.mb) (f.unitExp ex) = false := by
  rw [belowNormal, decide_eq_false_iff_not, Nat.not_lt, shl, shl, Nat.one_mul]
  have hgap : (f.emin - min (f.unitExp ex) f.emin).toNat ≤ f.mb := by unfold FSpec.unitExp FSpec.emin; omega
  calc 2 ^ (f.emin - min (f.unitExp ex) f.emin).toNat
      ≤ 2 ^ f.mb := Nat.pow_le_pow_right Nat.zero_lt_two hgap
    _ ≤ m + 2 ^ f.mb := Nat.le_add_left _ _
    _ ≤ _ := Nat.le_mul_of_pos_right _ (Nat.two_pow_pos _)

theorem beyondMax_of_le (he : e ≤ f.maxE) (hm : m ≤ f.maxM) : beyondMax f m e = false := by
  rw [beyondMax, decide_eq_false_iff_not, Nat.not_lt, Int.min_eq_right he, shl, shl, Int.sub_self, Int.toNat_zero, Nat.pow_zero, Nat.mul_one]
  exact Nat.le_trans hm (Nat.le_mul_of_pos_right _ (Nat.two_pow_pos _))

/-- One binade below the largest, a significand may be up to twice the largest one. -/
theorem beyondMax_of_lt (he : e < f.maxE) (hm : m ≤ 2 * f.maxM) : beyondMax f m e = false := by
  rw [beyondMax, decide_eq_false_iff_not, Nat.not_lt, Int.min_eq_right (Int.le_of_lt he), shl, shl, Int.sub_self, Int.toNat_zero,
    Nat.pow_zero, Nat.mul_one]
  calc m ≤ f.maxM * 2 ^ 1 := by omega
    _ ≤ f.maxM * 2 ^ (f.maxE - e).toNat := Nat.mul_le_mul_left _ (Nat.pow_le_pow_right Nat.zero_lt_two (by omega))

theorem beyondMax_of_finite_fields (hcode : code < 10)
    (h : (fspec code).expField w < (fspec code).topField ∨
      (fspec code).expField w = (fspec code).topField ∧ (fspec code).manField w + 2 ^ (fspec code).mb ≤ (fspec code).maxM) :
    beyondMax (fspec code) ((fspec code).manField w + 2 ^ (fspec code).mb) ((fspec code).unitExp ((fspec code).expField w)) = false := by
  obtain ⟨hmaxE, hmaxM, -⟩ := fspec_largest hcode
  rcases h with hlt | ⟨htop, hle⟩
  · refine beyondMax_of_lt (by rw [hmaxE]; unfold FSpec.unitExp; omega) ?_
    have := manField_lt (fspec code) w
    omega
  · exact beyondMax_of_le (Int.le_of_eq (by rw [hmaxE, htop])) hle

/-- What a stored encoding stands for (R25): a NaN, an infinity, a multiple of the least subnormal, or a normal value no larger than the format's largest. -/
theorem decFloat_cases (hcode : code < 10) (w : Nat) :
    decFloat code w = .nan ∨
    ((fspec code).expField w = 2 ^ (fspec code).eb - 1 ∧ (fspec code).manField w = 0 ∧ decFloat code w = .inf ((fspec code).signField w)) ∨
    ((fspec code).expField w = 0 ∧ decFloat code w = .fin ((fspec code).signField w) ((fspec code).manField w) (fspec code).subExp) ∨
    (0 < (fspec code).expField w ∧
      decFloat code w = .fin ((fspec code).signField w) ((fspec code).manField w + 2 ^ (fspec code).mb) ((fspec code).unitExp ((fspec code).expField w)) ∧
      beyondMax (fspec code) ((fspec code).manField w + 2 ^ (fspec code).mb) ((fspec code).unitExp ((fspec code).expField w)) = false) := by
  rw [decFloat_eq]
  split
  case isTrue => exact .inl rfl
  case isFalse hnan =>
    split
    case isTrue hinf =>
      split
      case isTrue hman => exact .inr (.inl ⟨hinf.2, hman, rfl⟩)
      case isFalse => exact .inl rfl
    case isFalse hinf =>
      split
      case isTrue hexp => exact .inr (.inr (.inl ⟨hexp, rfl⟩))
      case isFalse hexp =>
        exact .inr (.inr (.inr ⟨Nat.pos_of_ne_zero hexp, rfl, beyondMax_of_finite_fields hcode (finite_fields_le hcode hnan hinf)⟩))

-- ## A representable value at a rounding point

theorem runFM_roundTo_zero (c : RCtl) (s : Bool) : runFM (roundTo f c (.fin s 0 e)) = (.fin s 0 0, 0) := rfl

theorem runFM_roundTo_inf (c : RCtl) (s : Bool) : runFM (roundTo f c (.inf s)) = (.inf s, 0) := rfl

/-- A magnitude on the grid that the format reaches is taken as it is, in every mode and without a flag (R38). -/
theorem runFM_roundTo_of_onGrid {c : RCtl} (s : Bool) (hm : m ≠ 0) (hgrid : f.gridExp m e = e) (hmax : beyondMax f m e = false)
    (hftz : c.ftz = false ∨ belowNormal f m e = false) : runFM (roundTo f c (.fin s m e)) = (.fin s m e, 0) := by
  rw [roundTo, runFM_roundFin c s hm (roundMag_of_onGrid hgrid)]
  rcases hftz with h | h <;> simp [h, hmax, hm]

/-- Under FTZ a subnormal is a zero of its sign, with UNDERFLOW and INEXACT (R36). -/
theorem runFM_roundTo_of_ftz {c : RCtl} (s : Bool) (hm : m ≠ 0) (hgrid : f.gridExp m e = e) (hmax : beyondMax f m e = false)
    (hftz : c.ftz = true) (hsub : belowNormal f m e = true) : runFM (roundTo f c (.fin s m e)) = (.fin s 0 0, fUnderflow ||| fInexact) := by
  rw [roundTo, runFM_roundFin c s hm (roundMag_of_onGrid hgrid)]
  simp [hftz, hmax, hsub]

-- ## Encoding

theorem encFloat_inf (code : Nat) (s : Bool) : encFloat code (.inf s) = (fspec code).pack s (2 ^ (fspec code).eb - 1) 0 := rfl

theorem encFloat_zero (code : Nat) (s : Bool) (e : Int) : encFloat code (.fin s 0 e) = (fspec code).pack s 0 0 := by
  simp [encFloat, FSpec.pack]

theorem encFloat_subnormal (s : Bool) (h0 : m ≠ 0) (h : m < 2 ^ (fspec code).mb) :
    encFloat code (.fin s m (fspec code).subExp) = (fspec code).pack s 0 m := by
  have hlog := (Nat.log2_lt h0).mpr h
  have hlow : (m.log2 : Int) + (fspec code).subExp < (fspec code).emin := by unfold FSpec.subExp; omega
  have hgrid : (fspec code).subExp - ((fspec code).emin - (fspec code).mb) = 0 := Int.sub_self _
  simp only [encFloat, if_neg h0, if_pos hlow, hgrid, shl, Int.le_refl, if_true, Int.toNat_zero, Nat.pow_zero, Nat.mul_one,
    FSpec.pack, Nat.zero_mul, Nat.add_zero]

theorem encFloat_normal (s : Bool) (h : m < 2 ^ (fspec code).mb) (hex : 0 < ex) :
    encFloat code (.fin s (m + 2 ^ (fspec code).mb) ((fspec code).unitExp ex)) = (fspec code).pack s ex m := by
  have hhigh : ¬ ((fspec code).mb : Int) + (fspec code).unitExp ex < (fspec code).emin := by unfold FSpec.unitExp FSpec.emin; omega
  have hfield : ((fspec code).mb + (fspec code).unitExp ex + (fspec code).bias).toNat = ex := by unfold FSpec.unitExp; omega
  have hgrid : (fspec code).unitExp ex - (((fspec code).mb + (fspec code).unitExp ex) - (fspec code).mb) = 0 := by omega
  simp only [encFloat, if_neg (significand_ne_zero (fspec code) m), log2_significand h, if_neg hhigh, hfield, hgrid, shl,
    Int.le_refl, if_true, Int.toNat_zero, Nat.pow_zero, Nat.mul_one, Nat.add_sub_cancel, FSpec.pack]

end Encodings

section StoredValues

variable {code w : Nat}

/-- Every encoding that is no NaN is the encoding of the value it stands for (R25). -/
theorem encFloat_decFloat (hcode : code < 10) (hw : w < 2 ^ elemBits code) (hnum : decFloat code w ≠ .nan) :
    encFloat code (decFloat code w) = w := by
  have hpack := pack_fields (elemBits_eq_fields hcode ▸ hw)
  have hman := manField_lt (fspec code) w
  rcases decFloat_cases hcode w with hnan | ⟨hexp, hzero, hdec⟩ | ⟨hexp, hdec⟩ | ⟨hexp, hdec, -⟩
  · exact absurd hnan hnum
  · rw [hdec, encFloat_inf, ← hexp, ← hzero, hpack]
  · rw [hexp] at hpack
    by_cases h0 : (fspec code).manField w = 0
    · rw [h0] at hpack
      rw [hdec, h0, encFloat_zero, hpack]
    · rw [hdec, encFloat_subnormal _ h0 hman, hpack]
  · rw [hdec, encFloat_normal _ hman hexp, hpack]

/-- The least exponent is far below the largest: no subnormal overflows. -/
theorem beyondMax_subExp {m : Nat} (hcode : code < 10) (h : m < 2 ^ (fspec code).mb) : beyondMax (fspec code) m (fspec code).subExp = false := by
  obtain ⟨hmaxE, hmaxM, htop⟩ := fspec_largest hcode
  refine beyondMax_of_le ?_ (Nat.le_trans (Nat.le_of_lt h) hmaxM)
  rw [hmaxE]
  unfold FSpec.subExp FSpec.unitExp FSpec.emin
  omega

/-- A value that the format represents rounds to a value of the same encoding without a flag, where FTZ does not act on it (R36, R38). -/
theorem roundTo_decFloat (hcode : code < 10) (hnum : decFloat code w ≠ .nan) (c : RCtl) (hftz : c.ftz = false ∨ subElem code w = false) :
    ∃ x, runFM (roundTo (fspec code) c (decFloat code w)) = (x, 0) ∧ encFloat code x = encFloat code (decFloat code w) := by
  have hman := manField_lt (fspec code) w
  rcases decFloat_cases hcode w with hnan | ⟨-, -, hdec⟩ | ⟨hexp, hdec⟩ | ⟨hexp, hdec, hmax⟩
  · exact absurd hnan hnum
  · rw [hdec]
    exact ⟨_, runFM_roundTo_inf c _, rfl⟩
  · rw [hdec]
    by_cases h0 : (fspec code).manField w = 0
    · rw [h0]
      exact ⟨_, runFM_roundTo_zero c _, by rw [encFloat_zero, encFloat_zero]⟩
    · have hoff := hftz.resolve_right (by simp [(subElem_iff hcode).mpr ⟨hexp, h0⟩])
      exact ⟨_, runFM_roundTo_of_onGrid _ h0 (gridExp_subExp h0 hman) (beyondMax_subExp hcode hman) (.inl hoff), rfl⟩
  · rw [hdec]
    exact ⟨_, runFM_roundTo_of_onGrid _ (significand_ne_zero _ _) (gridExp_unitExp hman hexp) hmax (.inr (belowNormal_unitExp hexp)), rfl⟩

/-- A subnormal at a rounding point with FTZ (R36). -/
theorem roundTo_decFloat_of_ftz (hcode : code < 10) {c : RCtl} (hftz : c.ftz = true) (hsub : subElem code w = true) :
    runFM (roundTo (fspec code) c (decFloat code w)) = (.fin (isNeg (decFloat code w)) 0 0, fUnderflow ||| fInexact) := by
  obtain ⟨hexp, h0⟩ := (subElem_iff hcode).mp hsub
  have hman := manField_lt (fspec code) w
  rw [decFloat_of_expField_zero hcode hexp]
  exact runFM_roundTo_of_ftz _ h0 (gridExp_subExp h0 hman) (beyondMax_subExp hcode hman) hftz (belowNormal_subExp hman)

/-- The canonical NaN of a format is a NaN with its sign bit clear (R27). -/
theorem nanBits_canonical (h : code < 5) : decFloat code (nanBits code) = .nan ∧ bitOf (nanBits code) (elemBits code - 1) = false := by
  revert code; decide

end StoredValues

/-- Settles O59: by the fields of an encoding, which is an infinity, a multiple of the least subnormal or a normal value. -/
theorem storedFormats : Obligations.StoredFormats := by
  intro code w hcode hw
  refine ⟨fun hnum => ⟨encFloat_decFloat hcode hw hnum, fun c hftz => ?_, fun c hftz hsub => ?_⟩, fun hnan hlt => ?_⟩
  · obtain ⟨x, hround, henc⟩ := roundTo_decFloat hcode hnum c hftz
    rw [hround]
    exact ⟨henc.trans (encFloat_decFloat hcode hw hnum), rfl⟩
  · rw [roundTo_decFloat_of_ftz hcode hftz hsub]
    exact ⟨rfl, rfl⟩
  · obtain ⟨hcanon, hsign⟩ := nanBits_canonical hlt
    rw [hnan]
    exact ⟨hcanon, rfl, hsign⟩

end Sys2Proof.Machine

/-! A profile record written across the end of a stack (R222, R266, R278): the state that refutes the statement about re-mapping a lost core. -/

namespace Sys2Proof.Machine

-- ## A bolt of a lost core without a spare

/-- The one stage of the bolt: core 0, and no spare to take its rank. -/
def spareless : Stage := { sel := 0, cores := [0], spares := [], chain := false }

/-- A bolt stopped because its core 0 is lost. -/
def lostBolt : Bolt := { stages := [spareless], stop := .lost }

/-- The running entry of loom 0 that holds the bolt. -/
def lostEntry : Entry := { ring := 0, seq := 0, loom := 0, bytes := [1], fetchTime := 0, phase := .running, bolt := some lostBolt }

/-- The first byte of stack 0's slot of the local map that holds no memory (R278). -/
def stackEnd : Nat := 0x1800000000

/-- Core 0 is lost, having completed a PROFILE operation (R222). Loom 0 may write 64 KiB beyond the end of stack 0 through its window 0, a window that R266 forbids (`winBad`); the bolt's PROFILE_ADDR lies 4 bytes before that end. -/
def straddling : State :=
  { State.reset with
    live := [(loomKey 0 0x208, 0x180001), (loomKey 0 0x20C, 7)]
    mem := cputs [] (storeAt lostBolt 72) (toLe 8 (stackEnd - 4))
    cores := [(0, { retired := true, profDone := 1 })]
    entries := [lostEntry] }

-- ## The premises of the clause without a spare

theorem straddling_atWork : atWork straddling := ⟨rfl, fun _ => Nat.zero_lt_succ _⟩

theorem straddling_first_ready :
    (coreOf straddling 0).retired = true ∧ ((usersOf straddling 0).find? fun p => remapReady straddling p.2) = some (lostEntry, lostBolt) ∧
      stageOf lostBolt 0 = some (0, 0, spareless) ∧ pickSpare straddling 0 spareless 0 = none := by decide +kernel

theorem straddling_accessesServed :
    (let s1 := remapRound (fresh straddling) 0 none (some lostEntry.id)
     accessesServed (finishBolt (setRing s1 0 { ringOf s1 0 with lost := true }) lostEntry lostBolt 6)) := by
  unfold accessesServed
  decide +kernel

-- ## The byte beyond the stack

/-- No line is held outside, so every byte is the part's own (R325). -/
theorem straddling_ownByte (a : Nat) : ownByte straddling a := by
  intro p hp
  cases hp

theorem stackEnd_hole : placeOf straddling stackEnd = .hole := by decide +kernel

/-- No access to a hole is allowed (R271), and no loom exports memory. -/
theorem stackEnd_outOfReach : outOfReach straddling 0 stackEnd := by
  unfold outOfReach
  refine ⟨?_, by decide +kernel⟩
  have htap : isTap stackEnd = false := by decide
  simp [allowed, htap, localAllowed, stackEnd_hole]

/-- Byte 4 of the profile record, the number of PROFILE operations, lands in the hole (R222). -/
theorem coreRemap_writes_stackEnd :
    ∃ t, exec (.coreRemap 0) straddling = .next t ∧ cget straddling.mem stackEnd = 0 ∧ cget t.mem stackEnd = 1 :=
  ⟨_, rfl, by decide +kernel, by decide +kernel⟩

/-- Refutes O41: the clause that a bolt's end writes only what its loom may reach fails in a state whose window reaches past the end of a stack, which R266 forbids and the statement does not exclude: only the first byte of a profile record is looked up in the local map. -/
theorem not_coreRemap : ¬ Obligations.CoreRemap := by
  intro h
  obtain ⟨hretired, hfirst, hstage, hspare⟩ := straddling_first_ready
  obtain ⟨-, -, hready⟩ := h straddling 0 straddling_atWork
  obtain ⟨-, hlost⟩ := hready lostEntry lostBolt 0 0 spareless hretired hfirst (by decide) hstage
  obtain ⟨t, ht, -, -, -, hstores, -⟩ := hlost (.inl hspare) straddling_accessesServed
  obtain ⟨u, hu, hbefore, hafter⟩ := coreRemap_writes_stackEnd
  obtain rfl : t = u := by injection ht.symm.trans hu
  have hkept := hstores stackEnd (straddling_ownByte _) stackEnd_outOfReach (by simp)
  rw [hbefore, hafter] at hkept
  exact absurd hkept (by decide)

end Sys2Proof.Machine

/-! A bobbin moved across the end of a stack (R169, R170, R266, R278): the states that refute the statements about attention and about the spill engine. -/

namespace Sys2Proof.Machine

-- ## A bobbin whose new place reaches past the end of its stack

/-- A bobbin on its way from tier 2 to tier 1: its new place begins 256 bytes before the end of stack 0 and is 512 bytes long. -/
def overhang : Move := { loom := 0, ent := 0x2000, src := 0x8000, srcTier := 2, dst := stackEnd - 256, dstTier := 1, len := 512 }

/-- Loom 0 has the window of `straddling`, and the bobbin holds a 1 in the byte that the move carries to `stackEnd`; no bolt runs. -/
def aboutToMove : State := { straddling with mem := cputs [] (overhang.src + 256) [1], cores := [], entries := [] }

/-- The spill engine of loom 0 has the move in progress (R170). -/
def spilling : State := setLoom aboutToMove 0 { spill := some overhang }

/-- Core 0 has the move in progress, as a promotion (R169 step 4). -/
def promoting : State := setCore aboutToMove 0 { promo := some overhang }

-- ## The byte beyond the stack

/-- Behind stack 0 lies a hole (R278), so no access that begins there is allowed (R271). -/
theorem not_allowed_stackEnd (s : State) (l n : Nat) (w : Bool) : allowed s l stackEnd n w = false := by
  have htap : isTap stackEnd = false := by decide
  have hhole : placeOf s stackEnd = .hole := by simp [placeOf, stackEnd]
  simp [allowed, htap, localAllowed, hhole]

/-- Stores of a loom that exports nothing leave the byte behind stack 0 as it is, while no line is held outside. -/
theorem LoomStores.stackEnd_eq {s t : State} {l c : Nat} (h : LoomStores s t l [] c) (hdir : s.coh.dir = [])
    (hexp : (expFor s (ownDev s) l stackEnd 1 .write false).1 = none) : cget t.mem stackEnd = cget s.mem stackEnd := by
  have hown : ownByte s stackEnd := by simp [ownByte, hdir]
  exact h stackEnd hown ⟨not_allowed_stackEnd s l 1 true, hexp⟩ (by simp)

/-- A command changes the byte behind stack 0. -/
def ChangesStackEnd (i : Instr) (s : State) : Prop := ∃ t, exec i s = .next t ∧ cget t.mem stackEnd ≠ cget s.mem stackEnd

/-- A command that changes the byte behind stack 0 stores beyond the reach of a loom that exports nothing. -/
theorem ChangesStackEnd.not_loomStores {i : Instr} {s t : State} {l c : Nat} (h : ChangesStackEnd i s) (ht : exec i s = .next t) (hdir : s.coh.dir = [])
    (hexp : (expFor s (ownDev s) l stackEnd 1 .write false).1 = none) : ¬ LoomStores s t l [] c := by
  intro hstores
  obtain ⟨u, hu, hchanged⟩ := h
  obtain rfl : t = u := by injection ht.symm.trans hu
  exact hchanged (hstores.stackEnd_eq hdir hexp)

-- ## The spill engine

theorem spilling_atWork : atWork spilling := ⟨rfl, fun _ => Nat.zero_lt_succ _⟩

/-- The move in progress is finished, and its byte 256 lands in the hole (R170). -/
theorem spillMove_changes_stackEnd : ChangesStackEnd (.spillMove 0) spilling := ⟨_, rfl, by decide +kernel⟩

/-- Refutes O29: the clause that a step of the engine stays within its loom's reach fails in a state whose window reaches past the end of a stack, which R266 forbids and the statement does not exclude: only the first byte of a moved bobbin's new place is looked up in the local map. -/
theorem not_spill : ¬ Obligations.Spill := by
  intro h
  obtain ⟨-, -, -, -, hmove, -⟩ := h spilling 0
  obtain ⟨t, ht, -, hstores, -⟩ := hmove spilling_atWork fun m hm => by
    cases hm
    rfl
  exact spillMove_changes_stackEnd.not_loomStores ht rfl (by decide +kernel) hstores

-- ## A promotion

/-- A unit of work whose accesses are served is done. -/
theorem workUnit_of_served {s t : State} (h : (served t).isSome = true) : ∃ u, workUnit s t = (u, true) :=
  ⟨_, Prod.ext rfl ((workUnit_done s t).trans h)⟩

theorem promoting_atWork : atWork promoting := ⟨rfl, fun _ => Nat.zero_lt_succ _⟩

/-- The promotion waits for nothing: all its accesses are served. -/
theorem promoting_served : (served (finishMove (fresh promoting) (promoWho 0) overhang)).isSome = true := by decide +kernel

/-- The promotion under way is finished, and its byte 256 lands in the hole (R169 step 4). -/
theorem bobbinFetch_changes_stackEnd : ChangesStackEnd (.bobbinFetch 0) promoting := ⟨_, rfl, by decide +kernel⟩

/-- Refutes O28: the clause that a promotion under way stores only within its loom's reach fails in a state whose window reaches past the end of a stack, which R266 forbids and the statement does not exclude: only the first byte of the bobbin's new place is looked up in the local map. -/
theorem not_attention : ¬ Obligations.Attention := by
  intro h
  obtain ⟨-, -, hpromo, -⟩ := h promoting 0
  obtain ⟨u, hserved⟩ := workUnit_of_served (s := promoting) promoting_served
  obtain ⟨t, ht, -, hstores, -⟩ := hpromo overhang u promoting_atWork rfl rfl hserved
  exact bobbinFetch_changes_stackEnd.not_loomStores ht rfl (by decide +kernel) hstores

end Sys2Proof.Machine

/-! A hand-off record across the end of a stack (R241, R266, R278): the state that refutes the statement about picks. -/

namespace Sys2Proof.Machine

-- ## A finished chunk whose hand-off record reaches past the end of its stack

/-- A member of a pick at its only step of its only chunk: its hand-off record begins 32 bytes before the end of stack 0, its output bolt goes to ring 0, and its record names output ring 1. -/
def lastStep : CreelEnt :=
  { reqTag := 9, loom := 0, state := 3, guide := false, prio := 0, cls := 0, batchKey := 0, step := 0, stepCount := 1, refresh := 0, chunk := 0, chunkCount := 1
    rows := 1, schedPtr := 0, latentPtr := 0, condPtr := 0, bobbinPtr := 0, deltaRefPtr := 0, outBoltAddr := 0, outBoltBytes := 0, outSubmit := 0, outRing := 1
    codecCh := 0x80, outParam := BitVec.ofNat 64 (stackEnd - 32), deadline := 0, admitSeq := 0, condKnot := 0xFFFF, condValue := 0, admitTime := 0 }

/-- An issued CREEL_ADVANCE over the pick copy at scratchpad byte 0 (R240). -/
def advanceSlot : Slot := { idx := 0, words := [0x31], issued := true }

/-- The bolt that core 0 runs. -/
def advanceBolt : Bolt := { lostBolt with stop := .none }

/-- The entry of that bolt. -/
def advanceEntry : Entry := { lostEntry with bolt := some advanceBolt }

/-- Core 0 runs the operation over a copy whose COUNT is 1 and whose one member is creel entry 0 at step 0. Loom 0 has the window of `straddling`, which R266 forbids, and ring 0 has room. -/
def handingOff : State :=
  { straddling with
    mem := cputs [] (spAddr 0 8) [1]
    cores := [(0, { bolt := some (0, 0), slots := [advanceSlot], fetchAt := 1 })]
    entries := [advanceEntry]
    rings := [(0, { base := 0x10000, log2 := 4, enable := true })]
    creel := [(0, lastStep)] }

-- ## The premises of the clause about CREEL_ADVANCE

theorem handingOff_atWork : atWork handingOff := ⟨rfl, fun _ => Nat.zero_lt_succ _⟩

theorem handingOff_issued : issuedOp handingOff 0 (isOp 0x31) = some advanceSlot ∧ coreBolt handingOff 0 = some (advanceEntry, advanceBolt) := by
  decide +kernel

/-- The advance waits for nothing: all its accesses are served. -/
theorem handingOff_served :
    (let base := wfld advanceSlot.words 5 17 0 * 128
     let n := min (fieldLe (spRd handingOff 0 base 12) 8 4) 256
     let adv := advanceFrom 0 base advanceEntry.loom advanceSlot (n - advanceSlot.pos) (fresh handingOff) advanceSlot.pos
     accessesServed (partDone adv.1 0 advanceSlot adv.2.1 adv.2.2)) := by
  unfold accessesServed
  decide +kernel

/-- Byte 32 of the hand-off record, which begins the number of the output ring, lands in the hole (R241). -/
theorem creelAdvance_changes_stackEnd : ChangesStackEnd (.creelAdvance 0) handingOff := ⟨_, rfl, by decide +kernel⟩

/-- Refutes O34: the clause that an advance stores only within its loom's reach fails in a state whose window reaches past the end of a stack, which R266 forbids and the statement does not exclude: only the first byte of a hand-off record is looked up in the local map. -/
theorem not_picks : ¬ Obligations.Picks := by
  intro h
  obtain ⟨-, -, -, -, -, -, hadvance⟩ := h handingOff handingOff_atWork
  obtain ⟨hissued, hbolt⟩ := handingOff_issued
  obtain ⟨t, ht, -, -, -, hstores, -⟩ := hadvance 0 advanceSlot advanceEntry advanceBolt hissued hbolt handingOff_served
  exact creelAdvance_changes_stackEnd.not_loomStores ht rfl (by decide +kernel) hstores

end Sys2Proof.Machine

/-! Reads made for a loom (R271, R281, R286, R310, R319, R326): what they change, and what paying for a command's traffic changes (R292-R294). -/

namespace Sys2Proof.Machine

-- ## Reads

section Reads

variable {K : Nat → Prop} {ps : List Part} {s t : State}

/-- The parts that a read for a loom may change: those of an access but memory, its errors, host memory and links. -/
def readParts : List Part := [.stackTab, .ledger, .produced, .msix, .router, .coh, .hostFn, .trip]

theorem readParts_subset_accessParts : ∀ p, p ∈ readParts → p ∈ accessParts := by decide

theorem accessRegs_of_reportRegs {k : Nat} (h : reportRegs k) : accessRegs k := by
  rcases h with rfl | ⟨x, rfl⟩
  · exact .inl (by simp)
  · exact .inr (.inl ⟨x, rfl⟩)

theorem accessRegs_drcKey (st : Nat) {o : Nat} (h : o ∈ [0x10, 0x18, 0x1C, 0x108, 0x10C, 0x110, 0x114]) : accessRegs (drcKey st o) := by
  refine .inr (.inr (.inl ⟨st, ?_⟩))
  simp only [List.mem_cons, List.not_mem_nil, or_false] at h ⊢
  rcases h with rfl | rfl | rfl | rfl | rfl | rfl | rfl <;> simp

theorem accessRegs_pcie {k : Nat} (h : k ∈ [0x300010, 0x300018, 0x30001C]) : accessRegs k := by
  simp only [List.mem_cons, List.not_mem_nil, or_false] at h
  rcases h with rfl | rfl | rfl <;> exact .inl (by simp)

theorem accessRegs_decodes (l : Nat) : accessRegs (loomKey l 0x30) := .inr (.inr (.inr (.inl ⟨l, rfl⟩)))

theorem Frame.needs (h : Frame K ps s t) (hp : Part.trip ∈ ps) (n : Need) : Frame K ps s (needs t n) := by
  unfold Machine.needs
  exact Frame.ite (fun _ => h) fun _ => h.set_trip hp _

theorem Frame.fresh (h : Frame K ps s t) (hp : Part.trip ∈ ps) : Frame K ps s (fresh t) := h.set_trip hp _

theorem Frame.takeReply (h : Frame K ps s t) (hp : Part.router ∈ ps) (w : Who) (l a n : Nat) (wr : Bool) :
    Frame K ps s (takeReply t w l a n wr).1 := by
  unfold Machine.takeReply
  split
  · exact h
  · exact h.set_router hp _

theorem Frame.keepLine (h : Frame K ps s t) (hp : Part.coh ∈ ps) (line : Nat) (x : Line) : Frame K ps s (keepLine t line x) := by
  unfold Machine.keepLine
  exact Frame.ite (fun _ => h.set_coh hp _) fun _ => h.set_coh hp _

theorem Frame.touchLine (h : Frame K ps s t) (hp : Part.coh ∈ ps) (line : Nat) (x : Line) : Frame K ps s (touchLine t line x) :=
  (h.set_coh hp _).set_coh hp _

theorem Frame.touchLines (h : Frame K ps s t) (hp : Part.coh ∈ ps) (d a n : Nat) : Frame K ps s (touchLines t d a n) := by
  refine Frame.foldl _ _ h fun line _ u hu => ?_
  split
  · exact hu.touchLine hp _ _
  · exact hu

theorem Frame.takeFail (h : Frame K ps s t) (hp : Part.coh ∈ ps) (line : Nat) : Frame K ps s (takeFail t line).1 := by
  unfold Machine.takeFail
  split
  · exact h
  · split
    · exact h
    · exact h.keepLine hp _ _

theorem Frame.takeFails (hp : Part.coh ∈ ps) (lines : List Nat) : ∀ {t : State}, Frame K ps s t → Frame K ps s (takeFails lines t).1 := by
  induction lines with
  | nil => exact fun h => h
  | cons line r ih =>
    intro t h
    have hline := h.takeFail hp line
    unfold Machine.takeFails
    split <;> rename_i heq
    · rwa [heq] at hline
    · rw [heq] at hline
      exact ih hline

variable (hk : ∀ k, accessRegs k → K k) (hp : ∀ p, p ∈ readParts → p ∈ ps)

include hp in
theorem Frame.cohRead (h : Frame K ps s t) (w : Who) (l d a n : Nat) : Frame K ps s (cohRead t w l d a n).1 := by
  have hcoh := hp .coh (by decide)
  have hfails := Frame.takeFails hcoh (linesOf d a n) h
  unfold Machine.cohRead
  split <;> rename_i heq
  · rwa [heq] at hfails
  · rw [heq] at hfails
    split
    · exact hfails.needs (hp .trip (by decide)) _
    · exact hfails.touchLines hcoh _ _ _

include hp in
theorem Frame.tapRead (w : Who) (l : Nat) (pieces : List (Nat × Nat)) :
    ∀ {t : State} (acc : List Byte), Frame K ps s t → Frame K ps s (tapRead w l pieces t acc).1 := by
  induction pieces with
  | nil => exact fun _ h => h
  | cons p r ih =>
    intro t acc h
    have htake := h.takeReply (hp .router (by decide)) w l p.1 p.2 false
    unfold Machine.tapRead
    split <;> rename_i heq
    · rw [heq] at htake
      split
      · exact ih _ htake
      · exact htake
    · exact h.needs (hp .trip (by decide)) _

include hp in
theorem Frame.farRead (h : Frame K ps s t) (w : Who) (l a n d o : Nat) : Frame K ps s (farRead t w l a n d o).1 := by
  have htap := Frame.tapRead hp w l (pageCuts (n / 4096 + 3) (unit16 a) (span16 a n)) [] h
  unfold Machine.farRead
  split
  · exact h
  split
  · exact h
  split
  · exact h.cohRead hp w l d o n
  · split <;> rename_i heq <;> rwa [heq] at htap

include hp in
theorem Frame.homeWait (h : Frame K ps s t) (a n : Nat) (w : Bool) : Frame K ps s (homeWait t a n w) := by
  unfold Machine.homeWait
  exact Frame.ite (fun _ => h) fun _ => h.needs (hp .trip (by decide)) _

include hp in
theorem Frame.bill (h : Frame K ps s t) (l : Option Nat) (a cost : Nat) : Frame K ps s (bill t l a cost) := by
  have htrip := hp .trip (by decide)
  unfold Machine.bill
  split
  · exact Frame.ite (fun _ => h.needs htrip _) fun _ => h.set_trip htrip _
  · exact h

include hk in
theorem Frame.noteHits (h : Frame K ps s t) (l k : Nat) : Frame K ps s (noteHits t l k) := by
  unfold Machine.noteHits
  exact Frame.ite (fun _ => h.addCnt (hk _ (accessRegs_decodes l)) 1) fun _ => h

include hk hp

theorem Frame.readReport (h : Frame K ps s t) (r : FaultRep) : Frame K ps s (Machine.report t r false) :=
  h.report (fun k hr => hk k (accessRegs_of_reportRegs hr)) (fun p hr => hp p (by revert p; decide)) r

theorem Frame.ueFound (h : Frame K ps s t) (b repT repI : Nat) : Frame K ps s (ueFound t b repT repI) := by
  have hdrc := fun (st o : Nat) ho => hk _ (accessRegs_drcKey st (o := o) ho)
  unfold Machine.ueFound
  refine Frame.readReport hk hp (Frame.setStack (Frame.blkError ?_ _ _ _ ?_ ?_ ?_) (hp .stackTab (by decide)) _ _) _
  · exact ((h.addCnt (hdrc _ _ (by simp)) 1).wr (hdrc _ _ (by simp)) _).wr (hdrc _ _ (by simp)) _
  · exact hdrc _ 0x10 (by simp)
  · exact hdrc _ 0x18 (by simp)
  · exact hdrc _ 0x1C (by simp)

theorem Frame.hostDown (h : Frame K ps s t) (repT repI a : Nat) : Frame K ps s (hostDown t repT repI a) := by
  have hpcie := fun (k : Nat) hm => hk _ (accessRegs_pcie (k := k) hm)
  have herr := h.blkError 0x300000 6 0 (hpcie 0x300010 (by simp)) (hpcie 0x300018 (by simp)) (hpcie 0x30001C (by simp))
  exact herr.readReport hk hp _

theorem Frame.localReadAt (h : Frame K ps s t) (w : Who) (l : Option Nat) (a n cost : Nat) : Frame K ps s (localReadAt t w l a n cost).1 := by
  unfold Machine.localReadAt
  split
  · exact h
  split
  · split
    · exact h.ueFound hk hp _ _ _
    · exact (h.bill hp _ _ _).homeWait hp _ _ _
  · exact h.homeWait hp _ _ _
  · split
    · exact h
    split
    · exact h.hostDown hk hp _ _ _
    split
    · exact h
    · unfold hostAs
      split
      · exact h.set_hostFn (hp .hostFn (by decide)) _
      · exact h
  · exact h

theorem Frame.loomRead (h : Frame K ps s t) (w : Who) (l a n : Nat) : Frame K ps s (loomRead t w l a n).1 := by
  have hnoted := h.noteHits hk l (windowHits t l a n false)
  unfold Machine.loomRead loomReadAt
  split
  · exact h
  split
  · split
    · exact h
    · exact hnoted.farRead hp _ _ _ _ _ _
  · exact hnoted.localReadAt hk hp _ _ _ _ _

theorem Frame.readPieces (w : Who) (l : Nat) (pieces : List (Nat × Nat)) :
    ∀ {t : State} (acc : List Byte), Frame K ps s t → Frame K ps s (readPieces w l pieces t acc).1 := by
  induction pieces with
  | nil => exact fun _ h => h
  | cons p r ih =>
    intro t acc h
    have hread := h.loomRead hk hp w l p.1 p.2
    unfold Machine.readPieces
    split <;> rename_i heq
    · rw [heq] at hread
      exact ih _ hread
    · rwa [heq] at hread

theorem Frame.loomReadAcross (h : Frame K ps s t) (w : Who) (l a n : Nat) : Frame K ps s (loomReadAcross t w l a n).1 :=
  Frame.readPieces hk hp w l _ [] h

end Reads

/-- A read for a loom changes the counts and errors of accesses alone (R271). -/
theorem loomReadAcross_frame (s : State) (w : Who) (l a n : Nat) : Frame accessRegs readParts s (loomReadAcross (fresh s) w l a n).1 :=
  ((Frame.refl s).fresh (by decide)).loomReadAcross (fun _ h => h) (fun _ h => h) w l a n

-- ## Paying for traffic

section Paying

variable {K : Nat → Prop} {ps : List Part} {s t u : State} {l : Option Nat} {st n : Nat}

/-- The counts of bytes served to looms (R294). -/
def chargeRegs : Nat → Prop := fun k => ∃ st l, k = drcKey st (0x180 + 4 * l)

/-- The parts that paying for a command's traffic may change: the buckets, and the bill itself. -/
def chargeParts : List Part := [.stackTab, .trip]

theorem accessRegs_of_chargeRegs {k : Nat} (h : chargeRegs k) : accessRegs k := .inr (.inr (.inr (.inr h)))

theorem chargeParts_subset_accessParts : ∀ p, p ∈ chargeParts → p ∈ accessParts := by decide

/-- The pages of the stacks begin behind those of the looms. -/
theorem not_chargeRegs_of_lt {k : Nat} (h : k < 0x80000) : ¬ chargeRegs k := by
  rintro ⟨st, l, rfl⟩
  simp only [drcKey] at h
  omega

theorem Frame.noteTraffic (h : Frame K ps s t) (hk : ∀ k, chargeRegs k → K k) (hp : Part.stackTab ∈ ps) (l : Option Nat) (st n : Nat) :
    Frame K ps s (noteTraffic t l st n) := by
  unfold Machine.noteTraffic
  cases l with
  | none => exact h.setStack hp _ _
  | some i => exact (h.setStack hp _ _).addCnt (hk _ ⟨st, i, rfl⟩) _

theorem Frame.pay (h : Frame K ps s t) (hp : Part.stackTab ∈ ps) (l st n : Nat) : Frame K ps s (pay t l st n) := by
  unfold Machine.pay
  exact Frame.ite (fun _ => h) fun _ => h.setStack hp _ _

theorem Frame.charge (h : Frame K ps s t) (hk : ∀ k, chargeRegs k → K k) (hp : Part.stackTab ∈ ps) (hu : charge t l st n = some u) :
    Frame K ps s u := by
  unfold Machine.charge at hu
  split at hu
  · exact Option.some.inj hu ▸ h.noteTraffic hk hp _ _ _
  split at hu
  · exact Option.some.inj hu ▸ (h.pay hp _ _ _).noteTraffic hk hp _ _ _
  split at hu
  · exact Option.some.inj hu ▸ h.noteTraffic hk hp _ _ _
  · cases hu

theorem Frame.settle (hk : ∀ k, chargeRegs k → K k) (hp : Part.stackTab ∈ ps) (b : List (Option Nat × Nat × Nat)) :
    ∀ {t : State}, Frame K ps s t → settle b t = some u → Frame K ps s u := by
  induction b with
  | nil => exact fun h hu => Option.some.inj hu ▸ h
  | cons x r ih =>
    intro t h hu
    obtain ⟨v, hv, hvu⟩ := Option.bind_eq_some_iff.mp hu
    exact ih (h.charge hk hp hv) hvu

/-- What is left of a served command has paid its bill, and changed nothing else (R292). -/
theorem served_frame (h : served t = some u) : Frame chargeRegs chargeParts t u := by
  unfold served at h
  split at h
  · cases h
  · exact Frame.settle (fun _ hk => hk) (by decide) _ ((Frame.refl t).set_trip (by decide) _) h

/-- Two states in which the same traffic is paid alike: the same settings, buckets, caps and time (R292, R295). -/
structure SameAccounts (s t : State) : Prop where
  live : t.live = s.live
  stackTab : t.stackTab = s.stackTab
  time : t.time = s.time
  caps : ∀ st, rd t (drcKey st 0x100) = rd s (drcKey st 0x100)

theorem SameAccounts.of_frame (h : Frame K ps s t) (hlive : Part.live ∉ ps) (hstacks : Part.stackTab ∉ ps) (hcaps : ∀ st, ¬ K (drcKey st 0x100)) :
    SameAccounts s t :=
  ⟨h.parts .live hlive, h.parts .stackTab hstacks, h.time, fun st => h.regs _ (hcaps st)⟩

theorem SameAccounts.regCap (h : SameAccounts s t) (l st : Nat) : regCap t l st = regCap s l st := by
  unfold Machine.regCap lvF lv
  rw [h.live]

theorem SameAccounts.inRate (h : SameAccounts s t) (l st n : Nat) : inRate t l st n = inRate s l st n := by
  unfold Machine.inRate stackOf
  rw [h.regCap, h.stackTab]

theorem SameAccounts.borrows (h : SameAccounts s t) (l st : Nat) :
    (regBorrow t l st && !borrowShut t st) = (regBorrow s l st && !borrowShut s st) := by
  unfold regBorrow borrowShut capped stackOf lv
  rw [h.live, h.stackTab, h.time, h.caps]

theorem SameAccounts.setStack (h : SameAccounts s t) (st : Nat) (x : Stack) : SameAccounts (setStack s st x) (setStack t st x) :=
  ⟨h.live, congrArg (tput · st x) h.stackTab, h.time, h.caps⟩

theorem SameAccounts.addCnt (h : SameAccounts s t) (k n : Nat) : SameAccounts (addCnt s k n) (addCnt t k n) := by
  refine ⟨h.live, h.stackTab, h.time, fun st => ?_⟩
  by_cases hst : drcKey st 0x100 = k
  · rw [← hst, rd_addCnt_self, rd_addCnt_self, h.caps]
  · rw [rd_addCnt_of_ne _ _ _ _ hst, rd_addCnt_of_ne _ _ _ _ hst, h.caps]

theorem SameAccounts.pay (h : SameAccounts s t) (l st n : Nat) : SameAccounts (pay s l st n) (pay t l st n) := by
  unfold Machine.pay stackOf
  rw [h.regCap, h.stackTab]
  split
  · exact h
  · exact h.setStack _ _

theorem SameAccounts.noteTraffic (h : SameAccounts s t) (l : Option Nat) (st n : Nat) : SameAccounts (noteTraffic s l st n) (noteTraffic t l st n) := by
  unfold Machine.noteTraffic stackOf
  rw [h.stackTab, h.time]
  cases l with
  | none => exact h.setStack _ _
  | some i => exact (h.setStack _ _).addCnt _ _

theorem SameAccounts.charge (h : SameAccounts s t) (l : Option Nat) (st n : Nat) :
    (charge s l st n = none ∧ charge t l st n = none) ∨ ∃ u v, charge s l st n = some u ∧ charge t l st n = some v ∧ SameAccounts u v := by
  unfold Machine.charge
  cases l with
  | none => exact .inr ⟨_, _, rfl, rfl, h.noteTraffic _ _ _⟩
  | some i =>
    simp only [h.inRate, h.borrows]
    split
    · exact .inr ⟨_, _, rfl, rfl, (h.pay i st n).noteTraffic _ _ _⟩
    split
    · exact .inr ⟨_, _, rfl, rfl, h.noteTraffic _ _ _⟩
    · exact .inl ⟨rfl, rfl⟩

theorem SameAccounts.settle_isSome (b : List (Option Nat × Nat × Nat)) :
    ∀ {s t : State}, SameAccounts s t → (settle b t).isSome = (settle b s).isSome := by
  induction b with
  | nil => exact fun _ => rfl
  | cons x r ih =>
    intro s t h
    rcases h.charge x.1 x.2.1 x.2.2 with ⟨hs, ht⟩ | ⟨u, v, hs, ht, huv⟩
    · simp [Machine.settle, hs, ht]
    · simpa [Machine.settle, hs, ht] using ih huv

/-- What a command still does after its accesses, none of it about accesses, leaves them served. -/
theorem accessesServed_of_frame (hs : accessesServed s) (h : Frame K ps s t) (hps : Part.live ∉ ps ∧ Part.stackTab ∉ ps ∧ Part.trip ∉ ps)
    (hcaps : ∀ st, ¬ K (drcKey st 0x100)) : accessesServed t := by
  obtain ⟨hlive, hstacks, htrip⟩ := hps
  have hsame : SameAccounts { s with trip := {} } { t with trip := {} } := by
    have hst := SameAccounts.of_frame h hlive hstacks hcaps
    exact ⟨hst.live, hst.stackTab, hst.time, hst.caps⟩
  unfold accessesServed served at hs ⊢
  rw [show t.trip = s.trip from h.parts .trip htrip]
  split at hs
  · cases hs
  · rw [if_neg ‹_›, hsame.settle_isSome]
    exact hs

/-- A command whose accesses are served comes to its whole effect, paid for (R16, R223, R292). -/
theorem effect_asking_of_served {f : State → State} (hw : atWork s) (hf : Frame K ps s (f (fresh s))) (hs : accessesServed (f (fresh s))) :
    ∃ u, effect (asking f) s = .next u ∧ Frame chargeRegs chargeParts (f (fresh s)) u := by
  obtain ⟨u, hu⟩ := Option.isSome_iff_exists.mp hs
  have hpaid := served_frame hu
  have hall : Frame (fun k => K k ∨ chargeRegs k) (ps ++ chargeParts) s u :=
    (hf.mono (fun _ => .inl) (by simp +contextual)).trans (hpaid.mono (fun _ => .inr) (by simp +contextual))
  refine ⟨u, ?_, hpaid⟩
  rw [effect_eq, asking_of_served hw.1 hu (overfull_of_eventsOpen hw.2 u), keep_of_frame hall]

/-- Memory left alone is stored to nowhere. -/
theorem storesOnly_nil (hmem : t.mem = s.mem) (hhost : t.host = s.host) : StoresOnly s t [] :=
  ⟨fun b _ _ => by rw [hmem], fun b _ => by rw [hhost]⟩

end Paying

end Sys2Proof.Machine

/-! The creel (R228-R234, R253): the end of an entry that admits or cancels a request, and an admission's steps. -/

namespace Sys2Proof.Machine

-- ## The end of an entry

section Ends

variable {K : Nat → Prop} {ps : List Part} {s t : State} {e : Entry} {status code idx : Nat}

/-- Every entry of `e`'s ring and pointer value has ended with a status, a code and a creel index (R234). -/
def EndedWith (t : State) (e : Entry) (status code idx : Nat) : Prop := ∀ x ∈ t.entries, x.ring = e.ring → x.seq = e.seq →
  x.phase = .ended ∧ x.status = status ∧ x.firstFail = BitVec.ofNat 32 code ∧ x.opsDone = BitVec.ofNat 32 idx

/-- The parts that the end of an entry may change: an enable that waited for it may go on (R203). -/
def endParts : List Part := [.entries, .endSeq, .rings, .router, .produced]

theorem cfgCmdRegs_cfgKeys (w : Window) : cfgCmdRegs (cfgKeys w).2.1 := by
  cases w with
  | pf0 => exact .inl rfl
  | loom l => exact .inr ⟨l, rfl⟩

theorem Frame.setCreelEntry (h : Frame K ps s t) (hk : K 0x22108) (hp : ∀ p, p ∈ [Part.creel, .creelCache] → p ∈ ps) (i : Nat) (c : CreelEnt) :
    Frame K ps s (setCreel t i c) := by
  have htouch : Frame K ps s (creelTouch t i) := by
    unfold creelTouch
    exact (Frame.ite (fun _ => h) fun _ => h.addCnt hk 1).set_creelCache (hp _ (by simp)) _
  exact htouch.set_creel (hp _ (by simp)) _

/-- Using a creel entry changes no entry (R228). -/
theorem setCreel_creel (s : State) (i : Nat) (c : CreelEnt) : (setCreel s i c).creel = tput s.creel i c := by
  have htouch : (creelTouch s i).creel = s.creel := by
    unfold creelTouch creelHold
    split <;> rfl
  show tput (creelTouch s i).creel i c = _
  rw [htouch]

theorem Frame.freeCreel (h : Frame K ps s t) (hp : ∀ p, p ∈ [Part.creel, .creelCache] → p ∈ ps) (i : Nat) : Frame K ps s (freeCreel t i) :=
  (h.set_creel (hp _ (by simp)) (tdel t.creel i)).set_creelCache (hp _ (by simp)) (t.creelCache.filter (· ≠ i))

theorem Frame.cancelEntry (h : Frame K ps s t) (hk : K 0x22108) (hp : ∀ p, p ∈ [Part.creel, .creelCache, .produced] → p ∈ ps) (i : Nat) (c : CreelEnt) :
    Frame K ps s (cancelEntry t i c) :=
  (h.setCreelEntry hk (fun p hm => hp p (by revert p; decide)) i _).produce (hp _ (by simp)) _ _ _ _ _ _

section Configuring

variable (hk : ∀ k, cfgCmdRegs k → K k) (hr : Part.rings ∈ ps) (hp : Part.router ∈ ps)

include hk hr hp

theorem Frame.cfgStore (h : Frame K ps s t) (w : Window) : Frame K ps s (cfgStore t w) := by
  have hcmd := hk _ (cfgCmdRegs_cfgKeys w)
  unfold Machine.cfgStore
  refine Frame.ite (fun _ => (h.wrB hcmd _ _).wrB hcmd _ _) fun _ => Frame.ite (fun _ => (h.wrB hcmd _ _).wrB hcmd _ _) fun _ => ?_
  have hdrop := fun g : Ring => h.set_router hp (dropRing t g).router
  exact (((Frame.ite (fun _ => hdrop _) fun _ => h).wrB hcmd _ _).wrB hcmd _ _).setRing hr _ _

theorem Frame.cfgResume (h : Frame K ps s t) (l : LoomId) : Frame K ps s (cfgResume t l) := by
  have hpf0 := Frame.ite (c := cfgBusy t .pf0 = true) (fun _ => h.cfgStore hk hr hp .pf0) fun _ => h
  exact Frame.ite (fun _ => hpf0.cfgStore hk hr hp (.loom l)) fun _ => hpf0

end Configuring

theorem cfgResume_entries (s : State) (l : LoomId) : (cfgResume s l).entries = s.entries :=
  ((Frame.refl s).cfgResume (ps := [.rings, .router]) (fun _ h => h) (by decide) (by decide) l).parts .entries (by decide)

variable (hk : ∀ k, cfgCmdRegs k → K k) (hp : ∀ p, p ∈ endParts → p ∈ ps)

include hk hp

theorem Frame.endEntry (h : Frame K ps s t) (e : Entry) (status : Nat) : Frame K ps s (endEntry t e status) := by
  have hentries := hp .entries (by decide)
  unfold Machine.endEntry
  refine Frame.ite (fun _ => (h.updEntry hentries _ _ _).set_endSeq (hp .endSeq (by decide)) _) fun _ => ?_
  have hdrop := (h.set_entries hentries (t.entries.filter fun x => !(decide (x.ring = e.ring) && decide (x.seq = e.seq)))).cfgResume hk (hp .rings (by decide)) (hp .router (by decide)) (Fin.ofNat 32 e.loom)
  unfold doneEvent
  exact Frame.ite (fun _ => hdrop.produce (hp .produced (by decide)) _ _ _ _ _ _) fun _ => hdrop

theorem Frame.endCreel (h : Frame K ps s t) (e : Entry) (status code idx : Nat) : Frame K ps s (endCreel t e status code idx) :=
  (h.updEntry (hp .entries (by decide)) _ _ _).endEntry hk hp _ _

omit hk hp

theorem endCreel_frame (s : State) (e : Entry) (status code idx : Nat) : Frame cfgCmdRegs endParts s (endCreel s e status code idx) :=
  (Frame.refl s).endCreel (fun _ h => h) (fun _ h => h) e status code idx

theorem mem_updEntry_entries {r : Nat} {q : Word32} {f : Entry → Entry} {x : Entry} (h : x ∈ (updEntry s r q f).entries) (hr : x.ring = r) (hq : x.seq = q) :
    ∃ y, x = f y := by
  obtain ⟨y, -, rfl⟩ := List.mem_map.mp h
  by_cases hy : y.ring = r ∧ y.seq = q
  · exact ⟨y, if_pos hy⟩
  · rw [if_neg hy] at hr hq
    exact absurd ⟨hr, hq⟩ hy

/-- An entry that asks for no record is gone (R208). -/
theorem doneEvent_dropEntry_entries (s : State) (e : Entry) (status : Nat) :
    (doneEvent (dropEntry s e) e status).entries = s.entries.filter fun x => !(decide (x.ring = e.ring) && decide (x.seq = e.seq)) := by
  have hdone : Frame noReg [.produced] (dropEntry s e) (doneEvent (dropEntry s e) e status) := by
    unfold doneEvent
    exact Frame.ite (fun _ => (Frame.refl _).produce (by simp) _ _ _ _ _ _) fun _ => Frame.refl _
  exact (hdone.parts .entries (by decide)).trans (cfgResume_entries _ _)

/-- An entry changed under its ring and pointer value. -/
theorem mem_updEntry {r : Nat} {q : Word32} {f : Entry → Entry} {x : Entry} (h : x ∈ (updEntry s r q f).entries) (hr : x.ring = r) (hq : x.seq = q) :
    ∃ y ∈ s.entries, y.ring = r ∧ y.seq = q ∧ x = f y := by
  obtain ⟨y, hmem, rfl⟩ := List.mem_map.mp h
  by_cases hy : y.ring = r ∧ y.seq = q
  · exact ⟨y, hmem, hy.1, hy.2, if_pos hy⟩
  · rw [if_neg hy] at hr hq
    exact absurd ⟨hr, hq⟩ hy

/-- An ended entry keeps all but its phase, its status and its place in the order of ends (R219, R221). -/
theorem mem_endEntry {x : Entry} (h : x ∈ (endEntry s e status).entries) (hr : x.ring = e.ring) (hq : x.seq = e.seq) :
    ∃ y ∈ s.entries, y.ring = e.ring ∧ y.seq = e.seq ∧ x = { y with phase := .ended, status := status, endTime := s.time, endSeq := s.endSeq } := by
  unfold endEntry at h
  by_cases hw : wantsRecord e status = true
  · rw [if_pos hw] at h
    exact mem_updEntry h hr hq
  · rw [if_neg hw, doneEvent_dropEntry_entries] at h
    simpa [hr, hq] using (List.mem_filter.mp h).2

theorem endCreel_endedWith (s : State) (e : Entry) (status code idx : Nat) : EndedWith (endCreel s e status code idx) e status code idx := by
  intro x hx hring hseq
  obtain ⟨y, hy, hyring, hyseq, rfl⟩ := mem_endEntry hx hring hseq
  obtain ⟨z, -, -, -, rfl⟩ := mem_updEntry hy hyring hyseq
  exact ⟨rfl, rfl, rfl, rfl⟩

end Ends

-- ## Admission

section Admission

variable {s u : State} {r : RingId} {e : Entry} {b : List Byte}

/-- An entry that asks for an admission, its image's key with it (R234). -/
def tagged (e : Entry) (b : List Byte) : Entry := { e with id := BitVec.ofNat 64 (fieldLe b 0 8) }

/-- A new creel entry, in the order of admissions (R228). -/
def enterCreel (s : State) (i l : Nat) (b : List Byte) : State :=
  let t := newCreel s i (creelOfImage s l b)
  addCnt { t with admitSeq := t.admitSeq + 1 } 0x2210C 1

/-- An admission whose image has been read, with what the read left (R232). -/
def admitRead (e : Entry) : State × Except AccErr (List Byte) → State
  | (u, .error _) => endCreel u e 8 1 0xFFFFFFFF
  | (u, .ok b) =>
    if admitCheck u e.loom b ≠ 0 then endCreel u (tagged e b) 8 (admitCheck u e.loom b) 0xFFFFFFFF
    else if creelFull u e.loom then updEntry u e.ring e.seq fun _ => tagged e b
    else match creelFree u with
      | none => updEntry u e.ring e.seq fun _ => tagged e b
      | some i => if 262144 ≤ i then updEntry u e.ring e.seq fun _ => tagged e b else endCreel (enterCreel u i e.loom b) (tagged e b) 0 0 i

/-- CREEL_ADMIT on a state. -/
def admitStep (r : RingId) (s : State) : State :=
  match headEntry s r with
  | none => s
  | some e =>
    if entKind e ≠ 2 ∨ e.phase ≠ .fetched ∨ blockClosed s .creel then s
    else admitRead e (loomReadAcross s ⟨0x022, 0, r⟩ e.loom (fieldLe e.bytes 8 8) 256)

theorem exec_creelAdmit_eq (r : RingId) (s : State) : exec (.creelAdmit r) s = effect (asking (admitStep r)) s := rfl

theorem admitStep_fresh (hhead : headEntry s r = some e) (hphase : e.phase = .fetched) (hkind : entKind e = 2) (hclosed : blockClosed s .creel = false) :
    admitStep r (fresh s) = admitRead e (loomReadAcross (fresh s) ⟨0x022, 0, r⟩ e.loom (fieldLe e.bytes 8 8) 256) := by
  unfold admitStep
  rw [show headEntry (fresh s) r = some e from hhead]
  exact if_neg (by simp [hphase, hkind, show blockClosed (fresh s) .creel = false from hclosed])

/-- The registers that an admission may change once its image is read: the count of admissions, and an enable that waited. -/
def enterRegs : Nat → Prop := fun k => cfgCmdRegs k ∨ k = 0x2210C

/-- The parts that an admission may change once its image is read. -/
def enterParts : List Part := [.creel, .creelCache, .admitSeq] ++ endParts

theorem admitRead_of_full (hcheck : admitCheck u e.loom b = 0) (hfull : creelFull u e.loom = true) :
    admitRead e (u, .ok b) = updEntry u e.ring e.seq fun _ => tagged e b :=
  (if_neg (not_not_intro hcheck)).trans (if_pos hfull)

theorem admitRead_of_room {i : Nat} (hcheck : admitCheck u e.loom b = 0) (hroom : creelFull u e.loom = false) (hfree : creelFree u = some i) (hi : i < 262144) :
    admitRead e (u, .ok b) = endCreel (enterCreel u i e.loom b) (tagged e b) 0 0 i := by
  refine (if_neg (not_not_intro hcheck)).trans ((if_neg (by simp [hroom])).trans ?_)
  rw [hfree]
  exact if_neg (by omega)

theorem not_enterRegs_stackStatus (st : Nat) : ¬ enterRegs (drcKey st 0x100) := by
  rintro ((h | ⟨l, h⟩) | h)
  · simp only [drcKey] at h; omega
  · simp only [drcKey, dbPage, bar2Key] at h; omega
  · simp only [drcKey] at h; omega

theorem admitRead_frame (e : Entry) (u : State) (x : Except AccErr (List Byte)) : Frame enterRegs enterParts u (admitRead e (u, x)) := by
  have hend := fun {v : State} (h : Frame enterRegs enterParts u v) => h.endCreel (fun _ => .inl) (by decide)
  have hwait := fun f => (Frame.refl (K := enterRegs) (ps := enterParts) u).updEntry (by decide) e.ring e.seq f
  unfold admitRead
  split
  · rename_i heq
    cases heq
    exact hend (Frame.refl u) _ _ _ _
  · rename_i b heq
    cases heq
    refine Frame.ite (fun _ => hend (Frame.refl u) _ _ _ _) fun _ => Frame.ite (fun _ => hwait _) fun _ => ?_
    split
    · exact hwait _
    · refine Frame.ite (fun _ => hwait _) fun _ => hend ?_ _ _ _ _
      exact ((((Frame.refl u).set_creelCache (by decide) _).set_creel (by decide) _).set_admitSeq (by decide) _).addCnt (.inr rfl) 1

/-- The registers that an admission may change. -/
def admitRegs : Nat → Prop := fun k => accessRegs k ∨ cfgCmdRegs k ∨ k = 0x22108 ∨ k = 0x2210C

/-- The parts that an admission may change. -/
def admitParts : List Part := [.entries, .endSeq, .rings, .creel, .creelCache, .admitSeq] ++ accessParts

/-- An admission whose image is served comes to what `admitRead` makes of the image, and stores nowhere. -/
theorem exec_creelAdmit_of_served {x : Except AccErr (List Byte)} (hw : atWork s) (hhead : headEntry s r = some e) (hphase : e.phase = .fetched)
    (hkind : entKind e = 2) (hclosed : blockClosed s .creel = false) (hread : loomReadAcross (fresh s) ⟨0x022, 0, r⟩ e.loom (fieldLe e.bytes 8 8) 256 = (u, x))
    (hs : accessesServed u) :
    ∃ t, exec (.creelAdmit r) s = .next t ∧ Frame chargeRegs chargeParts (admitRead e (u, x)) t ∧ StoresOnly s t [] ∧ Frame admitRegs admitParts s t := by
  have hfetch : Frame accessRegs readParts s u := by
    have h := loomReadAcross_frame s ⟨0x022, 0, r⟩ e.loom (fieldLe e.bytes 8 8) 256
    rwa [hread] at h
  have henter := admitRead_frame e u x
  have hstep : admitStep r (fresh s) = admitRead e (u, x) := by rw [admitStep_fresh hhead hphase hkind hclosed, hread]
  have hall : Frame admitRegs admitParts s (admitRead e (u, x)) :=
    (hfetch.mono (fun _ => .inl) (by decide)).trans (henter.mono (fun _ h => .inr (h.imp_right .inr)) (by decide))
  have hserved := accessesServed_of_frame hs henter (by decide) not_enterRegs_stackStatus
  rw [← hstep] at hall hserved
  obtain ⟨t, ht, hpaid⟩ := effect_asking_of_served hw hall hserved
  rw [hstep] at hall hpaid
  refine ⟨t, ht, hpaid, storesOnly_nil ?_ ?_, hall.trans (hpaid.mono (fun _ h => .inl (accessRegs_of_chargeRegs h)) (by decide))⟩
  · exact (hpaid.parts .mem (by decide)).trans ((henter.parts .mem (by decide)).trans (hfetch.parts .mem (by decide)))
  · exact (hpaid.parts .host (by decide)).trans ((henter.parts .host (by decide)).trans (hfetch.parts .host (by decide)))

theorem EndedWith.of_entries {t : State} {status code idx : Nat} (h : EndedWith u e status code idx) (ht : t.entries = u.entries) :
    EndedWith t e status code idx := by
  unfold EndedWith
  rwa [ht]

/-- An admission that ends without a creel entry (R232, R234): the image cannot be read, or a check fails. -/
theorem admission_ends {t v : State} {status code : Nat} (hfetch : Frame accessRegs readParts s u) (hpaid : Frame chargeRegs chargeParts v t)
    (hv : v = endCreel u e status code 0xFFFFFFFF) : t.creel = s.creel ∧ EndedWith t e status code 0xFFFFFFFF := by
  subst hv
  refine ⟨?_, (endCreel_endedWith u e status code _).of_entries (hpaid.parts .entries (by decide))⟩
  exact (hpaid.parts .creel (by decide)).trans (((endCreel_frame u e status code _).parts .creel (by decide)).trans (hfetch.parts .creel (by decide)))

/-- An admission that waits (R232): its record already names the request (R234). -/
theorem admission_waits {t v : State} (hfetch : Frame accessRegs readParts s u) (hpaid : Frame chargeRegs chargeParts v t)
    (hv : v = updEntry u e.ring e.seq fun _ => tagged e b) :
    t.creel = s.creel ∧ t.entries = s.entries.map fun x => if x.ring = e.ring ∧ x.seq = e.seq then tagged e b else x := by
  subst hv
  refine ⟨(hpaid.parts .creel (by decide)).trans (hfetch.parts .creel (by decide)), (hpaid.parts .entries (by decide)).trans ?_⟩
  show (updEntry u e.ring e.seq _).entries = _
  unfold updEntry
  rw [show u.entries = s.entries from hfetch.parts .entries (by decide)]

theorem creelOfImage_congr (hseq : u.admitSeq = s.admitSeq) (htime : u.time = s.time) (l : Nat) (b : List Byte) :
    creelOfImage u l b = creelOfImage s l b := by
  unfold creelOfImage
  rw [hseq, htime]

theorem creelFull_congr (hcreel : u.creel = s.creel) (hlive : u.live = s.live) (l : Nat) : creelFull u l = creelFull s l := by
  unfold creelFull creelUsed lvF lv
  rw [hcreel, hlive]

theorem creelFree_congr (hcreel : u.creel = s.creel) : creelFree u = creelFree s := by
  unfold creelFree
  rw [hcreel]

theorem not_accessRegs_admitCount : ¬ accessRegs 0x2210C := by
  rintro (h | ⟨x, h⟩ | ⟨st, h⟩ | ⟨l, h⟩ | ⟨st, l, h⟩)
  · exact absurd h (by decide)
  · simp only [pbaKey, if_true] at h; omega
  · simp only [drcKey, List.mem_cons, List.not_mem_nil, or_false] at h; omega
  · simp only [loomKey] at h; omega
  · simp only [drcKey] at h; omega

theorem not_cfgCmdRegs_admitCount : ¬ cfgCmdRegs 0x2210C := by
  rintro (h | ⟨l, h⟩)
  · exact absurd h (by decide)
  · simp only [dbPage, bar2Key] at h; omega

/-- An admission that takes a creel entry (R228, R230, R232). -/
theorem admission_enters {t v : State} {i : Nat} (hfetch : Frame accessRegs readParts s u) (hpaid : Frame chargeRegs chargeParts v t)
    (hv : v = endCreel (enterCreel u i e.loom b) (tagged e b) 0 0 i) :
    tfind t.creel i = some (creelOfImage s e.loom b) ∧ (∀ j, j ≠ i → tfind t.creel j = tfind s.creel j) ∧ t.admitSeq = s.admitSeq + 1 ∧
      rd t 0x2210C = rd s 0x2210C + 1 ∧ EndedWith t e 0 0 i := by
  subst hv
  have hend := endCreel_frame (enterCreel u i e.loom b) (tagged e b) 0 0 i
  have hseq : u.admitSeq = s.admitSeq := hfetch.parts .admitSeq (by decide)
  have hcreel : t.creel = tput s.creel i (creelOfImage s e.loom b) := by
    rw [← creelOfImage_congr hseq hfetch.time, ← show u.creel = s.creel from hfetch.parts .creel (by decide)]
    exact (hpaid.parts .creel (by decide)).trans (hend.parts .creel (by decide))
  refine ⟨?_, fun j hj => ?_, ?_, ?_, ?_⟩
  · rw [hcreel, tfind_tput_self]
  · rw [hcreel, tfind_tput_of_ne _ _ _ _ hj]
  · rw [← hseq]
    exact (hpaid.parts .admitSeq (by decide)).trans (hend.parts .admitSeq (by decide))
  · rw [hpaid.regs _ (not_chargeRegs_of_lt (by decide)), hend.regs _ not_cfgCmdRegs_admitCount, ← hfetch.regs _ not_accessRegs_admitCount]
    exact rd_addCnt_self _ _ _
  · exact (endCreel_endedWith (enterCreel u i e.loom b) (tagged e b) 0 0 i).of_entries (hpaid.parts .entries (by decide))

end Admission

-- ## Cancel, release and free

section Entries

variable {s : State}

/-- The creel entry that a cancel names (R233). -/
def namedBy (s : State) (e : Entry) : Option (Nat × CreelEnt) :=
  s.creel.find? fun p => decide (p.2.loom = e.loom) && decide (p.2.reqTag.toNat = fieldLe e.bytes 8 8)

/-- A cancel of the creel entry it names, if there is one (R233). -/
def cancelNamed (s : State) (e : Entry) : Option (Nat × CreelEnt) → State
  | none => endCreel s e 8 7 0xFFFFFFFF
  | some (i, c) =>
    if c.state = 1 ∨ c.state = 2 then endCreel (cancelEntry s i c) e 0 0 i
    else if c.state = 3 ∨ c.state = 4 then endCreel (setCreel s i { c with cancelPend := true }) e 0 9 i
    else if c.state = 5 then endCreel s e 0 8 i
    else endCreel s e 8 7 0xFFFFFFFF

/-- CREEL_CANCEL on a state. -/
def cancelStep (r : RingId) (s : State) : State :=
  match headEntry s r with
  | none => s
  | some e => if entKind e ≠ 3 ∨ e.phase ≠ .fetched then s else cancelNamed s e (namedBy s e)

theorem exec_creelCancel_eq (r : RingId) (s : State) : exec (.creelCancel r) s = effect (awake (posting (cancelStep r))) s := rfl

/-- A gated unit's effect, while the part is at work. -/
theorem effect_awake_of_atWork {K : Nat → Prop} {ps : List Part} {f : State → State} (hw : atWork s) (hf : Frame K ps s (f s)) :
    effect (awake f) s = .next (f s) := by
  rw [effect_eq]
  unfold awake
  rw [hw.1, if_neg (by decide), keep_of_frame hf]

/-- The registers that a cancel may change. -/
def cancelRegs : Nat → Prop := fun k => cfgCmdRegs k ∨ k = 0x22108

/-- The parts that a cancel may change. -/
def cancelParts : List Part := [.entries, .endSeq, .rings, .creel, .creelCache, .produced, .router]

theorem cancelStep_of_head {r : RingId} {e : Entry} (hhead : headEntry s r = some e) (hphase : e.phase = .fetched) (hkind : entKind e = 3) :
    cancelStep r s = cancelNamed s e (namedBy s e) := by
  unfold cancelStep
  rw [hhead]
  exact if_neg (by simp [hphase, hkind])

/-- An event handed over stays so when an entry ends. -/
theorem mem_endCreel_produced {e : Entry} {status code idx l : Nat} {ev : Event} (h : ev ∈ tget [] s.produced l) :
    ev ∈ tget [] (endCreel s e status code idx).produced l := by
  have hdrop : ∀ (u : State) (x : Entry), (dropEntry u x).produced = u.produced := fun u x =>
    (((Frame.refl u).set_entries (by decide) _).cfgResume (K := cfgCmdRegs) (ps := [.entries, .rings, .router]) (fun _ h => h) (by decide) (by decide) _).parts
      .produced (by decide)
  unfold endCreel endEntry
  simp only
  split
  · exact h
  · unfold doneEvent
    split
    · exact mem_produce_of_mem (by rwa [hdrop])
    · rwa [hdrop]

/-- A cancel that ends its entry (R233) after a change `v` of the creel. -/
theorem exec_creelCancel_of_ends {r : RingId} {e : Entry} {v : State} {status code idx : Nat} (hw : atWork s) (hv : Frame cancelRegs cancelParts s v)
    (hstep : cancelStep r s = endCreel v e status code idx) :
    ∃ t, exec (.creelCancel r) s = .next t ∧ t.creel = v.creel ∧ (∀ l ev, ev ∈ tget [] v.produced l → ev ∈ tget [] t.produced l) ∧
      EndedWith t e status code idx ∧ Frame cancelRegs cancelParts s t := by
  have hall : Frame cancelRegs cancelParts s (endCreel v e status code idx) := hv.endCreel (fun _ => .inl) (by decide) _ _ _ _
  have hpost : posting (cancelStep r) s = endCreel v e status code idx := by rw [posting_of_eventsOpen hw.2, hstep]
  refine ⟨endCreel v e status code idx, ?_, (endCreel_frame v e status code idx).parts .creel (by decide), fun _ _ => mem_endCreel_produced,
    endCreel_endedWith v e status code idx, hall⟩
  rw [exec_creelCancel_eq, effect_awake_of_atWork hw (hpost ▸ hall), hpost]

/-- An entry that is cancelled, and its event (R230, R253). -/
theorem cancelEntry_holds (s : State) (i : Nat) (c : CreelEnt) :
    Frame cancelRegs cancelParts s (cancelEntry s i c) ∧ tfind (cancelEntry s i c).creel i = some { c with state := 7, cancelPend := false } ∧
      (loomSt s c.loom ≠ 0 → ∃ v ∈ tget [] (cancelEntry s i c).produced c.loom, v.type = 0x22 ∧ v.info0 = c.reqTag) := by
  have hset : Frame (someRegs [0x22108]) [.creel, .creelCache] s (setCreel s i { c with state := 7, cancelPend := false }) :=
    (Frame.refl s).setCreelEntry (by simp [someRegs]) (by simp) _ _
  have hevent : Frame noReg [.produced] (setCreel s i { c with state := 7, cancelPend := false }) (cancelEntry s i c) := (Frame.refl _).produce (by simp) _ _ _ _ _ _
  refine ⟨(Frame.refl s).cancelEntry (.inr rfl) (by decide) i c, ?_, fun hl => ?_⟩
  · rw [show (cancelEntry s i c).creel = _ from hevent.parts .creel (by decide)]
    exact tfind_tput_self _ _ _
  · refine ⟨_, eventNow_mem_produce ?_, rfl, rfl⟩
    unfold loomSt rdF at hl ⊢
    rwa [hset.regs _ (by simp only [someRegs, List.mem_singleton, loomKey]; omega)]

/-- An ADMITTED entry whose knot condition holds (R230). -/
def condHolds (s : State) (c : CreelEnt) : Prop := c.state = 1 ∧ (c.condKnot = 0xFFFF ∨ c.condValue.toNat ≤ (knotOf s c.condKnot).toNat)

/-- Whether a request's event is queued: none of the loom's events still waits to be staged with its tag (R230). -/
def eventQueued (s : State) (c : CreelEnt) : Bool :=
  !((tget [] s.produced c.loom).any fun v => (decide (v.type = 0x21) || decide (v.type = 0x22)) && decide (v.info0 = c.reqTag))

/-- A finished entry whose records and events are out (R230). -/
def finishedOut (s : State) (c : CreelEnt) : Prop := (c.state = 5 ∧ c.outs = 0) ∨ ((c.state = 6 ∨ c.state = 7) ∧ eventQueued s c = true)

/-- COND_RELEASE on a state. -/
def releaseStep (i : CreelId) (s : State) : State :=
  match tfind s.creel i with
  | none => s
  | some c => if c.state = 1 ∧ (c.condKnot = 0xFFFF ∨ c.condValue.toNat ≤ (knotOf s c.condKnot).toNat) then setCreel s i { c with state := 2 } else s

/-- ENTRY_FREE on a state. -/
def freeStep (i : CreelId) (s : State) : State :=
  match tfind s.creel i with
  | none => s
  | some c => if (c.state = 5 ∧ c.outs = 0) ∨ ((c.state = 6 ∨ c.state = 7) ∧ eventQueued s c) then freeCreel s i else s

theorem exec_condRelease_eq (i : CreelId) (s : State) : exec (.condRelease i) s = effect (awake (releaseStep i)) s := rfl
theorem exec_entryFree_eq (i : CreelId) (s : State) : exec (.entryFree i) s = effect (awake (freeStep i)) s := rfl

/-- A gated unit whose conditions do not hold changes nothing (log entry 2). -/
theorem effect_awake_of_fixed {f : State → State} (hw : atWork s) (hf : f s = s) : effect (awake f) s = .next s := by
  have hframe : Frame noReg [] s (f s) := by
    rw [hf]
    exact Frame.refl s
  rw [effect_awake_of_atWork hw hframe, hf]

variable {i : CreelId} {c : CreelEnt}

theorem exec_condRelease_of_holds (hw : atWork s) (hc : tfind s.creel i = some c) (h : condHolds s c) :
    ∃ t, exec (.condRelease i) s = .next t ∧ tfind t.creel i = some { c with state := 2 } ∧ (∀ j, j ≠ i.val → tfind t.creel j = tfind s.creel j) ∧
      Frame (someRegs [0x22108]) [.creel, .creelCache] s t := by
  have hstep : releaseStep i s = setCreel s i { c with state := 2 } := by
    unfold releaseStep
    rw [hc]
    exact if_pos h
  have hset : Frame (someRegs [0x22108]) [.creel, .creelCache] s (setCreel s i { c with state := 2 }) :=
    (Frame.refl s).setCreelEntry (by simp [someRegs]) (by simp) _ _
  refine ⟨setCreel s i { c with state := 2 }, ?_, tfind_tput_self _ _ _, fun j hj => ?_, hset⟩
  · rw [exec_condRelease_eq, effect_awake_of_atWork hw (hstep ▸ hset), hstep]
  · rw [setCreel_creel, tfind_tput_of_ne _ _ _ _ hj]

theorem exec_condRelease_of_not_holds (hw : atWork s) (hc : tfind s.creel i = some c) (h : ¬ condHolds s c) : exec (.condRelease i) s = .next s := by
  rw [exec_condRelease_eq]
  refine effect_awake_of_fixed hw ?_
  unfold releaseStep
  rw [hc]
  exact if_neg h

theorem exec_entryFree_of_finished (hw : atWork s) (hc : tfind s.creel i = some c) (h : finishedOut s c) :
    ∃ t, exec (.entryFree i) s = .next t ∧ tfind t.creel i = none ∧ (∀ j, j ≠ i.val → tfind t.creel j = tfind s.creel j) ∧
      Frame noReg [.creel, .creelCache] s t := by
  have hstep : freeStep i s = freeCreel s i := by
    unfold freeStep
    rw [hc]
    exact if_pos h
  have hfree : Frame noReg [.creel, .creelCache] s (freeCreel s i) := (Frame.refl s).freeCreel (by simp) i
  refine ⟨freeCreel s i, ?_, tfind_tdel_self _ _, fun j hj => tfind_tdel_of_ne _ _ _ hj, hfree⟩
  rw [exec_entryFree_eq, effect_awake_of_atWork hw (hstep ▸ hfree), hstep]

theorem exec_entryFree_of_not_finished (hw : atWork s) (hc : tfind s.creel i = some c) (h : ¬ finishedOut s c) : exec (.entryFree i) s = .next s := by
  rw [exec_entryFree_eq]
  refine effect_awake_of_fixed hw ?_
  unfold freeStep
  rw [hc]
  exact if_neg h

end Entries

/-- Settles O33: an admission from its image, a cancel by the state of the entry it names, and the two rows that move one entry on. -/
theorem creelEntries : Obligations.CreelEntries := by
  intro s hw
  refine ⟨?_, ?_, fun i c hc => ?_⟩
  · intro r e hhead hphase hkind hclosed K ps image ends
    have hrun := fun {u x} (hread : image = (u, x)) hs => exec_creelAdmit_of_served hw hhead hphase hkind hclosed hread hs
    have hfetch := fun {u x} (hread : image = (u, x)) => (congrArg Prod.fst hread) ▸ loomReadAcross_frame s ⟨0x022, 0, r⟩ e.loom (fieldLe e.bytes 8 8) 256
    refine ⟨fun u er hread hs => ?_, fun u b hread hs => ⟨fun hcheck => ?_, fun hcheck hfull => ?_, fun i hcheck hroom hfree hi => ?_⟩⟩
    · obtain ⟨t, ht, hpaid, hstores, hframe⟩ := hrun hread hs
      obtain ⟨hcreel, hended⟩ := admission_ends (hfetch hread) hpaid rfl
      exact ⟨t, ht, hcreel, hended, hstores, hframe⟩
    · obtain ⟨t, ht, hpaid, hstores, hframe⟩ := hrun hread hs
      obtain ⟨hcreel, hended⟩ := admission_ends (hfetch hread) hpaid (if_pos hcheck)
      exact ⟨t, ht, hcreel, hended, hstores, hframe⟩
    · obtain ⟨t, ht, hpaid, hstores, hframe⟩ := hrun hread hs
      have hfetched := hfetch hread
      have hfull' : creelFull u e.loom = true := (creelFull_congr (hfetched.parts .creel (by decide)) (hfetched.parts .live (by decide)) _).trans hfull
      obtain ⟨hcreel, hentries⟩ := admission_waits hfetched hpaid (admitRead_of_full hcheck hfull')
      exact ⟨t, ht, hcreel, hentries, hstores, hframe⟩
    · obtain ⟨t, ht, hpaid, hstores, hframe⟩ := hrun hread hs
      have hfetched := hfetch hread
      have hcreel := hfetched.parts .creel (by decide)
      have hroom' : creelFull u e.loom = false := (creelFull_congr hcreel (hfetched.parts .live (by decide)) _).trans hroom
      obtain ⟨hnew, hothers, hseq, hcount, hended⟩ := admission_enters hfetched hpaid (admitRead_of_room hcheck hroom' ((creelFree_congr hcreel).trans hfree) hi)
      exact ⟨t, ht, hnew, hothers, hseq, hcount, hended, hstores, hframe⟩
  · intro r e hhead hphase hkind ends found
    have hrefl : Frame cancelRegs cancelParts s s := Frame.refl s
    have hrun := fun {v status code idx} (hv : Frame cancelRegs cancelParts s v) (h : cancelNamed s e found = endCreel v e status code idx) =>
      exec_creelCancel_of_ends hw hv ((cancelStep_of_head hhead hphase hkind).trans h)
    refine ⟨fun hnone => ?_, fun i c hfound => ?_⟩
    · obtain ⟨t, ht, hcreel, -, hends⟩ := hrun hrefl (congrArg (cancelNamed s e) hnone)
      exact ⟨t, ht, hcreel, hends⟩
    · have hnamed : cancelNamed s e found = cancelNamed s e (some (i, c)) := congrArg (cancelNamed s e) hfound
      refine ⟨fun hst => ?_, fun hst => ?_, fun hst => ?_, fun hst => ?_⟩
      · obtain ⟨hcancel, hnew, htold⟩ := cancelEntry_holds s i c
        obtain ⟨t, ht, hcreel, hkept, hends⟩ := hrun hcancel (hnamed.trans (if_pos hst))
        refine ⟨t, ht, hcreel ▸ hnew, fun hl => ?_, hends⟩
        obtain ⟨v, hv, hv'⟩ := htold hl
        exact ⟨v, hkept _ v hv, hv'⟩
      · have hset : Frame cancelRegs cancelParts s (setCreel s i { c with cancelPend := true }) := hrefl.setCreelEntry (.inr rfl) (by decide) _ _
        obtain ⟨t, ht, hcreel, -, hends⟩ := hrun hset (hnamed.trans ((if_neg (by omega)).trans (if_pos hst)))
        exact ⟨t, ht, by rw [hcreel, setCreel_creel, tfind_tput_self], hends⟩
      · obtain ⟨t, ht, hcreel, -, hends⟩ := hrun hrefl (hnamed.trans ((if_neg (by omega)).trans ((if_neg (by omega)).trans (if_pos hst))))
        exact ⟨t, ht, hcreel, hends⟩
      · obtain ⟨t, ht, hcreel, -, hends⟩ := hrun hrefl (hnamed.trans ((if_neg (by omega)).trans ((if_neg (by omega)).trans (if_neg (by omega)))))
        exact ⟨t, ht, hcreel, hends⟩
  · exact ⟨exec_condRelease_of_holds hw hc, exec_condRelease_of_not_holds hw hc, exec_entryFree_of_finished hw hc, exec_entryFree_of_not_finished hw hc⟩

end Sys2Proof.Machine

/-! The command queue of a loom, CREATE and START (R235, R256-R261, R268, R379): what a command that starts or ends leaves, the settings taken over, and the loom's start. -/

namespace Sys2Proof.Machine

-- ## The command queue

section Queue

variable {s t : State} {l : Nat} {c : LoomCmd} {code : Nat}

/-- A loom whose command queue was empty, with one command in it. -/
def queued (s : State) (l : Nat) (c : LoomCmd) : State := setLoom s l { loomOf s l with cmds := (loomOf s l).cmds ++ [c] }

/-- The queue after its only command has finished with a code. -/
def finished (s : State) (l : Nat) (c : LoomCmd) (code : Nat) : State := syncLoom (endCmd s l c.op code) l

/-- The queue after its only command has started. -/
def started (s : State) (l : Nat) : State := syncLoom (setLoom s l { loomOf s l with executing := true }) l

/-- A loom's queue is empty, and LOOM_CMD_STAT tells the last command and its code (R258). -/
def Answered (t : State) (l op code : Nat) : Prop :=
  (loomOf t l).cmds = [] ∧ (loomOf t l).executing = false ∧ rdF t (loomKey l 0x104) 15 8 = code ∧ rdF t (loomKey l 0x104) 18 16 = op

/-- The registers that show a loom's command queue. -/
def queueRegs (l : Nat) : Nat → Prop := someRegs [loomKey l 0x104, loomKey l 0x108]

theorem Frame.loomOf_eq {K : Nat → Prop} {ps : List Part} (h : Frame K ps s t) (hp : Part.looms ∉ ps) (l : Nat) : loomOf t l = loomOf s l := by
  have hlooms : t.looms = s.looms := h.parts .looms hp
  unfold loomOf
  rw [hlooms]

theorem Frame.ringOf_eq {K : Nat → Prop} {ps : List Part} (h : Frame K ps s t) (hp : Part.rings ∉ ps) (r : Nat) : ringOf t r = ringOf s r := by
  have hrings : t.rings = s.rings := h.parts .rings hp
  unfold ringOf
  rw [hrings]

theorem Frame.loomSt_eq {K : Nat → Prop} {ps : List Part} (h : Frame K ps s t) (hk : ¬ K (loomKey l 0x108)) : loomSt t l = loomSt s l := by
  unfold loomSt rdF
  rw [h.regs _ hk]

theorem queued_frame (s : State) (l : Nat) (c : LoomCmd) : Frame noReg [.looms] s (queued s l c) := (Frame.refl s).setLoom (by simp) _ _

theorem Frame.syncLoom {K : Nat → Prop} {ps : List Part} (h : Frame K ps s t) (hk : ∀ k, queueRegs l k → K k) : Frame K ps s (syncLoom t l) :=
  ((h.wrF (hk _ (by simp [queueRegs, someRegs])) _ _ _).wrB (hk _ (by simp [queueRegs, someRegs])) _ _).wrB (hk _ (by simp [queueRegs, someRegs])) _ _

theorem finished_frame (s : State) (l : Nat) (c : LoomCmd) (code : Nat) : Frame (queueRegs l) [.looms] s (finished s l c code) := by
  have hk : queueRegs l (loomKey l 0x104) := by simp [queueRegs, someRegs]
  exact ((((Frame.refl s).setLoom (by simp) _ _).wrF hk _ _ _).wrF hk _ _ _).syncLoom fun _ h => h

theorem started_frame (s : State) (l : Nat) : Frame (queueRegs l) [.looms] s (started s l) :=
  ((Frame.refl s).setLoom (by simp) _ _).syncLoom fun _ h => h

theorem loomOf_syncLoom (s : State) (l m : Nat) : loomOf (syncLoom s l) m = loomOf s m := rfl

theorem loomSt_syncLoom (s : State) (l : Nat) : loomSt (syncLoom s l) l = loomSt s l := by
  unfold loomSt syncLoom wrB
  rw [rdF_wrF_apart _ _ _ _ _ _ _ (by omega) (by omega) (by omega), rdF_wrF_of_ne _ _ _ _ _ _ _ _ (by simp [loomKey]),
    rdF_wrF_of_ne _ _ _ _ _ _ _ _ (by simp [loomKey])]

theorem loomSt_finished (s : State) (l : Nat) (c : LoomCmd) (code : Nat) : loomSt (finished s l c code) l = loomSt s l := by
  unfold finished endCmd
  rw [loomSt_syncLoom]
  unfold loomSt
  rw [rdF_wrF_of_ne _ _ _ _ _ _ _ _ (by simp [loomKey]), rdF_wrF_of_ne _ _ _ _ _ _ _ _ (by simp [loomKey])]
  rfl

theorem loomSt_started (s : State) (l : Nat) : loomSt (started s l) l = loomSt s l := loomSt_syncLoom _ _

/-- LAST_CODE and LAST_OP lie apart from PENDING and BUSY. -/
theorem rdF_syncLoom_of_behind (s : State) (l hi lo : Nat) (h : 5 ≤ lo) : rdF (syncLoom s l) (loomKey l 0x104) hi lo = rdF s (loomKey l 0x104) hi lo := by
  unfold syncLoom wrB
  rw [rdF_wrF_of_ne _ _ _ _ _ _ _ _ (by simp [loomKey]), rdF_wrF_apart _ _ _ _ _ _ _ (by omega) (by omega) (by omega),
    rdF_wrF_apart _ _ _ _ _ _ _ (by omega) (by omega) (by omega)]

theorem loomOf_finished (s : State) (l : Nat) (c : LoomCmd) (code : Nat) :
    loomOf (finished s l c code) l = { loomOf s l with cmds := (loomOf s l).cmds.drop 1, executing := false } :=
  (loomOf_syncLoom _ _ _).trans (loomOf_setLoom_self _ _ _)

theorem finished_answered (hcmds : (loomOf s l).cmds = [c]) (hop : c.op < 8) (hcode : code < 256) : Answered (finished s l c code) l c.op code := by
  refine ⟨by rw [loomOf_finished, hcmds]; rfl, by rw [loomOf_finished], ?_, ?_⟩
  · unfold finished endCmd
    rw [rdF_syncLoom_of_behind _ _ _ _ (by omega), rdF_wrF_apart _ _ _ _ _ _ _ (by omega) (by omega) (by omega), rdF_wrF_self _ _ _ _ _ (by omega) (by omega)]
    exact Nat.mod_eq_of_lt hcode
  · unfold finished endCmd
    rw [rdF_syncLoom_of_behind _ _ _ _ (by omega), rdF_wrF_self _ _ _ _ _ (by omega) (by omega)]
    exact Nat.mod_eq_of_lt hop

theorem runCmds_of_empty (n : Nat) (h : (loomOf s l).cmds = []) : runCmds n s l = s := by
  cases n with
  | zero => rfl
  | succ n => simp [runCmds, h]

theorem runCmds_of_finished (n : Nat) (hcmds : (loomOf s l).cmds = [c]) (hexec : (loomOf s l).executing = false)
    (hbegin : beginCmd s l c = (t, some code)) (ht : (loomOf t l).cmds = [c]) : runCmds (n + 1) s l = endCmd t l c.op code := by
  have hempty : (loomOf (endCmd t l c.op code) l).cmds = [] := by
    show (loomOf (setLoom t l _) l).cmds = []
    rw [loomOf_setLoom_self, ht]
    rfl
  simp [runCmds, hcmds, hexec, hbegin, runCmds_of_empty n hempty]

theorem runCmds_of_started (n : Nat) (hcmds : (loomOf s l).cmds = [c]) (hexec : (loomOf s l).executing = false)
    (hbegin : beginCmd s l c = (t, none)) : runCmds (n + 1) s l = setLoom t l { loomOf t l with executing := true } := by
  simp [runCmds, hcmds, hexec, hbegin]

/-- A loom's queue takes a command at once: its page is open and the queue is empty (R257, R435). -/
structure QueueFree (s : State) (l : Nat) : Prop where
  page : (blkOf s (loomKey l 0)).resetting = false
  awake : s.power.s5 = false
  empty : (loomOf s l).cmds = []
  idle : (loomOf s l).executing = false

theorem QueueFree.cmds_queued (h : QueueFree s l) (c : LoomCmd) : (loomOf (queued s l c) l).cmds = [c] := by
  unfold queued
  rw [loomOf_setLoom_self, h.empty]
  rfl

theorem QueueFree.executing_queued (h : QueueFree s l) (c : LoomCmd) : (loomOf (queued s l c) l).executing = false := by
  unfold queued
  rw [loomOf_setLoom_self]
  exact h.idle

/-- A command other than DESTROY, written to a free queue, starts at once (R257, R258). -/
theorem QueueFree.write_eq (h : QueueFree s l) (hop : c.op ≠ 0 ∧ c.op ≤ 5 ∧ c.op ≠ 4) :
    onPage (loomKey l 0) 0x100 (fun u => opLoomCmd u l c) s = syncLoom (runCmds 10 (queued s l c) l) l := by
  obtain ⟨hzero, hfive, hfour⟩ := hop
  have hcmd : opLoomCmd s l c = appendCmd s l c := by
    unfold opLoomCmd
    rw [if_neg (by omega), h.empty]
    rfl
  have happend : appendCmd s l c = syncLoom (runCmds 10 (queued s l c) l) l := by
    simp only [appendCmd, hfour, false_and, if_false]
    rfl
  rw [← happend, ← hcmd]
  simp [onPage, asleep, h.page, h.awake]

/-- A command that finishes at once (R258). -/
theorem QueueFree.effect_of_finished {K : Nat → Prop} {ps : List Part} (h : QueueFree s l) (hop : c.op ≠ 0 ∧ c.op ≤ 5 ∧ c.op ≠ 4)
    (hbegin : beginCmd (queued s l c) l c = (t, some code)) (hframe : Frame K ps (queued s l c) t) (ht : (loomOf t l).cmds = [c]) :
    effect (onPage (loomKey l 0) 0x100 fun u => opLoomCmd u l c) s = .next (finished t l c code) := by
  have hall : Frame (fun k => K k ∨ queueRegs l k) (.looms :: ps) s (finished t l c code) :=
    (((queued_frame s l c).mono (fun _ hn => hn.elim) (by simp)).trans (hframe.mono (fun _ => .inl) fun _ => List.mem_cons_of_mem _)).trans
      ((finished_frame t l c code).mono (fun _ => .inr) (by simp))
  rw [effect_eq, h.write_eq hop, runCmds_of_finished 9 (h.cmds_queued c) (h.executing_queued c) hbegin ht]
  exact congrArg Host.Outcome.next (keep_of_frame hall)

/-- A command that starts and does not finish at once (R258). -/
theorem QueueFree.effect_of_started {K : Nat → Prop} {ps : List Part} (h : QueueFree s l) (hop : c.op ≠ 0 ∧ c.op ≤ 5 ∧ c.op ≠ 4)
    (hbegin : beginCmd (queued s l c) l c = (t, none)) (hframe : Frame K ps (queued s l c) t) :
    effect (onPage (loomKey l 0) 0x100 fun u => opLoomCmd u l c) s = .next (started t l) := by
  have hall : Frame (fun k => K k ∨ queueRegs l k) (.looms :: ps) s (started t l) :=
    (((queued_frame s l c).mono (fun _ hn => hn.elim) (by simp)).trans (hframe.mono (fun _ => .inl) fun _ => List.mem_cons_of_mem _)).trans
      ((started_frame t l).mono (fun _ => .inr) (by simp))
  rw [effect_eq, h.write_eq hop, runCmds_of_started 9 (h.cmds_queued c) (h.executing_queued c) hbegin]
  exact congrArg Host.Outcome.next (keep_of_frame hall)

/-- A command that only answers a code (R258, R259). -/
theorem QueueFree.effect_of_answer (h : QueueFree s l) (hop : c.op ≠ 0 ∧ c.op ≤ 5 ∧ c.op ≠ 4) (hcode : code < 256)
    (hbegin : beginCmd (queued s l c) l c = (queued s l c, some code)) :
    ∃ t, effect (onPage (loomKey l 0) 0x100 fun u => opLoomCmd u l c) s = .next t ∧ Answered t l c.op code ∧ loomSt t l = loomSt s l ∧
      Frame (queueRegs l) [.looms] s t := by
  have hcmds := h.cmds_queued c
  refine ⟨_, h.effect_of_finished hop hbegin (Frame.refl (K := noReg) (ps := []) _) hcmds, finished_answered hcmds (by omega) hcode, ?_, ?_⟩
  · rw [loomSt_finished]
    rfl
  · exact ((queued_frame s l c).mono (fun _ hn => hn.elim) fun _ hp => hp).trans (finished_frame _ _ _ _)

end Queue

-- ## CREATE

section Create

variable {s : State} {l : Nat}

theorem exec_loomCreate_eq (l : LoomId) (s : State) : exec (.loomCreate l) s = effect (onPage (loomKey l 0) 0x100 fun u => opLoomCmd u l { op := 1 }) s := rfl

theorem firstBad_lt {cs : List (Nat × Bool)} {n : Nat} (hn : 0 < n) (h : ∀ p ∈ cs, p.1 < n) : firstBad cs < n := by
  unfold firstBad
  split
  · exact h _ (List.mem_of_find?_eq_some ‹_›)
  · exact hn

theorem createCheck_lt (s : State) (l : Nat) : createCheck s l < 256 := firstBad_lt (by omega) (by simp)

theorem winBad_queued (s : State) (l : Nat) (c : LoomCmd) : winBad (queued s l c) = winBad s := by
  funext w n
  unfold winBad
  rw [show stackOut (queued s l c) = stackOut s from rfl]

theorem windowsBad_queued (s : State) (l : Nat) (c : LoomCmd) : windowsBad (queued s l c) l = windowsBad s l := by
  funext f
  unfold windowsBad
  rw [winBad_queued, show otherLooms (queued s l c) l = otherLooms s l from rfl, show liveWins (queued s l c) = liveWins s from rfl]

/-- The checks of CREATE do not look at command queues. -/
theorem createCheck_queued (s : State) (l : Nat) (c : LoomCmd) : createCheck (queued s l c) l = createCheck s l := by
  have hcheck : createCheck (queued s l c) l = firstBad [(0x02, coresBad s l (loomPage s l)), (0x03, windowsBad (queued s l c) l (loomPage s l)),
      (0x04, poolsBad s l (loomPage s l)), (0x05, ringsBad s l (loomPage s l)), (0x06, knotsBad s l (loomPage s l)), (0x07, quotaBad s l (loomPage s l)),
      (0x08, codecsBad s l (loomPage s l)), (0x09, functionBad s l (loomPage s l)), (0x0A, regulatorsBad s l (loomPage s l)),
      (0x0B, tapestryBad s l (loomPage s l))] := rfl
  rw [hcheck, windowsBad_queued]
  rfl

/-- CREATE when its turn comes (R258, R259, R402). -/
theorem beginCmd_create (s : State) (l : Nat) : beginCmd s l { op := 1 } =
    if !ready s then (s, some 1) else if loomSt s l ≠ 0 then (s, some 1) else if createCheck s l ≠ 0 then (s, some (createCheck s l)) else (createLoom s l, some 0) := rfl

end Create
end Sys2Proof.Machine

namespace Sys2Proof.Machine

-- ## What a passed CREATE does

section Tables

variable {α : Type} (d : α)

theorem tget_foldl_tput_of_not_mem (key : Nat → Nat) (val : Nat → α) (ks : List Nat) (k : Nat) (h : ∀ o ∈ ks, key o ≠ k) :
    ∀ t : Tab α, tget d (ks.foldl (fun t o => tput t (key o) (val o)) t) k = tget d t k := by
  induction ks with
  | nil => exact fun _ => rfl
  | cons x r ih =>
    intro t
    have hx : k ≠ key x := (h x (by simp)).symm
    exact (ih (fun o ho => h o (by simp [ho])) _).trans (tget_tput_of_ne _ _ _ _ _ hx)

theorem tget_foldl_tput_of_mem (key : Nat → Nat) (val : Nat → α) (hkey : ∀ o p, key o = key p → o = p) (ks : List Nat) {o : Nat} (ho : o ∈ ks) :
    ∀ t : Tab α, tget d (ks.foldl (fun t o => tput t (key o) (val o)) t) (key o) = val o := by
  induction ks with
  | nil => cases ho
  | cons x r ih =>
    intro t
    by_cases hr : o ∈ r
    · exact ih hr _
    · obtain rfl : o = x := by simpa [hr] using ho
      rw [List.foldl_cons, tget_foldl_tput_of_not_mem d key val r _ fun p hp e => hr ((hkey p o e) ▸ hp)]
      exact tget_tput_self _ _ _ _

theorem tget_filter (keeps : Nat → Bool) (t : Tab α) (k : Nat) : tget d (t.filter fun p => keeps p.1) k = if keeps k then tget d t k else d := by
  induction t with
  | nil => simp [tget]
  | cons p r ih =>
    obtain ⟨j, v⟩ := p
    by_cases hj : j = k
    · subst hj
      cases hkeep : keeps j <;> simp [List.filter, tget, hkeep, ih]
    · cases hkeep : keeps j <;> simp [List.filter, tget, hkeep, hj, ih]

theorem tget_map_at (at' : Nat → Bool) (f : α → α) (hd : f d = d) (t : Tab α) (k : Nat) :
    tget d (t.map fun p => if at' p.1 then (p.1, f p.2) else p) k = if at' k then f (tget d t k) else tget d t k := by
  induction t with
  | nil => simp [tget, hd]
  | cons p r ih =>
    obtain ⟨j, v⟩ := p
    by_cases hj : j = k
    · subst hj
      cases hat : at' j <;> simp [tget, hat]
    · cases hat : at' j <;> simpa [tget, hat, hj] using ih

end Tables

section Registers

variable {K : Nat → Prop} {ps : List Part} {s t : State} {l : Nat}

theorem loomKey_inj {o p : Nat} (h : loomKey l o = loomKey l p) : o = p := by
  unfold loomKey at h
  omega

theorem pageRegs_loomKey {o : Nat} (h : o < 0x1000) : pageRegs (loomKey l 0) (loomKey l o) := by
  unfold pageRegs loomKey
  omega

theorem rd_foldl_wr_of_mem (key : Nat → Nat) (v : Word32) (cs : List Nat) {c : Nat} (hc : c ∈ cs) :
    ∀ s : State, rd (cs.foldl (fun t c => wr t (key c) v) s) (key c) = v := by
  induction cs with
  | nil => cases hc
  | cons x r ih =>
    intro s
    by_cases hr : c ∈ r
    · exact ih hr _
    · obtain rfl : c = x := by simpa [hr] using hc
      have hkept : ∀ (cs : List Nat) (u : State), rd u (key c) = v → rd (cs.foldl (fun t c => wr t (key c) v) u) (key c) = v := by
        intro cs
        induction cs with
        | nil => exact fun _ h => h
        | cons y r ih => exact fun u h => ih _ (by rw [rd_wr]; split <;> simp [h])
      exact hkept r _ (rd_wr_self _ _ _)

theorem Frame.delReg (h : Frame K ps s t) {k : Nat} (hk : K k) : Frame K ps s { t with regs := tdel t.regs k } := by
  refine ⟨fun j hj => ?_, fun p hp => ?_, h.fuse, h.time, h.pending⟩
  · have hjk : j ≠ k := fun e => hj (e ▸ hk)
    rw [← h.regs j hj]
    unfold rd
    rw [tfind_tdel_of_ne _ _ _ hjk]
    rfl
  · have := h.parts p hp
    cases p <;> exact this

theorem Frame.clearOffs (h : Frame K ps s t) (offs : List Nat) (hk : ∀ o ∈ offs, K (loomKey l o)) : Frame K ps s (clearOffs t l offs) :=
  Frame.foldl _ _ h fun o ho _ hu => hu.delReg (hk o ho)

theorem Frame.setOwners (h : Frame K ps s t) (hcore : ∀ c, K (coreKey c 0x34)) (hcodec : ∀ n < 16, K (codecKey n 0x34)) (v : Word32) :
    Frame K ps s (setOwners t l v) := by
  unfold Machine.setOwners
  refine Frame.foldl _ _ (Frame.foldl _ _ h fun c _ u hu => hu.wr (hcore c) v) fun n hn u hu => hu.wr (hcodec n ?_) v
  simpa using (List.mem_filter.mp hn).1

theorem rd_setOwners_core (s : State) (l : Nat) (v : Word32) {c : Nat} (hc : c ∈ loomCores s l) : rd (setOwners s l v) (coreKey c 0x34) = v := by
  have hcodecs : Frame (fun k => k < 0x400000) [] ((loomCores s l).foldl (fun t c => wr t (coreKey c 0x34) v) s) (setOwners s l v) := by
    refine Frame.foldl _ _ (Frame.refl _) fun n hn u hu => hu.wr ?_ v
    have hlt : n < 16 := by simpa using (List.mem_filter.mp hn).1
    unfold codecKey
    omega
  rw [hcodecs.regs _ (by unfold coreKey; omega)]
  exact rd_foldl_wr_of_mem (coreKey · 0x34) v _ hc s

end Registers

section Created

variable (s : State) (l : Nat) (offs : List Nat)

/-- The registers that CREATE's own effects write: its page's, and the owners of cores and codec channels. -/
def createRegs : Nat → Prop := fun k => pageRegs (loomKey l 0) k ∨ (∃ c, k = coreKey c 0x34) ∨ ∃ n, k = codecKey n 0x34

/-- The page's settings taken over, its knots 0 and its rings disabled: the part of a passed CREATE that is no register (R260). -/
def emptied : State :=
  let u := takeSettings s l offs
  { u with
    knots := u.knots.filter fun p => !within p.1 1 (lvF u l 0x118 15 0) (lvF u l 0x11C 16 0)
    rings := u.rings.map fun p => if within p.1 1 (ringBase u l) (lvF u l 0x114 18 0) then (p.1, { p.2 with enable := false, faulted := false }) else p }

/-- The counters that CREATE resets (R260). -/
def counterOffs : List Nat := [0x440, 0x444, 0x4AC, 0x4B0, 0x4B4, 0x4B8, 0x4A8] ++ (List.range 16).map (0x500 + 4 * ·)

/-- The counters reset and the owners set, on the loom that CREATE has emptied. -/
def owned : State := setOwners (clearOffs (emptied s l offs) l counterOffs) l (BitVec.ofNat 32 (2 ^ 31 + l))

/-- A passed CREATE that takes over the settings at the offsets given. -/
def createdFrom : State := setLoomSt (setLoom (owned s l offs) l { cmds := (loomOf (owned s l offs) l).cmds }) l 1

variable {offs}

theorem lv_takeSettings {o : Nat} (ho : o ∈ offs) : lv (takeSettings s l offs) l o = loomPage s l o :=
  tget_foldl_tput_of_mem 0 (loomKey l) (loomPage s l) (fun _ _ => loomKey_inj) offs ho s.live

/-- The other looms keep their settings: pages lie apart. -/
theorem lv_takeSettings_of_ne {m o : Nat} (hoffs : ∀ p ∈ offs, p < 0x1000) (hm : m ≠ l) (ho : o < 0x1000) : lv (takeSettings s l offs) m o = lv s m o := by
  refine tget_foldl_tput_of_not_mem 0 (loomKey l) (loomPage s l) offs _ (fun p hp => ?_) s.live
  have := hoffs p hp
  unfold loomKey
  omega

theorem lvF_takeSettings {o : Nat} (ho : o ∈ offs) (hi lo : Nat) : lvF (takeSettings s l offs) l o hi lo = fld (loomPage s l o) hi lo :=
  congrArg (fld · hi lo) (lv_takeSettings s l ho)

theorem settingOffs_lt {o : Nat} (ho : o ∈ settingOffs) : o < 0x1000 := by
  simp only [settingOffs, List.mem_append, List.mem_cons, List.mem_map, List.mem_range, List.not_mem_nil, or_false] at ho
  omega

theorem counterOffs_lt {o : Nat} (ho : o ∈ counterOffs) : o < 0x1000 := by
  simp only [counterOffs, List.mem_append, List.mem_cons, List.mem_map, List.mem_range, List.not_mem_nil, or_false] at ho
  omega

variable (offs)

theorem createLoom_eq : createLoom s l = createdFrom s l settingOffs := rfl

theorem emptied_frame : Frame noReg [.live, .knots, .rings] s (emptied s l offs) :=
  (((Frame.refl s).set_live (by simp) (emptied s l offs).live).set_knots (by simp) (emptied s l offs).knots).set_rings (by simp) (emptied s l offs).rings

theorem cleared_frame : Frame (pageRegs (loomKey l 0)) [] (emptied s l offs) (clearOffs (emptied s l offs) l counterOffs) :=
  Frame.clearOffs (Frame.refl _) _ fun _ ho => pageRegs_loomKey (counterOffs_lt ho)

theorem owned_frame : Frame (createRegs l) [] (emptied s l offs) (owned s l offs) :=
  ((cleared_frame s l offs).mono (fun _ => .inl) fun _ h => h).setOwners (fun c => .inr (.inl ⟨c, rfl⟩)) (fun n _ => .inr (.inr ⟨n, rfl⟩)) _

/-- What CREATE changes after the owners are set: the loom's record and its state. -/
theorem createdFrom_frame_owned : Frame (queueRegs l) [.looms] (owned s l offs) (createdFrom s l offs) :=
  ((Frame.refl _).setLoom (by simp) _ _).wrF (by simp [queueRegs, someRegs]) _ _ _

theorem createRegs_of_queueRegs {k : Nat} (h : queueRegs l k) : createRegs l k := by
  simp only [queueRegs, someRegs, List.mem_cons, List.not_mem_nil, or_false] at h
  rcases h with rfl | rfl <;> exact .inl (pageRegs_loomKey (by omega))

theorem createdFrom_frame : Frame (createRegs l) [.live, .knots, .rings, .looms] s (createdFrom s l offs) :=
  (((emptied_frame s l offs).mono (fun _ hn => hn.elim) (by simp)).trans ((owned_frame s l offs).mono (fun _ h => h) (by simp))).trans
    ((createdFrom_frame_owned s l offs).mono (fun _ => createRegs_of_queueRegs l) (by simp))

theorem loomOf_createdFrom : loomOf (createdFrom s l offs) l = { cmds := (loomOf s l).cmds } := by
  refine (loomOf_setLoom_self _ _ _).trans ?_
  rw [(owned_frame s l offs).loomOf_eq (by simp), (emptied_frame s l offs).loomOf_eq (by simp)]

theorem loomSt_createdFrom : loomSt (createdFrom s l offs) l = 1 := rdF_wrF_self _ _ _ _ _ (by omega) (by omega)

/-- From the emptied loom on, CREATE leaves settings, knots and rings alone. -/
theorem createdFrom_same {p : Part} (hp : p ≠ .looms) : p.same (emptied s l offs) (createdFrom s l offs) :=
  p.same_trans ((owned_frame s l offs).parts p (by simp)) ((createdFrom_frame_owned s l offs).parts p (by simpa using hp))

theorem lv_createdFrom (m o : Nat) : lv (createdFrom s l offs) m o = lv (takeSettings s l offs) m o :=
  congrArg (tget 0 · (loomKey m o)) (createdFrom_same s l offs (p := .live) (by decide))

variable {offs}

theorem knotOf_createdFrom (hbase : 0x118 ∈ offs) (hcount : 0x11C ∈ offs) (k : Nat) :
    knotOf (createdFrom s l offs) k = if within k 1 (fld (loomPage s l 0x118) 15 0) (fld (loomPage s l 0x11C) 16 0) then 0 else knotOf s k := by
  rw [← lvF_takeSettings s l hbase, ← lvF_takeSettings s l hcount]
  refine (congrArg (tget 0 · k) (createdFrom_same s l offs (p := .knots) (by decide))).trans ((tget_filter 0 (fun j => !within j 1 _ _) s.knots k).trans ?_)
  cases within k 1 (lvF (takeSettings s l offs) l 0x118 15 0) (lvF (takeSettings s l offs) l 0x11C 16 0) <;> rfl

theorem ringOf_createdFrom (hbase : 0x110 ∈ offs) (hcount : 0x114 ∈ offs) (r : Nat) :
    ringOf (createdFrom s l offs) r =
      if within r 1 (fld (loomPage s l 0x110) 17 0) (fld (loomPage s l 0x114) 18 0) then { ringOf s r with enable := false, faulted := false } else ringOf s r := by
  rw [← lvF_takeSettings s l hbase, ← lvF_takeSettings s l hcount]
  rw [(createdFrom_frame_owned s l offs).ringOf_eq (by simp), (owned_frame s l offs).ringOf_eq (by simp)]
  exact tget_map_at {} (fun j => within j 1 (ringBase (takeSettings s l offs) l) (lvF (takeSettings s l offs) l 0x114 18 0)) (fun x => { x with enable := false, faulted := false }) rfl s.rings r

/-- The cores of the loom's page are bound to it. -/
theorem mem_loomCores_of_setHas {t : State} {c : Nat} (hlive : ∀ o, lv t l o = lv (takeSettings s l offs) l o) (hword : 0x140 + c / 32 * 4 ∈ offs) (hc : c < 384)
    (h : setHas (loomPage s l) c = true) : c ∈ loomCores t l := by
  have hbit : inCoreSet t l c = setHas (loomPage s l) c := by
    unfold inCoreSet setHas
    rw [hlive, lv_takeSettings s l hword]
  unfold loomCores
  exact List.mem_filter.mpr ⟨by simpa using hc, hbit.trans h⟩

theorem rd_owner_createdFrom {c : Nat} (hword : 0x140 + c / 32 * 4 ∈ offs) (hc : c < 384) (h : setHas (loomPage s l) c = true) :
    rd (createdFrom s l offs) (coreKey c 0x34) = BitVec.ofNat 32 (2 ^ 31 + l) := by
  have hout : ¬ queueRegs l (coreKey c 0x34) := by
    simp only [queueRegs, someRegs, List.mem_cons, List.not_mem_nil, or_false, coreKey, loomKey]
    omega
  rw [(createdFrom_frame_owned s l offs).regs _ hout]
  exact rd_setOwners_core _ _ _ (mem_loomCores_of_setHas s l (fun o => congrArg (tget 0 · (loomKey l o)) ((cleared_frame s l offs).parts .live (by simp))) hword hc h)

theorem coreWord_mem_settingOffs {c : Nat} (hc : c < 384) : 0x140 + c / 32 * 4 ∈ settingOffs := by
  have hrow : ∀ i < 12, 0x140 + i * 4 ∈ settingOffs := by decide
  exact hrow _ (by omega)

end Created

-- ## The write of CREATE

section CreateWrite

variable {s : State} {l : LoomId}

/-- The state that a passed CREATE in an empty queue leaves. -/
def createdState (s : State) (l : Nat) : State := finished (createdFrom (queued s l { op := 1 }) l settingOffs) l { op := 1 } 0

theorem exec_loomCreate_of_ok (h : QueueFree s l) (hready : ready s = true) (hst : loomSt s l = 0) (hcheck : createCheck s l = 0) :
    exec (.loomCreate l) s = .next (createdState s l) ∧ Answered (createdState s l) l 1 0 ∧ (loomOf (createdState s l) l).pickSeq = 1 := by
  have hbegin : beginCmd (queued s l { op := 1 }) l { op := 1 } = (createdFrom (queued s l { op := 1 }) l settingOffs, some 0) := by
    rw [beginCmd_create, createCheck_queued, show ready (queued s l { op := 1 }) = ready s from rfl, show loomSt (queued s l { op := 1 }) l = loomSt s l from rfl,
      createLoom_eq]
    simp [hready, hst, hcheck]
  have hframe := createdFrom_frame (queued s l { op := 1 }) l settingOffs
  have hloom := loomOf_createdFrom (queued s l { op := 1 }) l settingOffs
  rw [h.cmds_queued] at hloom
  rw [exec_loomCreate_eq]
  unfold createdState
  generalize createdFrom (queued s l { op := 1 }) l settingOffs = u at hbegin hframe hloom ⊢
  have hlist : (loomOf u l).cmds = [{ op := 1 }] := by rw [hloom]
  exact ⟨h.effect_of_finished (by decide) hbegin hframe hlist, finished_answered hlist (by decide) (by decide), by rw [loomOf_finished, hloom]⟩

/-- A CREATE that answers a code and no more (R258, R259). -/
theorem exec_loomCreate_of_answer (h : QueueFree s l) {code : Nat} (hcode : code < 256)
    (hbegin : beginCmd (queued s l { op := 1 }) l { op := 1 } = (queued s l { op := 1 }, some code)) :
    ∃ t, exec (.loomCreate l) s = .next t ∧ Answered t l 1 code ∧ loomSt t l = loomSt s l ∧ Frame (queueRegs l) [.looms] s t :=
  h.effect_of_answer (by decide) hcode hbegin

theorem exec_loomCreate_of_failing (h : QueueFree s l) (hready : ready s = true) (hst : loomSt s l = 0) (hcheck : createCheck s l ≠ 0) :
    ∃ t, exec (.loomCreate l) s = .next t ∧ Answered t l 1 (createCheck s l) ∧ loomSt t l = loomSt s l ∧ Frame (queueRegs l) [.looms] s t := by
  refine exec_loomCreate_of_answer h (createCheck_lt s l) ?_
  rw [beginCmd_create, createCheck_queued, show ready (queued s l { op := 1 }) = ready s from rfl, show loomSt (queued s l { op := 1 }) l = loomSt s l from rfl]
  simp [hready, hst, hcheck]

theorem exec_loomCreate_of_bound (h : QueueFree s l) (hready : ready s = true) (hst : loomSt s l ≠ 0) :
    ∃ t, exec (.loomCreate l) s = .next t ∧ Answered t l 1 1 ∧ loomSt t l = loomSt s l ∧ Frame (queueRegs l) [.looms] s t := by
  refine exec_loomCreate_of_answer h (by decide) ?_
  rw [beginCmd_create, show ready (queued s l { op := 1 }) = ready s from rfl, show loomSt (queued s l { op := 1 }) l = loomSt s l from rfl]
  simp [hready, hst]

variable (s l)

theorem createdState_frame_created : Frame (queueRegs l) [.looms] (createdFrom (queued s l { op := 1 }) l settingOffs) (createdState s l) := finished_frame _ _ _ _

theorem createdState_frame : Frame (createRegs l) [.live, .knots, .rings, .looms] s (createdState s l) :=
  (((queued_frame s l _).mono (fun _ hn => hn.elim) (by simp)).trans (createdFrom_frame _ _ settingOffs)).trans
    ((createdState_frame_created s l).mono (fun _ => createRegs_of_queueRegs l) (by simp))

theorem loomSt_createdState : loomSt (createdState s l) l = 1 := (loomSt_finished _ _ _ _).trans (loomSt_createdFrom _ _ settingOffs)

theorem lv_createdState (m o : Nat) : lv (createdState s l) m o = lv (takeSettings (queued s l { op := 1 }) l settingOffs) m o :=
  (congrArg (tget 0 · (loomKey m o)) ((createdState_frame_created s l).parts .live (by simp))).trans (lv_createdFrom _ _ settingOffs m o)

theorem lv_createdState_of_mem {o : Nat} (ho : o ∈ settingOffs) : lv (createdState s l) l o = rd s (loomKey l o) :=
  (lv_createdState s l l o).trans (lv_takeSettings _ _ ho)

theorem lv_createdState_of_ne {m o : Nat} (hm : m ≠ l) (ho : o < 0x1000) : lv (createdState s l) m o = lv s m o :=
  (lv_createdState s l m o).trans (lv_takeSettings_of_ne _ _ (fun _ => settingOffs_lt) hm ho)

theorem knotOf_createdState (k : Nat) :
    knotOf (createdState s l) k = if within k 1 (fld (loomPage s l 0x118) 15 0) (fld (loomPage s l 0x11C) 16 0) then 0 else knotOf s k :=
  (congrArg (tget 0 · k) ((createdState_frame_created s l).parts .knots (by simp))).trans (knotOf_createdFrom _ _ (by decide) (by decide) k)

theorem ringOf_createdState (r : Nat) :
    ringOf (createdState s l) r =
      if within r 1 (fld (loomPage s l 0x110) 17 0) (fld (loomPage s l 0x114) 18 0) then { ringOf s r with enable := false, faulted := false } else ringOf s r :=
  ((createdState_frame_created s l).ringOf_eq (by simp) r).trans
    (ringOf_createdFrom (queued s l { op := 1 }) l (offs := settingOffs) (by decide) (by decide) r)

theorem rd_owner_createdState {c : Nat} (hc : c < 384) (h : setHas (loomPage s l) c = true) :
    rd (createdState s l) (coreKey c 0x34) = BitVec.ofNat 32 (2 ^ 31 + l) := by
  have hout : ¬ queueRegs l (coreKey c 0x34) := by
    simp only [queueRegs, someRegs, List.mem_cons, List.not_mem_nil, or_false, coreKey, loomKey]
    omega
  rw [(createdState_frame_created s l).regs _ hout]
  exact rd_owner_createdFrom _ _ (coreWord_mem_settingOffs hc) hc h

end CreateWrite

end Sys2Proof.Machine

namespace Sys2Proof.Machine

-- ## START powers the cores up

section PowerUp

variable {K : Nat → Prop} {ps : List Part} {s t : State} {l c d : Nat}

/-- The power states of cores. -/
def gateRegs : Nat → Prop := fun k => ∃ c, k = coreKey c 0x38

/-- The pages of the regions. -/
def wakeRegs : Nat → Prop := fun k => ∃ r, pageRegs (regionKey r 0) k

theorem wakeRegs_regionKey (r : Nat) {o : Nat} (h : o < 0x1000) : wakeRegs (regionKey r o) :=
  ⟨r, by unfold pageRegs regionKey; omega⟩

theorem coreKey_eq_iff {o : Nat} : coreKey d o = coreKey c o ↔ d = c := by
  unfold coreKey
  omega

theorem Frame.powerUp (h : Frame K ps s t) (hk : K (coreKey c 0x38)) (hp : Part.mem ∈ ps) : Frame K ps s (powerUp t c) := by
  unfold Machine.powerUp
  exact Frame.ite (fun _ => h) fun _ => (Frame.ite (fun _ => h.memZero hp _ _) fun _ => h).wr hk _

theorem powerUps_frame (s : State) (cs : List Nat) : Frame gateRegs [.mem] s (cs.foldl powerUp s) :=
  Frame.foldl _ _ (Frame.refl s) fun c _ _ hu => hu.powerUp ⟨c, rfl⟩ (by simp)

theorem powerUp_of_retired (h : coreAvail s c = false) : powerUp s c = s := by simp [powerUp, h]

/-- The map of available cores is no power state. -/
theorem coreAvail_of_frame (h : Frame gateRegs ps s t) (hd : d < 384) : coreAvail t d = coreAvail s d := by
  unfold coreAvail
  rw [h.regs]
  rintro ⟨x, hx⟩
  simp only [mbxKey, coreKey] at hx
  omega

theorem rd_powerUp (s : State) (c d : Nat) : rd (powerUp s c) (coreKey d 0x38) = if d = c ∧ coreAvail s c = true then 0 else rd s (coreKey d 0x38) := by
  cases havail : coreAvail s c with
  | false => simp [powerUp_of_retired havail]
  | true =>
    have hcore : rd (if rd s (coreKey c 0x38) = 2 then memZero s (spAddr c 0) 0x1C00000 else s) (coreKey d 0x38) = rd s (coreKey d 0x38) := by
      split <;> rfl
    simp only [powerUp, havail, Bool.not_true, Bool.false_eq_true, if_false, rd_wr, hcore, coreKey_eq_iff, and_true]

theorem mem_powerUp (s : State) (c b : Nat) :
    cget (powerUp s c).mem b =
      if coreAvail s c = true ∧ rd s (coreKey c 0x38) = 2 ∧ spAddr c 0 ≤ b ∧ b < spAddr c 0 + 0x1C00000 then 0 else cget s.mem b := by
  cases havail : coreAvail s c with
  | false => simp [powerUp_of_retired havail]
  | true =>
    have hmem : (powerUp s c).mem = (if rd s (coreKey c 0x38) = 2 then memZero s (spAddr c 0) 0x1C00000 else s).mem := by
      simp only [powerUp, havail, Bool.not_true, Bool.false_eq_true, if_false]
      rfl
    rw [hmem]
    by_cases hgated : rd s (coreKey c 0x38) = 2
    · simp only [hgated, if_true, true_and, memZero, cget_czero]
      by_cases hb : spAddr c 0 ≤ b ∧ b < spAddr c 0 + 0x1C00000
      · rw [if_neg (by omega), if_pos hb]
      · rw [if_pos (by omega), if_neg hb]
    · rw [if_neg hgated, if_neg (fun h => hgated h.2.1)]

theorem powerUp_frame (s : State) (c : Nat) : Frame gateRegs [.mem] s (powerUp s c) := (Frame.refl s).powerUp ⟨c, rfl⟩ (by simp)

theorem rd_powerUps (cs : List Nat) (hd : d < 384) : ∀ s : State,
    rd (cs.foldl powerUp s) (coreKey d 0x38) = if d ∈ cs ∧ coreAvail s d = true then 0 else rd s (coreKey d 0x38) := by
  induction cs with
  | nil => simp
  | cons x r ih =>
    intro s
    rw [List.foldl_cons, ih, rd_powerUp, coreAvail_of_frame (powerUp_frame s x) hd]
    by_cases hx : d = x
    · subst hx
      by_cases havail : coreAvail s d = true <;> simp [havail]
    · simp [hx]

/-- A byte that is zero stays zero while cores power up. -/
theorem mem_powerUps_of_zero {b : Nat} (cs : List Nat) : ∀ s : State, cget s.mem b = 0 → cget (cs.foldl powerUp s).mem b = 0 := by
  induction cs with
  | nil => exact fun _ h => h
  | cons x r ih =>
    intro s h
    refine ih _ ?_
    rw [mem_powerUp, h, ite_self]

theorem mem_powerUps_of_woken {b : Nat} (hd : d < 384) (hb : spAddr d 0 ≤ b ∧ b < spAddr d 0 + 0x1C00000) (cs : List Nat) :
    ∀ s : State, d ∈ cs → coreAvail s d = true → rd s (coreKey d 0x38) = 2 → cget (cs.foldl powerUp s).mem b = 0 := by
  induction cs with
  | nil => exact fun _ h => nomatch h
  | cons x r ih =>
    intro s hmem havail hgated
    by_cases hx : d = x
    · subst hx
      refine mem_powerUps_of_zero r _ ?_
      rw [mem_powerUp, if_pos ⟨havail, hgated, hb⟩]
    · refine ih _ (by simpa [hx] using hmem) ?_ ?_
      · rwa [coreAvail_of_frame (powerUp_frame s x) hd]
      · rwa [rd_powerUp, if_neg (fun h => hx h.1)]

theorem mem_powerUps_outside {b : Nat} (cs : List Nat) :
    ∀ s : State, (∀ c ∈ cs, b < spAddr c 0 ∨ spAddr c 0 + 0x1C00000 ≤ b) → cget (cs.foldl powerUp s).mem b = cget s.mem b := by
  induction cs with
  | nil => exact fun _ _ => rfl
  | cons x r ih =>
    intro s h
    have hx := h x (by simp)
    rw [List.foldl_cons, ih _ fun c hc => h c (by simp [hc]), mem_powerUp, if_neg]
    omega

theorem Frame.wakeRegions (h : Frame K ps s t) (hk : ∀ k, wakeRegs k → K k) (old : State) : Frame K ps s (wakeRegions old t) := by
  have hkey := fun r (o : Nat) (ho : o < 0x1000) => hk _ (wakeRegs_regionKey r ho)
  unfold Machine.wakeRegions
  refine Frame.foldl _ _ (h.reeval fun r _ => hkey r 0x104 (by omega)) fun r _ u hu => Frame.ite (fun _ => ?_) fun _ => hu
  exact (hu.wrF (hkey r 0x104 (by omega)) _ _ _).wrF (hkey r 0x110 (by omega)) _ _ _

theorem beginStart_frame_powered (s : State) (l : Nat) : Frame wakeRegs [] ((loomCores s l).foldl powerUp s) (beginStart s l) :=
  (Frame.refl _).wakeRegions (fun _ h => h) s

theorem beginStart_frame (s : State) (l : Nat) : Frame (fun k => gateRegs k ∨ wakeRegs k) [.mem] s (beginStart s l) :=
  ((powerUps_frame s _).mono (fun _ => .inl) fun _ h => h).trans ((beginStart_frame_powered s l).mono (fun _ => .inr) (by simp))

theorem lt_of_mem_loomCores (h : c ∈ loomCores s l) : c < 384 := by simpa using (List.mem_filter.mp h).1

/-- The pages of regions lie behind those of the cores. -/
theorem not_wakeRegs_coreKey (hd : d < 384) {o : Nat} (ho : o < 0x1000) : ¬ wakeRegs (coreKey d o) := by
  rintro ⟨r, hr⟩
  simp only [pageRegs, regionKey, coreKey] at hr
  omega

theorem rd_beginStart (hd : d ∈ loomCores s l) :
    rd (beginStart s l) (coreKey d 0x38) = if coreAvail s d = true then 0 else rd s (coreKey d 0x38) := by
  have hlt := lt_of_mem_loomCores hd
  rw [(beginStart_frame_powered s l).regs _ (not_wakeRegs_coreKey hlt (by omega)), rd_powerUps _ hlt]
  simp [hd]

theorem mem_beginStart (s : State) (l : Nat) : (beginStart s l).mem = ((loomCores s l).foldl powerUp s).mem :=
  (beginStart_frame_powered s l).parts .mem (by simp)

end PowerUp

section StartWrite

variable {s : State} {l : LoomId}

/-- START when its turn comes (R258, R261, R402). -/
theorem beginCmd_start (s : State) (l : Nat) : beginCmd s l { op := 2 } =
    if !ready s then (s, some 1) else if loomSt s l = 0 then (s, some 1) else if loomSt s l = 2 then (s, some 0) else (beginStart s l, none) := rfl

theorem exec_loomStart_eq (l : LoomId) (s : State) : exec (.loomStart l) s = effect (onPage (loomKey l 0) 0x100 fun u => opLoomCmd u l { op := 2 }) s := rfl

theorem exec_loomStart_of_destroyed (h : QueueFree s l) (hready : ready s = true) (hst : loomSt s l = 0) :
    ∃ t, exec (.loomStart l) s = .next t ∧ Answered t l 2 1 ∧ loomSt t l = loomSt s l ∧ Frame (queueRegs l) [.looms] s t := by
  refine h.effect_of_answer (c := { op := 2 }) (by decide) (by decide) ?_
  rw [beginCmd_start, show ready (queued s l { op := 2 }) = ready s from rfl, show loomSt (queued s l { op := 2 }) l = loomSt s l from rfl]
  simp [hready, hst]

theorem exec_loomStart_of_running (h : QueueFree s l) (hready : ready s = true) (hst : loomSt s l = 2) :
    ∃ t, exec (.loomStart l) s = .next t ∧ Answered t l 2 0 ∧ loomSt t l = loomSt s l ∧ Frame (queueRegs l) [.looms] s t := by
  refine h.effect_of_answer (c := { op := 2 }) (by decide) (by decide) ?_
  rw [beginCmd_start, show ready (queued s l { op := 2 }) = ready s from rfl, show loomSt (queued s l { op := 2 }) l = loomSt s l from rfl]
  simp [hready, hst]

/-- The state that a START in an empty queue leaves while it executes. -/
def startedState (s : State) (l : Nat) : State := started (beginStart (queued s l { op := 2 }) l) l

/-- The registers that a START writes when it begins. -/
def startRegs (l : Nat) : Nat → Prop := fun k => k = loomKey l 0x104 ∨ k = loomKey l 0x108 ∨ (∃ c, k = coreKey c 0x38) ∨ ∃ r, pageRegs (regionKey r 0) k

theorem startRegs_of_queueRegs {k : Nat} (h : queueRegs l k) : startRegs l k := by
  simp only [queueRegs, someRegs, List.mem_cons, List.not_mem_nil, or_false] at h
  exact h.imp_right .inl

theorem exec_loomStart_of_begun (h : QueueFree s l) (hready : ready s = true) (hst : loomSt s l ≠ 0 ∧ loomSt s l ≠ 2) :
    exec (.loomStart l) s = .next (startedState s l) := by
  refine h.effect_of_started (c := { op := 2 }) (by decide) ?_ (beginStart_frame _ _)
  rw [beginCmd_start, show ready (queued s l { op := 2 }) = ready s from rfl, show loomSt (queued s l { op := 2 }) l = loomSt s l from rfl]
  simp [hready, hst]

variable (s l)

theorem startedState_frame_begun : Frame (queueRegs l) [.looms] (beginStart (queued s l { op := 2 }) l) (startedState s l) := started_frame _ _

theorem startedState_frame : Frame (startRegs l) [.looms, .mem] s (startedState s l) :=
  (((queued_frame s l _).mono (fun _ hn => hn.elim) (by simp)).trans ((beginStart_frame _ _).mono (fun _ hk => .inr (.inr hk)) (by simp))).trans
    ((startedState_frame_begun s l).mono (fun _ hk => startRegs_of_queueRegs hk) (by simp))

theorem loomSt_startedState : loomSt (startedState s l) l = loomSt s l := by
  refine (loomSt_started _ _).trans ((beginStart_frame _ _).loomSt_eq ?_)
  rintro (⟨c, hc⟩ | ⟨r, hr⟩)
  · simp only [loomKey, coreKey] at hc
    omega
  · simp only [pageRegs, loomKey, regionKey] at hr
    omega

theorem loomOf_startedState : loomOf (startedState s l) l = { loomOf (queued s l { op := 2 }) l with executing := true } := by
  unfold startedState started
  rw [loomOf_syncLoom, loomOf_setLoom_self, (beginStart_frame _ _).loomOf_eq (by simp)]

variable {s l}

theorem rd_gate_startedState {c : Nat} (hc : c ∈ loomCores s l) :
    rd (startedState s l) (coreKey c 0x38) = if coreAvail s c = true then 0 else rd s (coreKey c 0x38) := by
  have hout : ¬ queueRegs l (coreKey c 0x38) := by
    simp only [queueRegs, someRegs, List.mem_cons, List.not_mem_nil, or_false, coreKey, loomKey]
    omega
  rw [(startedState_frame_begun s l).regs _ hout]
  exact rd_beginStart (s := queued s l { op := 2 }) hc

theorem mem_startedState (s : State) (l : LoomId) : (startedState s l).mem = ((loomCores s l).foldl powerUp (queued s l { op := 2 })).mem :=
  ((startedState_frame_begun s l).parts .mem (by simp)).trans (mem_beginStart _ _)

end StartWrite

end Sys2Proof.Machine

namespace Sys2Proof.Machine

-- ## START carried on

section Holding

variable {l : Nat} {s t u : State}

/-- What holding a loom's bolts leaves alone: the command queue and the keys of the loom, and all but its parks, its entries and its cores (R251, R390). -/
structure HeldIn (l : Nat) (s t : State) : Prop where
  frame : Frame (someRegs [loomKey l 0x4A8]) holdParts s t
  cmds : (loomOf t l).cmds = (loomOf s l).cmds
  executing : (loomOf t l).executing = (loomOf s l).executing
  keys : (loomOf t l).keys = (loomOf s l).keys

theorem HeldIn.refl (l : Nat) (s : State) : HeldIn l s s := ⟨Frame.refl s, rfl, rfl, rfl⟩

theorem HeldIn.trans (h : HeldIn l s t) (h' : HeldIn l t u) : HeldIn l s u :=
  ⟨h.frame.trans h'.frame, h'.cmds.trans h.cmds, h'.executing.trans h.executing, h'.keys.trans h.keys⟩

theorem heldIn_of_frame {ps : List Part} (h : Frame (someRegs [loomKey l 0x4A8]) ps s t) (hlooms : Part.looms ∉ ps) (hp : ∀ p, p ∈ ps → p ∈ holdParts) :
    HeldIn l s t := by
  have hloom := h.loomOf_eq hlooms l
  exact ⟨h.mono (fun _ hk => hk) hp, by rw [hloom], by rw [hloom], by rw [hloom]⟩

theorem heldIn_setLoom {x : Loom} (hcmds : x.cmds = (loomOf s l).cmds) (hexec : x.executing = (loomOf s l).executing) (hkeys : x.keys = (loomOf s l).keys) :
    HeldIn l s (setLoom s l x) :=
  ⟨(Frame.refl s).setLoom (by decide) _ _, by rwa [loomOf_setLoom_self], by rwa [loomOf_setLoom_self], by rwa [loomOf_setLoom_self]⟩

theorem heldIn_foldl {α : Type} (f : State → α → State) (xs : List α) (h : HeldIn l s t) (hf : ∀ x u, HeldIn l u (f u x)) : HeldIn l s (xs.foldl f t) := by
  induction xs generalizing t with
  | nil => exact h
  | cons x r ih => exact ih (h.trans (hf x t))

theorem heldIn_syncPark (l : Nat) (s : State) : HeldIn l s (syncPark s l) :=
  heldIn_of_frame (ps := []) ((Frame.refl s).wrF (by simp [someRegs]) _ _ _) (by simp) (by simp)

theorem heldIn_updEntry (l : Nat) (s : State) (r : Nat) (q : Word32) (f : Entry → Entry) : HeldIn l s (updEntry s r q f) :=
  heldIn_of_frame (ps := [.entries]) ((Frame.refl s).updEntry (by simp) r q f) (by decide) (by decide)

theorem heldIn_askStop (l : Nat) (s : State) (c : Nat) : HeldIn l s (askStop s c) :=
  heldIn_of_frame (ps := [.cores]) ((Frame.refl s).askStop (by simp) c) (by decide) (by decide)

theorem heldIn_holdBolt (l : Nat) (s : State) (e : Entry) (b : Bolt) (cs : List Nat) : HeldIn l s (holdBolt s e b cs) :=
  heldIn_of_frame (ps := [.entries, .cores]) ((Frame.refl s).holdBolt (by simp) (by simp) e b cs) (by decide) (by decide)

theorem heldIn_updPark (l : Nat) (s : State) (r : Nat) (q : Word32) (f : Park → Option Park) : HeldIn l s (updPark s l r q f) := by
  refine HeldIn.trans ?_ (heldIn_syncPark l (setLoom s l _))
  exact heldIn_setLoom rfl rfl rfl

theorem heldIn_beginPark (l : Nat) (s : State) (e : Entry) (b : Bolt) (why : ParkWhy) (asker : Nat) : HeldIn l s (beginPark s l e b why asker) := by
  refine heldIn_foldl askStop _ (HeldIn.trans (HeldIn.trans ?_ (heldIn_syncPark l (setLoom s l _))) (heldIn_updEntry l _ _ _ _)) fun c u => heldIn_askStop l u c
  exact heldIn_setLoom rfl rfl rfl

theorem heldIn_askPark (l : Nat) (s : State) (e : Entry) (why : ParkWhy) : HeldIn l s (askPark s l e why) := by
  unfold askPark
  split
  · exact heldIn_updPark l s _ _ _
  · split
    · exact heldIn_beginPark l s _ _ _ _
    · exact HeldIn.refl l s
  · exact HeldIn.refl l s

theorem heldIn_parkStep (l : Nat) (s : State) (why : ParkWhy) : HeldIn l s (parkStep s l why) := by
  unfold parkStep
  split
  · exact HeldIn.refl l s
  · split
    · exact heldIn_askPark l s _ why
    · exact HeldIn.refl l s

theorem heldIn_holdLoom (l : Nat) (s : State) : HeldIn l s (holdLoom s l) :=
  heldIn_foldl _ _ (heldIn_parkStep l s .pause) fun p u => heldIn_holdBolt l u p.1 p.2 _

theorem heldIn_applyPause (l : Nat) (s : State) : HeldIn l s (applyPause s l) := by
  unfold applyPause
  split
  · exact HeldIn.refl l s
  · refine HeldIn.trans ?_ (heldIn_holdLoom l (setLoom s l _))
    exact heldIn_setLoom rfl rfl rfl

end Holding

section Prepare

variable {K : Nat → Prop} {ps : List Part} {s t : State} {l : Nat} {c : LoomCmd}

theorem Frame.postErr (h : Frame K ps s t) (hp : Part.produced ∈ ps) (l : Nat) (e : AccErr) (srcT srcI : Nat) : Frame K ps s (postErr t l e srcT srcI) := by
  unfold Machine.postErr postAccessFault postFetchError
  refine Frame.ite (fun _ => h.produce hp _ _ _ _ _ _) fun _ => ?_
  split
  · exact h.produce hp _ _ _ _ _ _
  · exact h

theorem loomOf_postErr (s : State) (l : Nat) (e : AccErr) (srcT srcI m : Nat) : loomOf (postErr s l e srcT srcI) m = loomOf s m :=
  (Frame.postErr (K := noReg) (ps := [.produced]) (Frame.refl s) (by simp) l e srcT srcI).loomOf_eq (by decide) m

theorem Frame.setFront (h : Frame K ps s t) (hp : Part.looms ∈ ps) (l : Nat) (f : LoomCmd → LoomCmd) : Frame K ps s (setFront t l f) := by
  unfold Machine.setFront
  split
  · exact h.setLoom hp _ _
  · exact h

theorem loomOf_setFront (hcmds : (loomOf s l).cmds = [c]) (f : LoomCmd → LoomCmd) : loomOf (setFront s l f) l = { loomOf s l with cmds := [f c] } := by
  unfold setFront
  rw [hcmds]
  exact loomOf_setLoom_self _ _ _

/-- The read of a loom's key table (R235). -/
def keyTable (s : State) (l : Nat) : State × Except AccErr (List Byte) :=
  loomReadAcross s (keyWho l) l ((rd s (loomKey l 0x488)).toNat / 64 * 64 + (rd s (loomKey l 0x48C)).toNat * 2 ^ 32) (64 * rdF s (loomKey l 0x490) 6 0)

/-- The keys that a read of the table leaves the loom. -/
def keysOf (n : Nat) : Except AccErr (List Byte) → List KeyRec
  | .ok b => (List.range n).map fun i => keyOf (slice b (64 * i) 64)
  | .error _ => []

/-- The parts that preparing a loom may change. -/
def prepareParts : List Part := [.looms, .rings] ++ readParts

theorem keyTable_frame (s : State) (l : Nat) : Frame accessRegs readParts s (keyTable (fresh s) l).1 := loomReadAcross_frame s _ _ _ _

theorem copyKeys_frame (s : State) (l : Nat) : Frame accessRegs prepareParts s (copyKeys (fresh s) l) := by
  have hread : Frame accessRegs prepareParts s (keyTable (fresh s) l).1 := (keyTable_frame s l).mono (fun _ h => h) (by decide)
  change Frame accessRegs prepareParts s (match keyTable (fresh s) l with
    | (t, .ok b) => _
    | (t, .error e) => _)
  split <;> rename_i heq <;> rw [heq] at hread
  · exact hread.setLoom (by decide) _ _
  · exact (hread.setLoom (by decide) _ _).postErr (by decide) _ _ _ _

theorem loomOf_copyKeys (s : State) (l : Nat) :
    loomOf (copyKeys (fresh s) l) l = { loomOf s l with keys := keysOf (rdF s (loomKey l 0x490) 6 0) (keyTable (fresh s) l).2 } := by
  have hloom := (keyTable_frame s l).loomOf_eq (by decide) l
  change loomOf (match keyTable (fresh s) l with
    | (t, .ok b) => _
    | (t, .error e) => _) l = _
  split <;> rename_i heq <;> rw [heq] at hloom ⊢
  · refine (loomOf_setLoom_self _ _ _).trans ?_
    rw [hloom]
    rfl
  · refine (loomOf_postErr _ _ _ _ _ _).trans ((loomOf_setLoom_self _ _ _).trans ?_)
    rw [hloom]
    rfl

/-- The loom's rings fetch again, lost no more (R261, R418). -/
def foundRings (s : State) (l : Nat) : State :=
  { s with rings := s.rings.map fun p => if within p.1 1 (ringBase s l) (lvF s l 0x114 18 0) then (p.1, { p.2 with lost := false }) else p }

theorem foundRings_frame (s : State) (l : Nat) : Frame noReg [.rings] s (foundRings s l) := (Frame.refl s).set_rings (by simp) (foundRings s l).rings

theorem ringOf_foundRings (s : State) (l r : Nat) :
    ringOf (foundRings s l) r = if within r 1 (ringBase s l) (lvF s l 0x114 18 0) then { ringOf s r with lost := false } else ringOf s r :=
  tget_map_at ({} : Ring) (fun j => within j 1 (ringBase s l) (lvF s l 0x114 18 0)) (fun x : Ring => { x with lost := false }) rfl s.rings r

theorem prepareLoom_eq (s : State) (l : Nat) : prepareLoom s l =
    setFront (setLoom (foundRings (copyKeys s l) l) l { loomOf (foundRings (copyKeys s l) l) l with noPark := false, noDrain := false }) l fun c => { c with applied := true } := rfl

theorem prepareLoom_frame_found (s : State) (l : Nat) : Frame noReg [.looms] (foundRings (copyKeys s l) l) (prepareLoom s l) := by
  rw [prepareLoom_eq]
  exact ((Frame.refl _).setLoom (by simp) _ _).setFront (by simp) _ _

theorem prepareLoom_frame (s : State) (l : Nat) : Frame accessRegs prepareParts s (prepareLoom (fresh s) l) :=
  ((copyKeys_frame s l).trans ((foundRings_frame _ l).mono (fun _ hn => hn.elim) (by decide))).trans
    ((prepareLoom_frame_found _ l).mono (fun _ hn => hn.elim) (by decide))

theorem loomOf_prepareLoom (hcmds : (loomOf s l).cmds = [c]) : loomOf (prepareLoom (fresh s) l) l =
    { loomOf s l with
      cmds := [{ c with applied := true }], noPark := false, noDrain := false
      keys := keysOf (rdF s (loomKey l 0x490) 6 0) (keyTable (fresh s) l).2 } := by
  have hfound := ((foundRings_frame (copyKeys (fresh s) l) l).loomOf_eq (by simp) l).trans (loomOf_copyKeys s l)
  rw [prepareLoom_eq, loomOf_setFront (c := c), loomOf_setLoom_self, hfound]
  rw [loomOf_setLoom_self, hfound]
  exact hcmds

/-- The rings of a loom that a START has prepared are lost no more. -/
theorem lost_prepareLoom {r : Nat} (hr : within r 1 (ringBase s l) (lvF s l 0x114 18 0) = true) : (ringOf (prepareLoom (fresh s) l) r).lost = false := by
  have hlive : (copyKeys (fresh s) l).live = s.live := (copyKeys_frame s l).parts .live (by decide)
  have hrange : within r 1 (ringBase (copyKeys (fresh s) l) l) (lvF (copyKeys (fresh s) l) l 0x114 18 0) = true := by
    unfold ringBase lvF lv at hr ⊢
    rwa [hlive]
  rw [(prepareLoom_frame_found _ l).ringOf_eq (by simp), ringOf_foundRings, if_pos hrange]

end Prepare

end Sys2Proof.Machine

namespace Sys2Proof.Machine

section Running

variable {s : State} {l : Nat} {c : LoomCmd}

/-- A START whose loom has no bolt left to resume: the loom runs, its event is posted, and a pause in force holds it (R261, R268, R390). -/
def turnedRunning (s : State) (l : Nat) : State := postState (setLoomSt s l 2) l 2 2

theorem loomSt_setLoomSt (s : State) (l : Nat) {v : Nat} (hv : v < 8) : loomSt (setLoomSt s l v) l = v :=
  (rdF_wrF_self _ _ _ _ _ (by omega) (by omega)).trans (Nat.mod_eq_of_lt hv)

theorem setLoomSt_frame (s : State) (l v : Nat) : Frame (pageRegs (loomKey l 0)) [] s (setLoomSt s l v) :=
  (Frame.refl s).wrF (pageRegs_loomKey (by omega)) _ _ _

theorem postState_frame (s : State) (l st op : Nat) : Frame noReg [.looms, .produced] s (postState s l st op) :=
  ((Frame.refl s).produce (by simp) _ _ _ _ _ _).setFront (by simp) _ _

theorem turnedRunning_frame (s : State) (l : Nat) : Frame (pageRegs (loomKey l 0)) [.looms, .produced] s (turnedRunning s l) :=
  ((setLoomSt_frame s l 2).mono (fun _ hk => hk) (by simp)).trans ((postState_frame _ l 2 2).mono (fun _ hn => hn.elim) fun _ hp => hp)

theorem loomSt_turnedRunning (s : State) (l : Nat) : loomSt (turnedRunning s l) l = 2 :=
  ((postState_frame _ l 2 2).loomSt_eq fun hn => hn).trans (loomSt_setLoomSt s l (by omega))

theorem loomOf_turnedRunning (hcmds : (loomOf s l).cmds = [c]) : loomOf (turnedRunning s l) l = { loomOf s l with cmds := [{ c with posted := true }] } := by
  have hprod : Frame noReg [.produced] (setLoomSt s l 2) (produce (setLoomSt s l 2) l 0x0030 0x025 l (BitVec.ofNat 64 2) (BitVec.ofNat 64 2)) :=
    (Frame.refl _).produce (by simp) _ _ _ _ _ _
  have hloom := (hprod.loomOf_eq (by decide) l).trans ((setLoomSt_frame s l 2).loomOf_eq (by simp) l)
  refine (loomOf_setFront (c := c) (hloom ▸ hcmds) _).trans ?_
  rw [hloom]

theorem produced_setFront (s : State) (l : Nat) (f : LoomCmd → LoomCmd) : (setFront s l f).produced = s.produced :=
  (Frame.setFront (K := noReg) (ps := [.looms]) (Frame.refl s) (by simp) l f).parts .produced (by decide)

theorem event_mem_turnedRunning (s : State) (l : Nat) :
    ∃ v ∈ tget [] (turnedRunning s l).produced l, v.type = 0x30 ∧ v.srcType = 0x25 ∧ v.srcInst = BitVec.ofNat 16 l ∧ v.info0 = 2 ∧ v.info1 = 2 := by
  refine ⟨eventNow (setLoomSt s l 2) l 0x0030 0x025 l 2 2, ?_, rfl, rfl, rfl, rfl, rfl⟩
  unfold turnedRunning postState
  rw [produced_setFront]
  exact eventNow_mem_produce (by rw [loomSt_setLoomSt s l (by omega)]; decide)

/-- The loom turnedRunning, and paused where the level in force asks for it. -/
def runs (s : State) (l : Nat) : State := applyPause (turnedRunning s l) l

theorem runs_held (s : State) (l : Nat) : HeldIn l (turnedRunning s l) (runs s l) := heldIn_applyPause l _

/-- The parts that a loom's start changes when it begins to run. -/
def runParts : List Part := [.looms, .produced, .entries, .cores]

theorem runs_frame (s : State) (l : Nat) : Frame (pageRegs (loomKey l 0)) runParts s (runs s l) := by
  refine ((turnedRunning_frame s l).mono (fun _ hk => hk) (by decide)).trans ((runs_held s l).frame.mono (fun k hk => ?_) (by decide))
  obtain rfl : k = loomKey l 0x4A8 := by simpa [someRegs] using hk
  exact pageRegs_loomKey (by omega)

theorem loomSt_runs (s : State) (l : Nat) : loomSt (runs s l) l = 2 := by
  refine ((runs_held s l).frame.loomSt_eq ?_).trans (loomSt_turnedRunning s l)
  simp [someRegs, loomKey]

theorem cmds_runs (hcmds : (loomOf s l).cmds = [c]) : (loomOf (runs s l) l).cmds = [{ c with posted := true }] :=
  (runs_held s l).cmds.trans (congrArg Loom.cmds (loomOf_turnedRunning hcmds))

theorem executing_runs (hcmds : (loomOf s l).cmds = [c]) : (loomOf (runs s l) l).executing = (loomOf s l).executing :=
  (runs_held s l).executing.trans (by rw [loomOf_turnedRunning hcmds])

theorem keys_runs (hcmds : (loomOf s l).cmds = [c]) : (loomOf (runs s l) l).keys = (loomOf s l).keys :=
  (runs_held s l).keys.trans (by rw [loomOf_turnedRunning hcmds])

theorem event_mem_runs (s : State) (l : Nat) :
    ∃ v ∈ tget [] (runs s l).produced l, v.type = 0x30 ∧ v.srcType = 0x25 ∧ v.srcInst = BitVec.ofNat 16 l ∧ v.info0 = 2 ∧ v.info1 = 2 := by
  have hproduced : (runs s l).produced = (turnedRunning s l).produced := (runs_held s l).frame.parts .produced (by decide)
  rw [hproduced]
  exact event_mem_turnedRunning s l

/-- What START has prepared before it lets the loom run (R261). -/
def preparedFor (s : State) (l : Nat) (c : LoomCmd) : State := if c.applied then fresh s else prepareLoom (fresh s) l

theorem preparedFor_frame (s : State) (l : Nat) (c : LoomCmd) : Frame accessRegs prepareParts s (preparedFor s l c) :=
  Frame.ite (fun _ => (Frame.refl s).fresh (by decide)) fun _ => prepareLoom_frame s l

theorem loomOf_preparedFor (hcmds : (loomOf s l).cmds = [c]) :
    (loomOf (preparedFor s l c) l).cmds = [{ c with applied := true }] ∧ (loomOf (preparedFor s l c) l).executing = (loomOf s l).executing := by
  unfold preparedFor
  cases happlied : c.applied with
  | true =>
    refine ⟨hcmds.trans ?_, rfl⟩
    rw [← happlied]
  | false =>
    rw [if_neg (by simp), loomOf_prepareLoom hcmds]
    exact ⟨rfl, rfl⟩

theorem goStart_of_free (hfree : ((parkedBolt (preparedFor s l c) l).any fun p => resumable (preparedFor s l c) l p.2.1 p.2.2) = false) :
    goStart (fresh s) l c = runs (preparedFor s l c) l := by
  unfold preparedFor at hfree
  unfold goStart
  simp only [hfree, Bool.false_eq_true, if_false]
  rfl

/-- The registers that a START carried on may write. -/
def startedRegs (l : Nat) : Nat → Prop := fun k => accessRegs k ∨ pageRegs (loomKey l 0) k

/-- The parts that a START carried on may change before it pays for its reads. -/
def startedParts : List Part := runParts ++ prepareParts

theorem started_runs_frame (s : State) (l : Nat) (c : LoomCmd) : Frame (startedRegs l) startedParts s (runs (preparedFor s l c) l) :=
  ((preparedFor_frame s l c).mono (fun _ => .inl) (by decide)).trans ((runs_frame _ l).mono (fun _ => .inr) (by decide))

end Running

section CarryOn

variable {s : State} {l : LoomId} {c : LoomCmd}

/-- The executing command of a loom carried on (R261-R265). -/
def carryOn (l : Nat) (s : State) : State :=
  match (loomOf s l).executing, (loomOf s l).cmds with
  | true, c :: _ => match goCmd s l c with
    | (t, some code) => syncLoom (runCmds 10 (endCmd t l c.op code) l) l
    | (t, none) => t
  | _, _ => s

theorem exec_loomQuiesced_eq (l : LoomId) (s : State) : exec (.loomQuiesced l) s = effect (asking (carryOn l)) s := rfl

theorem carryOn_of_waiting {t : State} {m : Nat} (hcmds : (loomOf s m).cmds = [c]) (hexec : (loomOf s m).executing = true) (hgo : goCmd s m c = (t, none)) :
    carryOn m s = t := by
  unfold carryOn
  rw [hexec, hcmds]
  simp only [hgo]

theorem carryOn_of_finished {m code : Nat} (hcmds : (loomOf s m).cmds = [c]) (hexec : (loomOf s m).executing = true) (hgo : goCmd s m c = (s, some code)) :
    carryOn m s = finished s m c code := by
  have hempty : (loomOf (endCmd s m c.op code) m).cmds = [] := by
    show (loomOf (setLoom s m _) m).cmds = []
    rw [loomOf_setLoom_self, hcmds]
    rfl
  unfold carryOn
  rw [hexec, hcmds]
  simp only [hgo, runCmds_of_empty 10 hempty]
  rfl

theorem goCmd_start (s : State) (l : Nat) (hop : c.op = 2) :
    goCmd s l c = if c.posted then (s, if stateOwed s l then none else some 0) else (goStart s l c, none) := by
  simp only [goCmd, hop]

/-- A command whose accesses, if any, are at once served, and that leaves no bill, is its whole effect. -/
theorem effect_asking_of_idle {K : Nat → Prop} {ps : List Part} {f : State → State} (hw : atWork s) (hf : Frame K ps s (f (fresh s))) (hidle : (f (fresh s)).trip = {}) :
    effect (asking f) s = .next (f (fresh s)) := by
  rw [effect_eq, asking_of_served hw.1 (served_of_idle hidle) (overfull_of_eventsOpen hw.2 _), keep_of_frame hf]

/-- A START whose event is not yet staged waits (R223). -/
theorem exec_loomQuiesced_of_owed (hw : atWork s) (hcmds : (loomOf s l).cmds = [c]) (hexec : (loomOf s l).executing = true) (hop : c.op = 2)
    (hposted : c.posted = true) (howed : stateOwed s l = true) : exec (.loomQuiesced l) s = .next (fresh s) := by
  have hgo : goCmd (fresh s) l c = (fresh s, none) := by
    rw [goCmd_start _ _ hop, hposted, show stateOwed (fresh s) l = true from howed]
    rfl
  have hcarry : carryOn l (fresh s) = fresh s := carryOn_of_waiting hcmds hexec hgo
  rw [exec_loomQuiesced_eq, effect_asking_of_idle (K := noReg) (ps := [.trip]) hw, hcarry]
  · rw [hcarry]
    exact (Frame.refl s).fresh (by simp)
  · rw [hcarry]
    rfl

/-- A START ends once its event is staged (R223, R261). -/
theorem exec_loomQuiesced_of_staged (hw : atWork s) (hcmds : (loomOf s l).cmds = [c]) (hexec : (loomOf s l).executing = true) (hop : c.op = 2)
    (hposted : c.posted = true) (howed : stateOwed s l = false) :
    ∃ t, exec (.loomQuiesced l) s = .next t ∧ Answered t l 2 0 ∧ loomSt t l = loomSt s l ∧ Frame (queueRegs l) [.looms, .trip] s t := by
  have hgo : goCmd (fresh s) l c = (fresh s, some 0) := by
    rw [goCmd_start _ _ hop, hposted, show stateOwed (fresh s) l = false from howed]
    rfl
  have hcarry : carryOn l (fresh s) = finished (fresh s) l c 0 := carryOn_of_finished hcmds hexec hgo
  have hframe : Frame (queueRegs l) [.looms, .trip] s (finished (fresh s) l c 0) :=
    ((Frame.refl s).fresh (by simp)).trans ((finished_frame _ l c 0).mono (fun _ hk => hk) (by simp))
  have htrip : (finished (fresh s) l c 0).trip = {} := (finished_frame (fresh s) l c 0).parts .trip (by decide)
  have hdone := effect_asking_of_idle (f := carryOn l) hw (by rwa [hcarry]) (by rwa [hcarry])
  refine ⟨_, hdone, ?_, ?_, ?_⟩
  · rw [hcarry, ← hop]
    exact finished_answered hcmds (by omega) (by omega)
  · rw [hcarry]
    exact loomSt_finished _ _ _ _
  · rwa [hcarry]

/-- A START with no parked bolt left to resume lets the loom run, and pays for the reads of its key table (R261). -/
theorem exec_loomQuiesced_of_free (hw : atWork s) (hcmds : (loomOf s l).cmds = [c]) (hexec : (loomOf s l).executing = true) (hop : c.op = 2)
    (hposted : c.posted = false) (hfree : ((parkedBolt (preparedFor s l c) l).any fun p => resumable (preparedFor s l c) l p.2.1 p.2.2) = false)
    (hserved : accessesServed (goStart (fresh s) l c)) :
    ∃ t, exec (.loomQuiesced l) s = .next t ∧ Frame chargeRegs chargeParts (runs (preparedFor s l c) l) t := by
  have hstart := goStart_of_free hfree
  have hgo : goCmd (fresh s) l c = (runs (preparedFor s l c) l, none) := by
    rw [goCmd_start _ _ hop, hposted, hstart]
    rfl
  have hcarry : carryOn l (fresh s) = runs (preparedFor s l c) l := carryOn_of_waiting hcmds hexec hgo
  rw [hstart, ← hcarry] at hserved
  rw [exec_loomQuiesced_eq, ← hcarry]
  exact effect_asking_of_served hw (by rw [hcarry]; exact started_runs_frame s l c) hserved

end CarryOn

-- ## The obligation

section LoomCommands

variable {s : State} {l : LoomId} {c : LoomCmd}

/-- What a START that lets its loom run leaves, before it has paid for its reads and after (R261, R268). -/
theorem running_of_paid {t : State} (hcmds : (loomOf s l).cmds = [c]) (hexec : (loomOf s l).executing = true) (hop : c.op = 2)
    (hpaid : Frame chargeRegs chargeParts (runs (preparedFor s l c) l) t) :
    loomSt t l = 2 ∧ (loomOf t l).executing = true ∧ (loomOf t l).cmds.map (fun x => (x.op, x.posted)) = [(2, true)] ∧
      (∃ v ∈ tget [] t.produced l, v.type = 0x30 ∧ v.srcType = 0x25 ∧ v.srcInst = BitVec.ofNat 16 l.val ∧ v.info0 = 2 ∧ v.info1 = 2) := by
  obtain ⟨hfront, hexecuting⟩ := loomOf_preparedFor hcmds
  have hloom := hpaid.loomOf_eq (by decide) l
  have hproduced : t.produced = (runs (preparedFor s l c) l).produced := hpaid.parts .produced (by decide)
  refine ⟨?_, ?_, ?_, ?_⟩
  · have hl := l.isLt
    exact (hpaid.loomSt_eq (not_chargeRegs_of_lt (by unfold loomKey; omega))).trans (loomSt_runs _ _)
  · rw [hloom, executing_runs hfront, hexecuting, hexec]
  · rw [hloom, cmds_runs hfront, ← hop]
    rfl
  · rw [hproduced]
    exact event_mem_runs _ _

/-- A START that has prepared its loom first: its rings fetch again, and its keys are the table's (R235, R261). -/
theorem prepared_of_paid {t : State} (hcmds : (loomOf s l).cmds = [c]) (happlied : c.applied = false)
    (hpaid : Frame chargeRegs chargeParts (runs (preparedFor s l c) l) t) :
    (∀ r, within r 1 (ringBase s l) (lvF s l 0x114 18 0) = true → (ringOf t r).lost = false) ∧
      ∀ u b, keyTable (fresh s) l = (u, .ok b) → (loomOf t l).keys = (List.range (rdF s (loomKey l 0x490) 6 0)).map fun i => keyOf (slice b (64 * i) 64) := by
  have hprepared : preparedFor s l c = prepareLoom (fresh s) l := by simp [preparedFor, happlied]
  obtain ⟨hfront, -⟩ := loomOf_preparedFor hcmds
  refine ⟨fun r hr => ?_, fun u b htable => ?_⟩
  · rw [hpaid.ringOf_eq (by decide), (runs_frame _ _).ringOf_eq (by decide), hprepared]
    exact lost_prepareLoom hr
  · rw [hpaid.loomOf_eq (by decide), keys_runs hfront, hprepared, loomOf_prepareLoom hcmds, htable]
    rfl

theorem paid_frame {t : State} (hpaid : Frame chargeRegs chargeParts (runs (preparedFor s l c) l) t) :
    t.mem = s.mem ∧ Frame (fun k => accessRegs k ∨ pageRegs (loomKey l 0) k) ([.looms, .rings, .cores, .entries] ++ accessParts) s t := by
  have hall := (started_runs_frame s l c).trans (hpaid.mono (K' := startedRegs l) (qs := startedParts) (fun _ hk => .inl (accessRegs_of_chargeRegs hk)) (by decide))
  exact ⟨hall.parts .mem (by decide), hall.mono (fun _ hk => hk) (by decide)⟩

/-- Settles O37: a command in an empty queue starts at once, so CREATE and START are what `beginCmd` makes of them, and LOOM_QUIESCED carries a START on. -/
theorem loomCreateStart : Obligations.LoomCreateStart := by
  unfold Obligations.LoomCreateStart
  intro s l
  refine ⟨fun hpage hawake hempty hidle hready => ?_, fun c hw hcmds hexec hop => ⟨fun hposted hfree hserved => ?_, ?_, ?_⟩⟩
  · have h : QueueFree s l := ⟨hpage, hawake, hempty, hidle⟩
    refine ⟨fun hst hcheck => ?_, fun hst hcheck => ?_, fun hst => exec_loomCreate_of_bound h hready hst, fun hst => ?_, fun hst => ?_, fun hst => ?_⟩
    · obtain ⟨hdone, hanswer, hseq⟩ := exec_loomCreate_of_ok h hready hst hcheck
      refine ⟨_, hdone, hanswer, loomSt_createdState s l, fun o ho => lv_createdState_of_mem s l ho, fun m hm o ho => lv_createdState_of_ne s l hm ho,
        fun k hk => ?_, fun k hk => ?_, fun r hr => ?_, fun r hr => ?_, fun c hc hset => rd_owner_createdState s l hc hset, hseq, createdState_frame s l⟩
      · exact (knotOf_createdState s l k).trans (if_pos hk)
      · exact (knotOf_createdState s l k).trans (if_neg (by simp [loomPage, hk]))
      · rw [ringOf_createdState, loomPage, loomPage, if_pos hr]
        exact ⟨rfl, rfl⟩
      · exact (ringOf_createdState s l r).trans (if_neg (by simp [loomPage, hr]))
    · obtain ⟨t, hdone, hanswer, hkept, hframe⟩ := exec_loomCreate_of_failing h hready hst hcheck
      exact ⟨t, hdone, hanswer, hkept.trans hst, hframe⟩
    · have hcmds := (congrArg Loom.cmds (loomOf_startedState s l)).trans (h.cmds_queued _)
      refine ⟨_, exec_loomStart_of_begun h hready hst, hcmds, by rw [loomOf_startedState], loomSt_startedState s l, fun c hc => ⟨fun havail => ?_, fun havail => ?_⟩,
        fun c hc havail hgated b hlo hhi => ?_, fun b hb => ?_, startedState_frame s l⟩
      · exact (rd_gate_startedState hc).trans (if_pos havail)
      · exact (rd_gate_startedState hc).trans (if_neg (by simp [havail]))
      · rw [mem_startedState]
        exact mem_powerUps_of_woken (lt_of_mem_loomCores hc) ⟨hlo, hhi⟩ _ _ hc havail hgated
      · rw [mem_startedState]
        exact mem_powerUps_outside _ _ hb
    · obtain ⟨t, hdone, hanswer, -, hframe⟩ := exec_loomStart_of_running h hready hst
      exact ⟨t, hdone, hanswer, hframe⟩
    · obtain ⟨t, hdone, hanswer, -, hframe⟩ := exec_loomStart_of_destroyed h hready hst
      exact ⟨t, hdone, hanswer, hframe⟩
  · obtain ⟨t, hdone, hpaid⟩ := exec_loomQuiesced_of_free hw hcmds hexec hop hposted hfree hserved
    obtain ⟨hst, hexecuting, hfront, hevent⟩ := running_of_paid hcmds hexec hop hpaid
    obtain ⟨hmem, hframe⟩ := paid_frame hpaid
    exact ⟨t, hdone, hst, hexecuting, hfront, hevent, fun happlied => prepared_of_paid hcmds happlied hpaid, hmem, hframe⟩
  · exact exec_loomQuiesced_of_owed hw hcmds hexec hop
  · exact exec_loomQuiesced_of_staged hw hcmds hexec hop

end LoomCommands

end Sys2Proof.Machine
